-- ==== Sys2Proof/Word.lean ====
section
/-! DEFINITION. The bit widths of the FJ-8400's registers and the plain names of its slots. -/

namespace Sys2Proof

/-- A byte of memory. -/
abbrev Byte := BitVec 8
/-- A 64-bit scalar or system register. -/
abbrev Word := BitVec 64
/-- A vector register: 64 lanes of 32 bits, lane i at bits 32i+31:32i (R38, R147). -/
abbrev VReg := BitVec 2048
/-- The 8 KiB of a tile register, byte j at bits 8j+7:8j (R38, R49). -/
abbrev TileData := BitVec 65536
/-- A 128-bit tile type word (R45). -/
abbrev TypeWord := BitVec 128
/-- A 384-bit bundle (R85). -/
abbrev BundleWord := BitVec 384
/-- A 64-byte window descriptor (R58). -/
abbrev WindowWord := BitVec 512

/-- The eight slots of a bundle, in the order of R32. -/
inductive Slot where
  | S | V0 | V1 | M | C0 | C1 | X | K
  deriving DecidableEq, Repr

/-- The slot code of SYND3 (R54). -/
def Slot.code : Slot → Nat
  | .S => 0 | .V0 => 1 | .V1 => 2 | .M => 3 | .C0 => 4 | .C1 => 5 | .X => 6 | .K => 7

end Sys2Proof
end

