-- ==== Sys2Proof/Formats.lean ====
section
/-! DEFINITION. The operand formats of the slots (R86, R92 to R96), the branch tree (R87), host command blocks (R365)
and fabric flits (R333), as records of their fields. -/

namespace Sys2Proof

/-- What every slot begins with (R86): the slot it stands in, its guard predicate and its path tag. -/
structure Hdr where
  slot  : Slot
  guard : BitVec 4
  tag   : BitVec 3
  deriving DecidableEq, Repr

/-- SR: register arithmetic (R93). -/
structure SR where
  rd  : BitVec 6
  ra  : BitVec 6
  rb  : BitVec 6
  mod : BitVec 5
  deriving DecidableEq, Repr

/-- SI: immediate arithmetic (R93). -/
structure SI where
  rd  : BitVec 6
  ra  : BitVec 6
  imm : BitVec 29
  deriving DecidableEq, Repr

/-- SL: `li`, `lih` (R93). -/
structure SL where
  rd  : BitVec 6
  imm : BitVec 35
  deriving DecidableEq, Repr

/-- SS: `sel` (R93). -/
structure SS where
  rd : BitVec 6
  ra : BitVec 6
  rb : BitVec 6
  pa : BitVec 4
  deriving DecidableEq, Repr

/-- SC: `cmp` (R93). -/
structure SC where
  pt : BitVec 4
  pf : BitVec 4
  ra : BitVec 6
  rb : BitVec 6
  cc : BitVec 3
  deriving DecidableEq, Repr

/-- SCI: `cmpi` (R93). -/
structure SCI where
  pt  : BitVec 4
  pf  : BitVec 4
  ra  : BitVec 6
  cc  : BitVec 3
  imm : BitVec 24
  deriving DecidableEq, Repr

/-- SP: predicate logic (R93). -/
structure SP where
  pt : BitVec 4
  pf : BitVec 4
  pa : BitVec 4
  pb : BitVec 4
  ra : BitVec 6
  deriving DecidableEq, Repr

/-- SB: `bmov`, `bget` (R93). -/
structure SB where
  bd : BitVec 4
  ba : BitVec 4
  ra : BitVec 6
  deriving DecidableEq, Repr

/-- SBL: `bli` (R93). -/
structure SBL where
  bd  : BitVec 4
  pos : BitVec 32
  deriving DecidableEq, Repr

/-- SX: control, dimension, type and CSR (R93). -/
structure SX where
  rd  : BitVec 6
  ra  : BitVec 6
  rb  : BitVec 6
  imm : BitVec 23
  deriving DecidableEq, Repr

/-- SW: `wait` (R93). -/
structure SW where
  l : BitVec 6
  s : BitVec 6
  c : BitVec 6
  t : BitVec 6
  deriving DecidableEq, Repr

/-- VR: vector arithmetic, conversion, permute, reduce (R94). -/
structure VR where
  vd  : BitVec 6
  va  : BitVec 6
  vb  : BitVec 6
  vc  : BitVec 6
  msk : BitVec 3
  rm  : BitVec 2
  et  : BitVec 3
  mod : BitVec 4
  deriving DecidableEq, Repr

/-- VS: scalar operand, scratchpad, queues (R94). -/
structure VS where
  vd  : BitVec 6
  va  : BitVec 6
  sa  : BitVec 6
  msk : BitVec 3
  et  : BitVec 3
  mod : BitVec 4
  imm : BitVec 13
  deriving DecidableEq, Repr

/-- VC: compares into masks (R94). -/
structure VC where
  md : BitVec 3
  va : BitVec 6
  vb : BitVec 6
  msk : BitVec 3
  et : BitVec 3
  cc : BitVec 3
  deriving DecidableEq, Repr

/-- VM: mask logic, `mpop` (R94). -/
structure VM where
  md : BitVec 3
  ma : BitVec 3
  mb : BitVec 3
  rd : BitVec 6
  deriving DecidableEq, Repr

/-- VT: tile-row moves (R94). -/
structure VT where
  vd  : BitVec 6
  tt  : BitVec 4
  sa  : BitVec 6
  msk : BitVec 3
  imm : BitVec 12
  deriving DecidableEq, Repr

/-- MF: all M-slot opcodes (R95). -/
structure MF where
  td  : BitVec 4
  ak  : BitVec 1
  aop : BitVec 12
  bk  : BitVec 1
  bop : BitVec 12
  mod : BitVec 5
  deriving DecidableEq, Repr

/-- XF: all X-slot opcodes (R95). -/
structure XF where
  td : BitVec 4
  ta : BitVec 4
  xe : BitVec 3
  deriving DecidableEq, Repr

/-- KF: all K-slot opcodes (R95). -/
structure KF where
  ks : BitVec 5
  deriving DecidableEq, Repr

/-- CI: scalar and vector loads and stores, `waitge` (R96). -/
structure CI where
  rd  : BitVec 6
  rb  : BitVec 6
  imm : BitVec 14
  deriving DecidableEq, Repr

/-- CA: `amo`, `cas` (R96). -/
structure CA where
  rd   : BitVec 6
  rb   : BitVec 6
  rc   : BitVec 6
  aop  : BitVec 4
  size : BitVec 2
  deriving DecidableEq, Repr

/-- CW: `tld`, `tst` (R96). -/
structure CW where
  tt  : BitVec 4
  win : BitVec 8
  rx  : BitVec 6
  ry  : BitVec 6
  mod : BitVec 2
  deriving DecidableEq, Repr

/-- CF: `acq`, `rel`, `xfence`, `fence` (R96). -/
structure CF where
  pa    : BitVec 3
  pb    : BitVec 3
  scope : BitVec 3
  obj   : BitVec 16
  deriving DecidableEq, Repr

/-- CR: copy commands (R96). -/
structure CR where
  ra  : BitVec 6
  rb  : BitVec 6
  rc  : BitVec 6
  rd  : BitVec 6
  mod : BitVec 2
  deriving DecidableEq, Repr

/-- One test of a branch tree (R87). -/
structure Test where
  pred  : BitVec 4
  sense : BitVec 1
  tgt   : BitVec 4
  kind  : BitVec 1
  deriving DecidableEq, Repr

/-- A command block as it reaches a Unoon port (R365), with the bulk data that follows it. `port` is the port it
arrived on (R364). -/
structure Command where
  port   : Nat
  opc    : BitVec 8
  status : BitVec 12
  part   : BitVec 4
  rsv    : BitVec 8
  seq    : BitVec 32
  a      : Vector Word 7
  data   : List Byte
  deriving DecidableEq, Repr

/-- What the flits of a sorted stream tell besides their entries, for which R333 and R334 name no place: RA and RC of the `ssend`, the
leaves it stands for with their status bits, whether this flit is its first and its last, how many streams of other parameters follow it in
the round, and the round (log entry 15). -/
structure StreamSide where
  ra    : Word
  rc    : Word
  marks : List (Nat × BitVec 9)
  first : Bool
  last  : Bool
  left  : Nat
  round : Nat
  deriving DecidableEq, Repr, Inhabited

/-- A native flit: the header fields of R333 and the payload bytes. -/
structure Flit where
  dst     : Nat
  src     : Nat
  ten     : Nat
  ktag    : BitVec 16
  cls     : Nat
  tyw     : Bool
  agent   : Nat
  epoch   : Nat
  len     : Nat
  vch     : Nat
  pa      : Nat
  payload : List Byte
  side    : Option StreamSide := none
  deriving DecidableEq, Repr

/-- A lane of a port (R332). -/
structure PortLane where
  port : Nat
  lane : Nat
  deriving DecidableEq, Repr

/-- A flit as it arrives at a port; `excess` says that it is beyond its tenant's credits there (R339). -/
structure Arrival where
  flit : Flit
  excess : Bool
  deriving DecidableEq, Repr

/-- The 16-byte header of a flit (R333). -/
def Flit.header (f : Flit) : BitVec 128 :=
  BitVec.ofNat 14 f.dst ++ BitVec.ofNat 14 f.src ++ BitVec.ofNat 12 f.ten ++ f.ktag ++ BitVec.ofNat 4 f.cls ++ BitVec.ofBool f.tyw ++
    BitVec.ofNat 9 f.agent ++ BitVec.ofNat 8 f.epoch ++ BitVec.ofNat 8 f.len ++ BitVec.ofNat 2 f.vch ++ BitVec.ofNat 40 f.pa

/-- A flit of its header and payload (R333). -/
def flitOf (h : BitVec 128) (payload : List Byte) : Flit :=
  { dst := (h.extractLsb' 114 14).toNat, src := (h.extractLsb' 100 14).toNat, ten := (h.extractLsb' 88 12).toNat
    ktag := h.extractLsb' 72 16, cls := (h.extractLsb' 68 4).toNat, tyw := h.getLsbD 67, agent := (h.extractLsb' 58 9).toNat
    epoch := (h.extractLsb' 50 8).toNat, len := (h.extractLsb' 42 8).toNat, vch := (h.extractLsb' 40 2).toNat
    pa := (h.extractLsb' 0 40).toNat, payload := payload }

/-- The flit as its 256 bytes hold it: the fields in the widths of the header, at most 240 payload bytes (R333). -/
def Flit.onWire (f : Flit) : Flit := { flitOf f.header (f.payload.take 240) with side := f.side }

/-- What a soft error strikes (R189): an 8-byte word of home memory with the stack that holds it, or a storage array of a
core or shared unit, named by its unit code (R375). -/
inductive ErrPlace where
  | home (pa stack : Nat)
  | unit (code : BitVec 32)
  deriving DecidableEq, Repr

end Sys2Proof
end

