-- ==== Sys2Proof/Syntax.lean ====
section
/-! DEFINITION. The steps of the FJ-8400: one constructor per row of the opcode table, its operands as the fields of its
format. Slot operations carry their header (slot, guard, path tag); events carry the unit they happen to and what
the outside supplies. A host command acts on the command block that State holds, and the last few events act on whatever
is due; these have no operands and stand last. -/

namespace Sys2Proof

/-- Every operation, event and command of the part. -/
inductive Instr where
  /-- NOP: An all-zero slot that has no effect (R86) -/
  | nop (slot : Slot)
  /-- BRANCH_TREE: The bundle's branch tree is evaluated at issue and selects a leaf; a jump or call goes to its target at c+3, and a call writes the link into b15 (R88) -/
  | branchTree (drain : Bool) (tests : List Test)
  /-- ADD: Scalar add, with .w and .sat forms (R118) -/
  | add (h : Hdr) (o : SR)
  /-- SUB: Scalar subtract, with .w and .sat forms (R118) -/
  | sub (h : Hdr) (o : SR)
  /-- AND: Scalar bitwise AND (R118) -/
  | and (h : Hdr) (o : SR)
  /-- OR: Scalar bitwise OR (R118) -/
  | or (h : Hdr) (o : SR)
  /-- XOR: Scalar bitwise XOR (R118) -/
  | xor (h : Hdr) (o : SR)
  /-- SLL: Scalar logical shift left by b[5:0] (R118) -/
  | sll (h : Hdr) (o : SR)
  /-- SRL: Scalar logical shift right by b[5:0] (R118) -/
  | srl (h : Hdr) (o : SR)
  /-- SRA: Scalar arithmetic shift right by b[5:0] (R118) -/
  | sra (h : Hdr) (o : SR)
  /-- MIN: The signed smaller of two scalars (R118) -/
  | min (h : Hdr) (o : SR)
  /-- MAX: The signed larger of two scalars (R118) -/
  | max (h : Hdr) (o : SR)
  /-- MINU: The unsigned smaller of two scalars (R118) -/
  | minu (h : Hdr) (o : SR)
  /-- MAXU: The unsigned larger of two scalars (R118) -/
  | maxu (h : Hdr) (o : SR)
  /-- SHADD: Shifts a left by k and adds b (R118) -/
  | shadd (h : Hdr) (o : SR)
  /-- CLZ: Counts the leading zeros of a scalar (R118) -/
  | clz (h : Hdr) (o : SR)
  /-- CTZ: Counts the trailing zeros of a scalar (R118) -/
  | ctz (h : Hdr) (o : SR)
  /-- POPC: Counts the one bits of a scalar (R118) -/
  | popc (h : Hdr) (o : SR)
  /-- BEXT: Extracts a bit field, optionally sign-extended with .sx (R120) -/
  | bext (h : Hdr) (o : SR)
  /-- BINS: Inserts the low bits of a into a field of the destination (R120) -/
  | bins (h : Hdr) (o : SR)
  /-- MUL: The low 64 bits of a product, with latency 3 (R118) -/
  | mul (h : Hdr) (o : SR)
  /-- MULH: The high half of a signed product (R118) -/
  | mulh (h : Hdr) (o : SR)
  /-- MULHU: The high half of an unsigned product (R118) -/
  | mulhu (h : Hdr) (o : SR)
  /-- DIV: Signed division that never traps (R121) -/
  | div (h : Hdr) (o : SR)
  /-- DIVU: Unsigned division that never traps (R121) -/
  | divu (h : Hdr) (o : SR)
  /-- REM: Signed remainder that never traps (R121) -/
  | rem (h : Hdr) (o : SR)
  /-- REMU: Unsigned remainder that never traps (R121) -/
  | remu (h : Hdr) (o : SR)
  /-- SEL: Selects one of two scalars by a predicate (R124) -/
  | sel (h : Hdr) (o : SS)
  /-- ADDI: Adds a signed 29-bit immediate (R122) -/
  | addi (h : Hdr) (o : SI)
  /-- ANDI: ANDs with a sign-extended immediate (R122) -/
  | andi (h : Hdr) (o : SI)
  /-- ORI: ORs with a sign-extended immediate (R122) -/
  | ori (h : Hdr) (o : SI)
  /-- XORI: XORs with a sign-extended immediate (R122) -/
  | xori (h : Hdr) (o : SI)
  /-- SLLI: Logical shift left by an immediate (R122) -/
  | slli (h : Hdr) (o : SI)
  /-- SRLI: Logical shift right by an immediate (R122) -/
  | srli (h : Hdr) (o : SI)
  /-- SRAI: Arithmetic shift right by an immediate (R122) -/
  | srai (h : Hdr) (o : SI)
  /-- LI: Loads a sign-extended 35-bit immediate (R123) -/
  | li (h : Hdr) (o : SL)
  /-- LIH: Writes an immediate into bits 63:29 and keeps bits 28:0 (R123) -/
  | lih (h : Hdr) (o : SL)
  /-- CMP: Compares two scalars into a predicate pair at c+2 (R125) -/
  | cmp (h : Hdr) (o : SC)
  /-- CMPI: Compares a scalar with an immediate into a predicate pair (R125) -/
  | cmpi (h : Hdr) (o : SCI)
  /-- PAND: Predicate AND into a predicate pair (R126) -/
  | pand (h : Hdr) (o : SP)
  /-- POR: Predicate OR into a predicate pair (R126) -/
  | por (h : Hdr) (o : SP)
  /-- PXOR: Predicate XOR into a predicate pair (R126) -/
  | pxor (h : Hdr) (o : SP)
  /-- PANDN: Predicate AND NOT into a predicate pair (R126) -/
  | pandn (h : Hdr) (o : SP)
  /-- PTST: Tests a scalar for non-zero into a predicate pair (R126) -/
  | ptst (h : Hdr) (o : SP)
  /-- BLI: Loads a program position into a branch-target register (R127) -/
  | bli (h : Hdr) (o : SBL)
  /-- BMOV: Moves a scalar into a branch-target register (R127) -/
  | bmov (h : Hdr) (o : SB)
  /-- BGET: Moves a branch-target register into a scalar (R127) -/
  | bget (h : Hdr) (o : SB)
  /-- LOOP: Pushes a loop-stack entry, or skips the body when the count is 0 (R128) -/
  | loop (h : Hdr) (o : SX)
  /-- LBRK: Pops n loop-stack entries (R130) -/
  | lbrk (h : Hdr) (o : SX)
  /-- LGET: Reads a field of a loop-stack entry (R131) -/
  | lget (h : Hdr) (o : SX)
  /-- ROTCFG: Writes ROT at retire (R132) -/
  | rotcfg (h : Hdr) (o : SX)
  /-- SWP: Rotates the regions and steps the stage predicates (R133) -/
  | swp (h : Hdr) (o : SX)
  /-- BSEL: Rounds a length up to a bucket and binds a variable, a branch target and a PAD register (R135) -/
  | bsel (h : Hdr) (o : SX)
  /-- DBIND: Binds a dimension variable (R136) -/
  | dbind (h : Hdr) (o : SX)
  /-- DFREE: Unbinds dimension variables (R137) -/
  | dfree (h : Hdr) (o : SX)
  /-- DGET: Reads a dimension variable (R138) -/
  | dget (h : Hdr) (o : SX)
  /-- TYGET: Reads half of a tile type word (R139) -/
  | tyget (h : Hdr) (o : SX)
  /-- TYSET: Replaces a tile type word (R140) -/
  | tyset (h : Hdr) (o : SX)
  /-- CSRR: Reads a system register (R141) -/
  | csrr (h : Hdr) (o : SX)
  /-- CSRW: Writes a system register and returns its old value (R141) -/
  | csrw (h : Hdr) (o : SX)
  /-- CSRS: Sets bits of a system register (R141) -/
  | csrs (h : Hdr) (o : SX)
  /-- CSRC: Clears bits of a system register (R141) -/
  | csrc (h : Hdr) (o : SX)
  /-- TRAP: Raises a software trap (R142) -/
  | trap (h : Hdr) (o : SX)
  /-- TRET: Ends a user handler and reissues the trapping bundle, or skips it with .skip (R143) -/
  | tret (h : Hdr) (o : SX)
  /-- EXIT: Commits the bundle and retires the instance once L, S and T are zero (R19) -/
  | exit (h : Hdr) (o : SX)
  /-- WAIT: Holds the bundle until the class counters meet its limits (R30) -/
  | wait (h : Hdr) (o : SW)
  /-- BAR: Holds until every member of the level group reaches this barrier generation (R20) -/
  | bar (h : Hdr) (o : SX)
  /-- VFADD: Vector FP add (R150) -/
  | vfadd (h : Hdr) (o : VR)
  /-- VFSUB: Vector FP subtract (R150) -/
  | vfsub (h : Hdr) (o : VR)
  /-- VFMUL: Vector FP multiply (R150) -/
  | vfmul (h : Hdr) (o : VR)
  /-- VFFMA: Vector fused multiply-add (R151) -/
  | vffma (h : Hdr) (o : VR)
  /-- VFFMS: Vector fused multiply-subtract (R151) -/
  | vffms (h : Hdr) (o : VR)
  /-- VFMIN: Vector IEEE minimum (R150) -/
  | vfmin (h : Hdr) (o : VR)
  /-- VFMAX: Vector IEEE maximum (R150) -/
  | vfmax (h : Hdr) (o : VR)
  /-- VFABS: Vector FP absolute value (R151) -/
  | vfabs (h : Hdr) (o : VR)
  /-- VFNEG: Vector FP negate (R151) -/
  | vfneg (h : Hdr) (o : VR)
  /-- VFDIV: Vector FP divide (R150) -/
  | vfdiv (h : Hdr) (o : VR)
  /-- VFSQRT: Vector FP square root (R150) -/
  | vfsqrt (h : Hdr) (o : VR)
  /-- VFEXP2: Vector correctly rounded 2^x (R80) -/
  | vfexp2 (h : Hdr) (o : VR)
  /-- VFLOG2: Vector correctly rounded log2 (R80) -/
  | vflog2 (h : Hdr) (o : VR)
  /-- VFRCP: Vector correctly rounded reciprocal (R80) -/
  | vfrcp (h : Hdr) (o : VR)
  /-- VFRSQ: Vector correctly rounded reciprocal square root (R80) -/
  | vfrsq (h : Hdr) (o : VR)
  /-- VADD: Vector integer add (R152) -/
  | vadd (h : Hdr) (o : VR)
  /-- VSUB: Vector integer subtract (R152) -/
  | vsub (h : Hdr) (o : VR)
  /-- VMUL: Vector integer multiply, low half (R152) -/
  | vmul (h : Hdr) (o : VR)
  /-- VMULH: Vector integer multiply, high half (R152) -/
  | vmulh (h : Hdr) (o : VR)
  /-- VAND: Vector bitwise AND (R152) -/
  | vand (h : Hdr) (o : VR)
  /-- VOR: Vector bitwise OR (R152) -/
  | vor (h : Hdr) (o : VR)
  /-- VXOR: Vector bitwise XOR (R152) -/
  | vxor (h : Hdr) (o : VR)
  /-- VANDN: Vector bitwise AND NOT (R152) -/
  | vandn (h : Hdr) (o : VR)
  /-- VSLL: Vector logical shift left (R152) -/
  | vsll (h : Hdr) (o : VR)
  /-- VSRL: Vector logical shift right (R152) -/
  | vsrl (h : Hdr) (o : VR)
  /-- VSRA: Vector arithmetic shift right (R152) -/
  | vsra (h : Hdr) (o : VR)
  /-- VMIN: Vector integer minimum (R152) -/
  | vmin (h : Hdr) (o : VR)
  /-- VMAX: Vector integer maximum (R152) -/
  | vmax (h : Hdr) (o : VR)
  /-- VABS: Vector integer absolute value (R153) -/
  | vabs (h : Hdr) (o : VR)
  /-- VCVT: Vector element conversion (R154) -/
  | vcvt (h : Hdr) (o : VR)
  /-- VMERGE: Merges two vectors under a mask (R158) -/
  | vmerge (h : Hdr) (o : VR)
  /-- VFCMP: Vector FP compare into a mask (R155) -/
  | vfcmp (h : Hdr) (o : VC)
  /-- VCMP: Vector INT32 compare into a mask (R156) -/
  | vcmp (h : Hdr) (o : VC)
  /-- VPERM: Permutes elements from two vectors by index (R160) -/
  | vperm (h : Hdr) (o : VR)
  /-- VSLIDE: Slides lanes across two vectors (R161) -/
  | vslide (h : Hdr) (o : VR)
  /-- VBCAST: Broadcasts a scalar to a vector (R158) -/
  | vbcast (h : Hdr) (o : VS)
  /-- VLANE: Writes each lane's number (R158) -/
  | vlane (h : Hdr) (o : VR)
  /-- VMOVS: Moves one vector element into a scalar (R159) -/
  | vmovs (h : Hdr) (o : VS)
  /-- VMOVS_INS: Inserts a scalar into one vector element (R159) -/
  | vmovsIns (h : Hdr) (o : VS)
  /-- VFRED: Vector FP reduction by a fixed pairwise tree (R162) -/
  | vfred (h : Hdr) (o : VR)
  /-- VRED: Vector integer reduction (R162) -/
  | vred (h : Hdr) (o : VR)
  /-- VFSCAN: Vector FP prefix scan (R162) -/
  | vfscan (h : Hdr) (o : VR)
  /-- VSCAN: Vector integer prefix scan (R162) -/
  | vscan (h : Hdr) (o : VR)
  /-- MAND: Mask AND (R157) -/
  | mand (h : Hdr) (o : VM)
  /-- MOR: Mask OR (R157) -/
  | mor (h : Hdr) (o : VM)
  /-- MXOR: Mask XOR (R157) -/
  | mxor (h : Hdr) (o : VM)
  /-- MANDN: Mask AND NOT (R157) -/
  | mandn (h : Hdr) (o : VM)
  /-- MPOP: Counts the one bits of a mask into a scalar (R157) -/
  | mpop (h : Hdr) (o : VM)
  /-- VTROW: Reads one 256-byte row of a tile into a vector (R163) -/
  | vtrow (h : Hdr) (o : VT)
  /-- VTWR: Writes a vector into one 256-byte row of a tile (R163) -/
  | vtwr (h : Hdr) (o : VT)
  /-- VLD: Loads 64 lanes from the scratchpad (R167) -/
  | vld (h : Hdr) (o : VS)
  /-- VST: Stores 64 lanes to the scratchpad, committing at c+6 (R167) -/
  | vst (h : Hdr) (o : VS)
  /-- VGAT: Gathers elements from the scratchpad by index (R168) -/
  | vgat (h : Hdr) (o : VS)
  /-- VSCA: Scatters elements to the scratchpad by index (R168) -/
  | vsca (h : Hdr) (o : VS)
  /-- VATOM: Atomic read-modify-write on scratchpad words (R169) -/
  | vatom (h : Hdr) (o : VS)
  /-- FPUSH: Appends a 256-byte entry to a FIFO bank (R171) -/
  | fpush (h : Hdr) (o : VS)
  /-- FPOP: Removes the head entry of a FIFO bank (R171) -/
  | fpop (h : Hdr) (o : VS)
  /-- YPUSH: Appends k entries to the die's gate-logit queue (R173) -/
  | ypush (h : Hdr) (o : VS)
  /-- TMMA: Dense tile matrix multiply-accumulate (R265) -/
  | tmma (h : Hdr) (o : MF)
  /-- TMMAS: Pattern-sparse tile matrix multiply-accumulate (R267) -/
  | tmmas (h : Hdr) (o : MF)
  /-- TMMAC: Codebook tile matrix multiply-accumulate (R268) -/
  | tmmac (h : Hdr) (o : MF)
  /-- TZERO: Zeroes a tile's data (R269) -/
  | tzero (h : Hdr) (o : MF)
  /-- XPOSE: Transposes the last two extents of a tile, type-only or by the engine (R271) -/
  | xpose (h : Hdr) (o : XF)
  /-- XCVT: Converts a tile's element format (R273) -/
  | xcvt (h : Hdr) (o : XF)
  /-- XQUANT: Quantises a tile to block scales and elects outliers (R275) -/
  | xquant (h : Hdr) (o : XF)
  /-- XQUANT_SAT: Quantises a tile and clips the outliers to 64 instead of faulting (R275) -/
  | xquantSat (h : Hdr) (o : XF)
  /-- XEXP: Writes a dense copy of a sparse tile (R276) -/
  | xexp (h : Hdr) (o : XF)
  /-- XRESH: Reshapes a tile's type word (R277) -/
  | xresh (h : Hdr) (o : XF)
  /-- XCAST: Changes a tile's format in the type word only (R277) -/
  | xcast (h : Hdr) (o : XF)
  /-- XADD: Adds two tiles element-wise (R278) -/
  | xadd (h : Hdr) (o : XF)
  /-- XMOV: Copies a tile's data and type word (R279) -/
  | xmov (h : Hdr) (o : XF)
  /-- XCH: Exchanges a tile with the paired partner (R280) -/
  | xch (h : Hdr) (o : XF)
  /-- XCH_HALF_ARRIVAL: The partner's half arrives and releases a pair-stalled xch (R280) -/
  | xchHalfArrival (core : Nat)
  /-- PAIR_TIMEOUT: A pair stall that reaches 2^PTO PCC cycles raises the pair-timeout fault (R326) -/
  | pairTimeout (core : Nat)
  /-- PARTNER_FAULT: The partner's kill, fault or retirement raises the partner-fault trap on the waiting member (R326) -/
  | partnerFault (core : Nat)
  /-- KSCL: Writes one element of the scale set (R283) -/
  | kscl (h : Hdr) (o : KF)
  /-- KCODE: Writes four rows of a magnitude table (R284) -/
  | kcode (h : Hdr) (o : KF)
  /-- KGRANT: Requests a draw grant (R285) -/
  | kgrant (h : Hdr) (o : KF)
  /-- KPAD: Writes PADSEL (R287) -/
  | kpad (h : Hdr) (o : KF)
  /-- KMODE: Requests a bank-mode change (R178) -/
  | kmode (h : Hdr) (o : KF)
  /-- BANK_MODE_READY: A bank-mode change completes and sets READY (R179) -/
  | bankModeReady (cluster bank : Nat)
  /-- LD: Loads 8 bytes into a scalar (R214) -/
  | ld (h : Hdr) (o : CI)
  /-- LD_W: Loads 4 bytes, zero-extended (R214) -/
  | ldW (h : Hdr) (o : CI)
  /-- LD_H: Loads 2 bytes, zero-extended (R214) -/
  | ldH (h : Hdr) (o : CI)
  /-- LD_B: Loads 1 byte, zero-extended (R214) -/
  | ldB (h : Hdr) (o : CI)
  /-- ST: Stores 8 bytes (R215) -/
  | st (h : Hdr) (o : CI)
  /-- ST_W: Stores 4 bytes (R215) -/
  | stW (h : Hdr) (o : CI)
  /-- ST_H: Stores 2 bytes (R215) -/
  | stH (h : Hdr) (o : CI)
  /-- ST_B: Stores 1 byte (R215) -/
  | stB (h : Hdr) (o : CI)
  /-- VLDM: Loads 256 bytes from memory into a vector (R216) -/
  | vldm (h : Hdr) (o : CI)
  /-- VSTM: Stores a vector's 256 bytes to memory (R216) -/
  | vstm (h : Hdr) (o : CI)
  /-- TLD: Loads a tile box through a window (R223) -/
  | tld (h : Hdr) (o : CW)
  /-- TST: Stores a tile box through a window (R225) -/
  | tst (h : Hdr) (o : CW)
  /-- AMO: Global atomic read-modify-write at the home slice (R217) -/
  | amo (h : Hdr) (o : CA)
  /-- CAS: Global compare-and-swap at the home slice (R218) -/
  | cas (h : Hdr) (o : CA)
  /-- ACQ: Acquire on a synchronisation object; holds until it takes its place (R202) -/
  | acq (h : Hdr) (o : CF)
  /-- REL: Release on a synchronisation object, placed in program order at retire (R201) -/
  | rel (h : Hdr) (o : CF)
  /-- RELEASE_TAKES_PLACE: An outstanding release takes its place in the synchronisation order once its writes are performed at scope (R201) -/
  | releaseTakesPlace (core id : Nat)
  /-- XFENCE: Cross-path fence from path a to path b (R203) -/
  | xfence (h : Hdr) (o : CF)
  /-- FENCE: Holds until earlier core-path writes are performed at scope (R204) -/
  | fence (h : Hdr) (o : CF)
  /-- WAITGE: Holds until a 64-bit counter reaches a value (R230) -/
  | waitge (h : Hdr) (o : CI)
  /-- COPY: Pushes a linear copy command (R244) -/
  | copy (h : Hdr) (o : CR)
  /-- COPY2D: Pushes a two-dimensional copy command (R245) -/
  | copy2d (h : Hdr) (o : CR)
  /-- COPYW_LD: Copies a window box into a flat tile image (R250) -/
  | copywLd (h : Hdr) (o : CR)
  /-- COPYW_ST: Copies a flat tile image into a window box (R250) -/
  | copywSt (h : Hdr) (o : CR)
  /-- GATH: Pushes a row gather by index table (R246) -/
  | gath (h : Hdr) (o : CR)
  /-- SCAT: Pushes a row scatter by index table (R246) -/
  | scat (h : Hdr) (o : CR)
  /-- CEXP: Expands packed lines into raw lines, or into a scratchpad ring with .ring (R248) -/
  | cexp (h : Hdr) (o : CR)
  /-- CRED: Combines a source into a destination element by element (R247) -/
  | cred (h : Hdr) (o : CR)
  /-- PUT: Sends a typed tile image to a receive posted on another accelerator (R251) -/
  | put (h : Hdr) (o : CR)
  /-- GET: Posts a receive for a typed tile image (R251) -/
  | get (h : Hdr) (o : CR)
  /-- SSEND: Sends a sorted index-value stream into a Comb tree (R253) -/
  | ssend (h : Hdr) (o : CR)
  /-- CADD: Writes a completion record after the channel's earlier commands (R254) -/
  | cadd (h : Hdr) (o : CR)
  /-- COPY_COMMAND_START: A channel starts its head command once its time and its limits allow (R237) -/
  | copyCommandStart (core ch : Nat)
  /-- COPY_CHUNK_TRANSFER: A channel reads a chunk into its buffer and writes it, advancing PROG for ordered commands (R240) -/
  | copyChunkTransfer (core ch id : Nat) (remote : List Byte)
  /-- COPY_CHANNEL_FAULT: A translation fault stops one copy channel and is reported to Ridge (R194) -/
  | copyChannelFault (core ch id : Nat)
  /-- COPY_CHANNEL_RESUME: After service the channel restarts or rewrites the chunk, or ends the command with FAULT (R241) -/
  | copyChannelResume (core ch : Nat) (ok : Bool)
  /-- COMPLETION_RECORD: The copy completion step adds to the counter and ORs in the status; C falls (R238) -/
  | completionRecord (core ch id : Nat) (code : Nat)
  /-- CEXP_PERMIT_GRANT: A ring group's permit is granted once the release word allows it (R249) -/
  | cexpPermitGrant (core ch id : Nat)
  /-- CEXP_PERMIT_DEADLINE: A group without a permit at start plus W ends the command with NOPERM (R249) -/
  | cexpPermitDeadline (core ch id : Nat)
  /-- PUT_MATCH: A send and a receive match at the receiving port and are unified and written (R252) -/
  | putMatch (send : Nat)
  /-- LOAD_DATA_RETURN: Load or atomic data is written, the pending bit clears and L falls (R28) -/
  | loadDataReturn (core id : Nat) (stale : Bool) (remote : List Byte)
  /-- STORE_PERFORMED: A store is performed in L1 and S falls (R28) -/
  | storePerformed (core : Nat)
  /-- TILE_LOAD_ARRIVAL: A tld's data and type word are written and T falls (R223) -/
  | tileLoadArrival (core id : Nat) (stale : Bool) (remote : List Byte)
  /-- TST_SOURCE_READ: The last byte of a tst source is read and T falls (R28) -/
  | tstSourceRead (core id : Nat)
  /-- RESULT_LANDING: A fixed-latency result, or a re-landed replay register, lands at its issue cycle (R22) -/
  | resultLanding (core : Nat)
  /-- V1_COMMIT: A scratchpad store or scatter commits at c+6 (R165) -/
  | v1Commit (core : Nat)
  /-- TLB_WALK_COMPLETE: Walks complete and release a bundle held on a TLB miss (R192) -/
  | tlbWalkComplete (core : Nat) (evict : List Nat)
  /-- ASYNC_TRAP: A pending asynchronous cause is taken before the next bundle issues (R308) -/
  | asyncTrap (core : Nat)
  /-- PAGE_FAULT_SERVICE: Ridge firmware finishes servicing a page or spill fault, and the bundle issues again (R193) -/
  | pageFaultService (core : Nat) (ok : Bool)
  /-- CORE_HARD_FAULT: A hard core fault retires the physical core and goes to containment (R324) -/
  | coreHardFault (core kind idx : Nat)
  /-- WATCHDOG: A hold longer than the watchdog limit raises the watchdog fault (R321) -/
  | watchdog (core : Nat)
  /-- PREEMPT_REQUEST: A pre-emption request reaches a core (R33) -/
  | preemptRequest (core : Nat)
  /-- CONTEXT_SAVE: The instance's state is saved at a drain point, a hold or a stall (R318) -/
  | contextSave (core : Nat) (ok : Bool)
  /-- FORCED_SAVE: No drain point within 65,536 issue cycles forces a save (R33) -/
  | forcedSave (core : Nat)
  /-- CONTEXT_RESUME: A saved instance is restored and its saved bundle issues first (R320) -/
  | contextResume (core : Nat)
  /-- GRANT_ISSUE: The die's governor grants head requests within the budget and step allowance (R305) -/
  | grantIssue (die : Nat)
  /-- LAUNCH_NODE: A ready launch node creates its instances (R292) -/
  | launchNode (graph node : Nat)
  /-- INSTANCE_DISPATCH: Ridge places a unit on free cores, or pre-empts lower-priority work to make room (R300) -/
  | instanceDispatch (part : Nat) (spr : List Word)
  /-- COND_NODE: Reads a condition word and completes true or false (R292) -/
  | condNode (graph node : Nat) (remote : List Byte)
  /-- WHILE_NODE: Runs a pass of its body launch, or completes (R293) -/
  | whileNode (graph node : Nat) (remote : List Byte)
  /-- WAIT_NODE_POLL: Reads the wait node's counter every 64 cycles and completes when it is reached (R292) -/
  | waitNodePoll (graph node : Nat) (remote : List Byte)
  /-- SIGNAL_NODE: Adds VAL to a counter after a system-scope release (R292) -/
  | signalNode (graph node : Nat)
  /-- END_NODE: Ends the graph (R292) -/
  | endNode (graph : Nat)
  /-- GRID_COMPLETION: Ridge writes the grid completion record once the grid has retired and been released (R299) -/
  | gridCompletion (graph node : Nat)
  /-- CORE_SPARE_TAKEOVER: A spare core takes a retired core's logical number (R327) -/
  | coreSpareTakeover (core : Nat)
  /-- SLICE_SPARE_TAKEOVER: A spare L2 slice takes a retired slice's logical number (R327) -/
  | sliceSpareTakeover (die slice : Nat)
  /-- HBM_ROW_BANK_SPARE: An HBM row or bank is copied to its spare (R327) -/
  | hbmRowBankSpare (stack : Nat) (bank : Bool)
  /-- PSEUDO_CHANNEL_REPLACE: A failed pseudo-channel is rebuilt into the reserve (R327) -/
  | pseudoChannelReplace (stack : Nat)
  /-- FLIT_CRC_RETRY: A flit that fails its CRC is sent again from the replay buffer (R332) -/
  | flitCrcRetry (place : PortLane)
  /-- LANE_SWITCH: A retired lane is replaced by the spare, or the port runs on fewer lanes (R332) -/
  | laneSwitch (place : PortLane)
  /-- PORT_REQUEST_CHECK: A request arriving at a port is checked against the key table and performed or refused (R338) -/
  | portRequestCheck (port : Nat) (f : Arrival)
  /-- ERROR_RESPONSE_ARRIVAL: A refusal reaches the source and becomes a trap or a copy status (R213) -/
  | errorResponseArrival (agent id code : Nat)
  /-- RELEASE_MARKER: A release marker reaches the first router and is counted against the fence counter (R336) -/
  | releaseMarker (die : Nat) (f : Flit)
  /-- RELEASE_COMPLETION: The router completes the epoch and returns a release completion to the source (R207) -/
  | releaseCompletion (die src agent epoch : Nat)
  /-- COMB_STREAM_MERGE: A merge stage combines its input streams into segments (R345) -/
  | combStreamMerge (tree stage round : Nat)
  /-- COMB_ROOT_OUTPUT: The root stage writes the round's output buffer and the ssend records (R347) -/
  | combRootOutput (tree round : Nat)
  /-- YELM_QCTL_POP: A write of 1 to QCTL pops the queue's head entry (R349) -/
  | yelmQctlPop (die : Nat)
  /-- YELM_QSEL_WRITE: A write to QSEL selects the queue served (R349) -/
  | yelmQselWrite (die queue : Nat)
  /-- STEP_OPEN: A popped step-open entry reads its descriptor and opens a step, or refuses it (R353) -/
  | stepOpen (die : Nat) (remote : List Byte)
  /-- AFFINITY_ENTRY: A popped affinity entry supplies affinities to its open step, or is ignored (R354) -/
  | affinityEntry (die : Nat)
  /-- STEP_CLOSE: A step holding all affinities closes, and selection decides every expert's slots (R355) -/
  | stepClose (die step : Nat) (remote : List Byte)
  /-- STEP_DEADLINE: A step reaching DL closes with LATE and its missing affinities at minus infinity (R354) -/
  | stepDeadline (die step : Nat) (remote : List Byte)
  /-- STEP_OUTPUT_PUBLISH: Yelm writes the tables, the records and the status, then adds to COUNT with rl set (R359) -/
  | stepOutputPublish (die step : Nat)
  /-- USER_ROUTER_EXCEPTION: An exception halts a user router, and the ROM routine takes over the queue (R361) -/
  | userRouterException (die : Nat)
  /-- YELM_TAKEOVER: Another die's Yelm takes over the queues of a failed processor (R362) -/
  | yelmTakeover (failed newDie : Nat)
  /-- THROTTLE_ENTRY: A die at its throttle point halves its governor budget (R374) -/
  | throttleEntry (die temp : Nat)
  /-- THROTTLE_EXIT: A die 5 °C below its throttle point restores its budget (R374) -/
  | throttleExit (die temp : Nat)
  /-- OVERTEMP_SHUTDOWN: At 110 °C a die kills its instances and stops issuing until reset (R374) -/
  | overtempShutdown (die temp : Nat)
  /-- RESERVED_OPCODE: A slot holds a reserved opcode, or V1-only opcodes in V0, and raises the illegal-operation trap (R101) -/
  | reservedOpcode (slot : Slot) (raw : BitVec 56)
  /-- SCRATCHPAD_STALL_END: A bundle's bank-conflict stall of n_b − 1 PCC cycles runs out and the bundle issues (R26) -/
  | scratchpadStallEnd (core : Nat)
  /-- WRITES_PERFORMED_AT_SCOPE: The earlier core-path writes of an agent, including the dirty L1 bytes written back, are performed at the fence's scope and the fence hold ends (R229) -/
  | writesPerformedAtScope (core : Nat) (line : Option Nat)
  /-- WRITE_ACKNOWLEDGEMENT: A write acknowledgement returns to the source; on a UALink route it counts the write as passed for its release epoch (R341) -/
  | writeAcknowledgement (agent id : Nat)
  /-- DEFICIT_ROUND: A port starts a round of weighted deficit round robin, visiting backlogged tenants, growing their deficits and sending their flits (R340) -/
  | deficitRound (port dir : Nat)
  /-- UNOON_LINK_RETURN: A Unoon port's link returns, and the former active port becomes standby, or the takeover count stops (R364) -/
  | unoonLinkReturn (port : Nat)
  /-- SOFT_ERROR: A single-bit or uncorrectable error strikes the bits of a storage array (R189) -/
  | softError (place : ErrPlace) (bits : Nat)
  /-- SCRUB: The device scrubs a line, correcting a single-bit error or reporting an uncorrectable one as a system fault with no consumer (R189) -/
  | scrub (pa : Nat)
  /-- FIFO_COUNT_UPDATE: The other side's FIFO count changes 8 PCC cycles after a push or a pop (R172) -/
  | fifoCountUpdate
  /-- PUT_NORECV_TIMEOUT: A send unmatched for 2^24 PCC cycles ends with NORECV (R252) -/
  | putNorecvTimeout
  /-- GRANT_EXPIRY: V clears when PCC reaches GEND (R285) -/
  | grantExpiry
  /-- GOVERNOR_WINDOW: A new 64-cycle window begins and the step allowance resets (R304) -/
  | governorWindow
  /-- VECTOR_HEAVY_CHARGE: At each 1,024-cycle window the governor charges units for ungranted heavy vector work (R306) -/
  | vectorHeavyCharge
  /-- PRIORITY_AGING: Effective priorities are recomputed at every multiple of 2^20 PCC cycles (R301) -/
  | priorityAging
  /-- RIDGE_TAKEOVER: The standby Ridge on die 2 takes over (R327) -/
  | ridgeTakeover
  /-- UNOON_PORT_TAKEOVER: After 2^20 cycles with the active link down, the standby port becomes active (R364) -/
  | unoonPortTakeover
  /-- PCREATE: Creates a partition from clusters for a tenant (R367) -/
  | pcreate
  /-- PDESTROY: Destroys a partition and frees its clusters (R367) -/
  | pdestroy
  /-- PTROOT: Sets the page-table root (R367) -/
  | ptroot
  /-- PTINV: Invalidates cached translations (R367) -/
  | ptinv
  /-- FABCFG_KEY_ENTRY: Writes a tenant key-table entry (R369) -/
  | fabcfgKeyEntry
  /-- FABCFG_SHARE_ENTRY: Writes a port share-table entry (R369) -/
  | fabcfgShareEntry
  /-- FABCFG_PORT_MODE: Sets a port's mode (R369) -/
  | fabcfgPortMode
  /-- FABCFG_OUTBOUND_KEY: Sets a tenant's outbound key (R369) -/
  | fabcfgOutboundKey
  /-- FABCFG_DOMAIN_SIZE: Sets the domain size (R369) -/
  | fabcfgDomainSize
  /-- FABCFG_ROUTE: Sets or removes a route to a destination accelerator (R369) -/
  | fabcfgRoute
  /-- FABCFG_OWN_ACCELERATOR: Sets the package's own accelerator number (R369) -/
  | fabcfgOwnAccelerator
  /-- FABCFG_REDUCTION_TREE: Loads or deletes a reduction tree (R369) -/
  | fabcfgReductionTree
  /-- FABCFG_UALINK_SOURCE: Writes a UALink source entry (R369) -/
  | fabcfgUalinkSource
  /-- FABCFG_LIFT_FENCE: Lifts a tenant's fence at a port (R369) -/
  | fabcfgLiftFence
  /-- FABCFG_LANE_THRESHOLD: Sets the lane-retirement threshold (R369) -/
  | fabcfgLaneThreshold
  /-- MEMW: Writes host data to physical memory (R367) -/
  | memw
  /-- MEMR: Reads physical memory to the host (R367) -/
  | memr
  /-- IMGLOAD: Checks and loads a kernel image and places its data section (R367) -/
  | imgload
  /-- IMGFREE: Frees a loaded image (R367) -/
  | imgfree
  /-- GSUBMIT: Checks a task graph and makes it resident (R294) -/
  | gsubmit
  /-- GABORT: Aborts a resident graph (R367) -/
  | gabort
  /-- YCFG_ASSIGN_QUEUE: Assigns a die's queue to the partition (R350) -/
  | ycfgAssignQueue
  /-- YCFG_LOAD_ROUTER: Loads a user router into a Yelm processor (R361) -/
  | ycfgLoadRouter
  /-- GOVSET: Sets the governor budget, the step allowance, the watchdog and the throttle point (R367) -/
  | govset
  /-- QUERY_PCC: Returns PCC (R368) -/
  | queryPcc
  /-- QUERY_SPARES: Returns the spares left and the placeable cores (R368) -/
  | querySpares
  /-- QUERY_PARTITION: Returns the partition's clusters, tenant, graphs, cores and watchdog (R368) -/
  | queryPartition
  /-- QUERY_PORT_TENANT: Returns a tenant's refusal, error, fence and flit counts at a port (R368) -/
  | queryPortTenant
  /-- QUERY_YELM_QUEUE: Returns a die queue's discard and no-step counts and its assignment (R368) -/
  | queryYelmQueue
  /-- QUERY_REPAIR_REPORT: Returns a kept repair report and the report counts (R368) -/
  | queryRepairReport
  /-- QUERY_TEMPERATURE: Returns die temperatures, throttle points and throttling dies (R368) -/
  | queryTemperature
  /-- QUERY_ERROR_COUNTS: Returns the correction and uncorrectable error counts (R368) -/
  | queryErrorCounts
  /-- RESET: Responds, then resets the package and runs bring-up again (R367) -/
  | reset
  /-- POWER_UP: After power is applied the package tests, trains HBM, starts Ridge and activates port 0 (R373) -/
  | powerUp
  /-- ILLEGAL_CODE: The sequencer meets a code of 0x1000 to 0xFFFE, a dictionary index beyond the entry count, or a position beyond the stream, and raises the illegal-code trap (R102) -/
  | illegalCode
  /-- RESERVED_COMMAND: A command block with a reserved OPC arrives on the Unoon port and is answered with status 1 (R367) -/
  | reservedCommand
  /-- YELM_QUEUE_FREE_ENTRY: Eight PCC cycles after Yelm pops an entry, the die's cores see one more free entry in the gate-logit queue (R352) -/
  | yelmQueueFreeEntry
  /-- UNOON_LINK_DOWN: The active Unoon port's link goes down, starting the 2^20-cycle count before takeover (R364) -/
  | unoonLinkDown
  /-- POWER_LOSS: Power is removed from the package and it holds no state (R373) -/
  | powerLoss
  deriving DecidableEq, Repr

end Sys2Proof
end

