-- ==== Sys2Proof/WellFormed.lean ====
section
/-! DEFINITION. Which slot operations are legal encodings: the conditions of R91, R92, R101 and of each instruction's own
description on path tags, unused fields, MOD bits and reserved values. A slot whose bits break one of them decodes to
`reservedOpcode`, which traps (R101). -/

namespace Sys2Proof

/-- The header stands in a slot of the list and its path tag is not the reserved 7 (R90, R101). -/
def Hdr.ok (h : Hdr) (slots : List Slot) : Bool := slots.contains h.slot && h.tag != 7

/-- ET codes of the floating-point element types FP32, FP64, BF16, FP16 (R94). -/
def etFloat (et : BitVec 3) : Bool := et.toNat ≤ 3
/-- ET codes FP32 and FP64 (R94). -/
def etWide (et : BitVec 3) : Bool := et.toNat ≤ 1
/-- ET codes INT32, INT16, INT8 (R94). -/
def etInt (et : BitVec 3) : Bool := 4 ≤ et.toNat && et.toNat ≤ 6

/-- Element width in bits of an ET code (R147). -/
def etWidth (et : BitVec 3) : Nat :=
  match et.toNat with
  | 0 => 32 | 1 => 64 | 2 => 16 | 3 => 16 | 4 => 32 | 5 => 16 | _ => 8

/-- The legal pairs of `vcvt` (R154): the types differ and their widths are equal or in ratio 2; `.hi` needs unequal
widths; RM is 0 where nothing is rounded, between integers (R149). -/
def vcvtOk (o : VR) : Bool :=
  let src : BitVec 3 := o.mod.extractLsb' 0 3
  let wd := etWidth o.et
  let ws := etWidth src
  o.et != 7 && src != 7 && o.et != src && o.vb == 0 && o.vc == 0 &&
  (wd == ws || wd == 2 * ws || ws == 2 * wd) &&
  (!(o.mod.getLsbD 3) || wd != ws) &&
  (!(etInt o.et && etInt src) || o.rm == 0)

/-- Scratchpad operand fields of the M slot (R95): a tile number has its upper bits zero. -/
def mfOk (o : MF) : Bool :=
  (o.ak == 1 || o.aop.toNat < 16) && (o.bk == 1 || o.bop.toNat < 16) && o.mod.toNat < 4

/-- Reduction operations on floating point (R162). -/
def vfredOk (o : VR) : Bool :=
  etWide o.et && o.vb == 0 && o.vc == 0 && o.mod.toNat < 3 && (o.mod == 0 || o.rm == 0)

/-- Reduction operations on INT32 (R162). -/
def vredOk (o : VR) : Bool :=
  o.et == 4 && o.vb == 0 && o.vc == 0 && o.rm == 0 && (o.mod.toNat < 8 || o.mod == 8)

/-- Integer vector arithmetic (R152, R153): ET 4 to 6, no RM, no vC, and the allowed MOD values. -/
def vintOk (o : VR) (mods : List Nat) : Bool :=
  etInt o.et && o.rm == 0 && o.vc == 0 && mods.contains o.mod.toNat

/-- Legal encodings of the slot operations; a `bsel` with RB = 0 is none (log entry 76). Events and host commands are no
encodings of a slot and are all accepted here; their own rules judge them when they happen. -/
def Instr.wf : Instr → Bool
  | .add h o | .sub h o => h.ok [.S] && o.mod.toNat < 4
  | .and h o | .or h o | .xor h o | .min h o | .max h o | .minu h o | .maxu h o | .bins h o | .mulh h o | .mulhu h o =>
    h.ok [.S] && o.mod == 0
  | .sll h o | .srl h o | .sra h o | .bext h o | .mul h o | .div h o | .divu h o | .rem h o | .remu h o =>
    h.ok [.S] && o.mod.toNat < 2
  | .shadd h o => h.ok [.S] && o.mod.toNat < 8
  | .clz h o | .ctz h o | .popc h o => h.ok [.S] && o.mod.toNat < 2 && o.rb == 0
  | .sel h _ | .li h _ | .lih h _ | .bli h _ | .wait h _ => h.ok [.S]
  | .addi h _ | .andi h _ | .ori h _ | .xori h _ => h.ok [.S]
  | .slli h o | .srli h o | .srai h o => h.ok [.S] && o.imm.toNat < 64
  | .cmp h o => h.ok [.S] && o.cc.toNat < 6
  | .cmpi h o => h.ok [.S] && o.cc.toNat < 6
  | .pand h o | .por h o | .pxor h o | .pandn h o => h.ok [.S] && o.ra == 0
  | .ptst h o => h.ok [.S] && o.pa == 0 && o.pb == 0
  | .bmov h o => h.ok [.S] && o.ba == 0
  | .bget h o => h.ok [.S] && o.bd == 0
  | .loop h o => h.ok [.S] && o.rd == 0 && o.rb == 0 && (o.ra == 0 || o.imm.toNat < 16384)
  | .lbrk h o | .swp h o | .bar h o => h.ok [.S] && o.rd == 0 && o.ra == 0 && o.rb == 0 && o.imm.toNat < 8
  | .lget h o => h.ok [.S] && o.ra == 0 && o.rb == 0 && o.imm.toNat < 13
  | .rotcfg h o => h.ok [.S] && o.rd == 0 && o.rb == 0 && o.imm == 0
  | .bsel h o => h.ok [.S] && o.rd == 0 && o.rb != 0 && o.imm.toNat < 16384
  | .dbind h o => h.ok [.S] && o.rd == 0 && o.rb == 0 && (o.ra == 0 || o.imm.toNat < 16)
  | .dfree h o => h.ok [.S] && o.rd == 0 && o.ra == 0 && o.rb == 0 && o.imm.toNat < 65536
  | .dget h o => h.ok [.S] && o.ra == 0 && o.rb == 0 && o.imm.toNat < 16
  | .tyget h o => h.ok [.S] && o.ra == 0 && o.rb == 0 && o.imm.toNat < 32
  | .tyset h o => h.ok [.S] && o.rd == 0 && o.imm.toNat < 16
  | .csrr h o => h.ok [.S] && o.ra == 0 && o.rb == 0 && o.imm.toNat < 4096
  | .csrw h o | .csrs h o | .csrc h o => h.ok [.S] && o.rb == 0 && o.imm.toNat < 4096
  | .trap h o => h.ok [.S] && o.rd == 0 && o.rb == 0 && o.imm.toNat < 65536
  | .tret h o => h.ok [.S] && o.rd == 0 && o.ra == 0 && o.rb == 0 && o.imm.toNat < 2
  | .exit h o => h.ok [.S] && o.rd == 0 && o.ra == 0 && o.rb == 0 && o.imm == 0
  | .vfadd h o | .vfsub h o | .vfmul h o => h.ok [.V0, .V1] && etFloat o.et && o.vc == 0 && o.mod == 0
  | .vffma h o | .vffms h o => h.ok [.V0, .V1] && etFloat o.et && o.mod == 0
  | .vfmin h o | .vfmax h o => h.ok [.V0, .V1] && etFloat o.et && o.vc == 0 && o.mod == 0 && o.rm == 0
  | .vfabs h o | .vfneg h o => h.ok [.V0, .V1] && etFloat o.et && o.vb == 0 && o.vc == 0 && o.mod == 0 && o.rm == 0
  | .vfdiv h o => h.ok [.V0, .V1] && etWide o.et && o.vc == 0 && o.mod == 0
  | .vfsqrt h o | .vfexp2 h o | .vflog2 h o | .vfrcp h o | .vfrsq h o =>
    h.ok [.V0, .V1] && etWide o.et && o.vb == 0 && o.vc == 0 && o.mod == 0
  | .vadd h o | .vsub h o | .vmul h o => h.ok [.V0, .V1] && vintOk o [0, 1]
  | .vmulh h o | .vmin h o | .vmax h o => h.ok [.V0, .V1] && vintOk o [0, 2]
  | .vand h o | .vor h o | .vxor h o | .vandn h o | .vsll h o | .vsrl h o | .vsra h o =>
    h.ok [.V0, .V1] && vintOk o [0]
  | .vabs h o => h.ok [.V0, .V1] && vintOk o [0, 1] && o.vb == 0
  | .vcvt h o => h.ok [.V0, .V1] && vcvtOk o
  | .vmerge h o => h.ok [.V0, .V1] && o.et != 7 && o.vc == 0 && o.rm == 0 && o.mod == 0
  | .vlane h o => h.ok [.V0, .V1] && o.et == 4 && o.va == 0 && o.vb == 0 && o.vc == 0 && o.rm == 0 && o.mod == 0
  | .vperm h o => h.ok [.V0, .V1] && etWide o.et && o.rm == 0 && o.mod == 0
  | .vslide h o => h.ok [.V0, .V1] && o.et == 0 && o.rm == 0 && o.mod == 0
  | .vfred h o | .vfscan h o => h.ok [.V0, .V1] && vfredOk o
  | .vred h o | .vscan h o => h.ok [.V0, .V1] && vredOk o
  | .vfcmp h o => h.ok [.V0, .V1] && etWide o.et && o.cc != 7
  | .vcmp h o => h.ok [.V0, .V1] && o.et == 4 && o.cc.toNat < 6
  | .vbcast h o => h.ok [.V0, .V1] && o.et != 7 && o.va == 0 && o.mod == 0 && o.imm == 0
  | .vmovs h o => h.ok [.V0, .V1] && (etWide o.et || o.et == 4) && o.sa == 0 && o.msk == 0 && o.mod == 0 && o.imm.toNat < 64
  | .vmovsIns h o =>
    h.ok [.V0, .V1] && (etWide o.et || o.et == 4) && o.va == 0 && o.msk == 0 && o.mod == 1 && o.imm.toNat < 64
  | .mand h o | .mor h o | .mxor h o | .mandn h o => h.ok [.V0, .V1] && o.rd == 0
  | .mpop h o => h.ok [.V0, .V1] && o.md == 0 && o.mb == 0
  | .vtrow h _ | .vtwr h _ => h.ok [.V0, .V1]
  | .vld h o | .vst h o => h.ok [.V1] && o.et == 0 && o.mod == 0 && o.va == 0
  | .vgat h o | .vsca h o => h.ok [.V1] && etWide o.et && o.mod.toNat < 4
  | .vatom h o => h.ok [.V1] && ((o.et == 4 && o.mod.toNat ≤ 8) || (o.et == 0 && 9 ≤ o.mod.toNat && o.mod.toNat ≤ 11))
  | .fpush h o | .fpop h o => h.ok [.V1] && o.et == 0 && o.mod == 0 && o.va == 0 && o.msk == 0
  | .ypush h o =>
    h.ok [.V1] && o.et == 0 && o.mod == 0 && o.va == 0 && o.sa == 0 && o.msk == 0 &&
    1 ≤ o.imm.toNat && o.imm.toNat ≤ 4
  | .tmma h o | .tmmas h o | .tmmac h o => h.ok [.M] && mfOk o
  | .tzero h o => h.ok [.M] && o.ak == 0 && o.aop == 0 && o.bk == 0 && o.bop == 0 && o.mod == 0
  | .xpose h o | .xexp h o | .xadd h o | .xmov h o | .xch h o => h.ok [.X] && o.xe == 0
  | .xcvt h _ | .xquant h _ | .xquantSat h _ | .xresh h _ | .xcast h _ => h.ok [.X]
  | .kscl h _ | .kcode h _ | .kgrant h _ | .kpad h _ | .kmode h _ => h.ok [.K]
  | .ld h _ | .ldW h _ | .ldH h _ | .ldB h _ | .st h _ | .stW h _ | .stH h _ | .stB h _ | .vldm h _ | .vstm h _
  | .waitge h _ => h.ok [.C0, .C1]
  | .tld h o => h.ok [.C0, .C1] && o.mod.toNat < 2
  | .tst h o => h.ok [.C0, .C1] && o.mod == 0
  | .amo h o => h.ok [.C0, .C1] && o.aop.toNat ≤ 8 && o.size.toNat ≤ 1
  | .cas h o => h.ok [.C0, .C1] && o.aop == 0 && o.size.toNat ≤ 1
  | .acq h o | .rel h o => h.ok [.C0, .C1] && o.pa == 0 && o.pb == 0 && o.scope.toNat ≤ 5
  | .xfence h o => h.ok [.C0, .C1] && o.pa.toNat ≤ 6 && o.pb.toNat ≤ 6 && o.scope == 0 && o.obj == 0
  | .fence h o => h.ok [.C0, .C1] && o.pa == 0 && o.pb == 0 && o.obj == 0 && o.scope.toNat ≤ 5
  | .copy h _ | .copy2d h _ | .cexp h _ => h.ok [.C0, .C1]
  | .copywLd h o => h.ok [.C0, .C1] && !(o.mod.getLsbD 0)
  | .copywSt h o => h.ok [.C0, .C1] && o.mod == 1
  | .gath h o => h.ok [.C0, .C1] && o.mod.toNat < 2
  | .scat h o | .cred h o | .put h o | .get h o | .ssend h o => h.ok [.C0, .C1] && o.mod == 0
  | .cadd h o => h.ok [.C0, .C1] && o.mod == 0 && o.rb == 0 && o.rc == 0
  | _ => true

/-- The header of a slot operation; events, commands and `nop` have none. -/
def Instr.hdr? : Instr → Option Hdr
  | .add h _ | .sub h _ | .and h _ | .or h _ | .xor h _ | .sll h _ | .srl h _ | .sra h _ | .min h _ | .max h _
  | .minu h _ | .maxu h _ | .shadd h _ | .clz h _ | .ctz h _ | .popc h _ | .bext h _ | .bins h _ | .mul h _ | .mulh h _
  | .mulhu h _ | .div h _ | .divu h _ | .rem h _ | .remu h _ | .sel h _ | .addi h _ | .andi h _ | .ori h _ | .xori h _
  | .slli h _ | .srli h _ | .srai h _ | .li h _ | .lih h _ | .cmp h _ | .cmpi h _ | .pand h _ | .por h _ | .pxor h _
  | .pandn h _ | .ptst h _ | .bli h _ | .bmov h _ | .bget h _ | .loop h _ | .lbrk h _ | .lget h _ | .rotcfg h _
  | .swp h _ | .bsel h _ | .dbind h _ | .dfree h _ | .dget h _ | .tyget h _ | .tyset h _ | .csrr h _ | .csrw h _
  | .csrs h _ | .csrc h _ | .trap h _ | .tret h _ | .exit h _ | .wait h _ | .bar h _ | .vfadd h _ | .vfsub h _
  | .vfmul h _ | .vffma h _ | .vffms h _ | .vfmin h _ | .vfmax h _ | .vfabs h _ | .vfneg h _ | .vfdiv h _
  | .vfsqrt h _ | .vfexp2 h _ | .vflog2 h _ | .vfrcp h _ | .vfrsq h _ | .vadd h _ | .vsub h _ | .vmul h _
  | .vmulh h _ | .vand h _ | .vor h _ | .vxor h _ | .vandn h _ | .vsll h _ | .vsrl h _ | .vsra h _ | .vmin h _
  | .vmax h _ | .vabs h _ | .vcvt h _ | .vmerge h _ | .vfcmp h _ | .vcmp h _ | .vperm h _ | .vslide h _
  | .vbcast h _ | .vlane h _ | .vmovs h _ | .vmovsIns h _ | .vfred h _ | .vred h _ | .vfscan h _ | .vscan h _
  | .mand h _ | .mor h _ | .mxor h _ | .mandn h _ | .mpop h _ | .vtrow h _ | .vtwr h _ | .vld h _ | .vst h _
  | .vgat h _ | .vsca h _ | .vatom h _ | .fpush h _ | .fpop h _ | .ypush h _ | .tmma h _ | .tmmas h _ | .tmmac h _
  | .tzero h _ | .xpose h _ | .xcvt h _ | .xquant h _ | .xquantSat h _ | .xexp h _ | .xresh h _ | .xcast h _
  | .xadd h _ | .xmov h _ | .xch h _ | .kscl h _ | .kcode h _ | .kgrant h _ | .kpad h _ | .kmode h _ | .ld h _
  | .ldW h _ | .ldH h _ | .ldB h _ | .st h _ | .stW h _ | .stH h _ | .stB h _ | .vldm h _ | .vstm h _ | .tld h _
  | .tst h _ | .amo h _ | .cas h _ | .acq h _ | .rel h _ | .xfence h _ | .fence h _ | .waitge h _ | .copy h _
  | .copy2d h _ | .copywLd h _ | .copywSt h _ | .gath h _ | .scat h _ | .cexp h _ | .cred h _ | .put h _ | .get h _
  | .ssend h _ | .cadd h _ => some h
  | _ => none

/-- The operation stands in a slot of a bundle. -/
def Instr.isSlotOp (i : Instr) : Bool := i.hdr?.isSome

end Sys2Proof
end

