-- ==== Sys2Proof/Decode.lean ====
section
/-! DEFINITION. The decoder of bundles, code streams and host commands, and the encoder of slot operations, from the
encoding tables R85 to R102 and R365 to R369. -/

namespace Sys2Proof

/-- Operand bits of format SR (R93). -/
def SR.pack (o : SR) : BitVec 41 := (o.rd ++ o.ra ++ o.rb ++ o.mod ++ 0#18 : BitVec 41)

/-- Fields of format SR read from its operand bits. -/
def SR.unpack (x : BitVec 41) : SR :=
  { rd := x.extractLsb' 35 6, ra := x.extractLsb' 29 6, rb := x.extractLsb' 23 6, mod := x.extractLsb' 18 5 }

/-- Operand bits of format SI (R93). -/
def SI.pack (o : SI) : BitVec 41 := (o.rd ++ o.ra ++ o.imm : BitVec 41)

/-- Fields of format SI read from its operand bits. -/
def SI.unpack (x : BitVec 41) : SI :=
  { rd := x.extractLsb' 35 6, ra := x.extractLsb' 29 6, imm := x.extractLsb' 0 29 }

/-- Operand bits of format SL (R93). -/
def SL.pack (o : SL) : BitVec 41 := (o.rd ++ o.imm : BitVec 41)

/-- Fields of format SL read from its operand bits. -/
def SL.unpack (x : BitVec 41) : SL :=
  { rd := x.extractLsb' 35 6, imm := x.extractLsb' 0 35 }

/-- Operand bits of format SS (R93). -/
def SS.pack (o : SS) : BitVec 41 := (o.rd ++ o.ra ++ o.rb ++ o.pa ++ 0#19 : BitVec 41)

/-- Fields of format SS read from its operand bits. -/
def SS.unpack (x : BitVec 41) : SS :=
  { rd := x.extractLsb' 35 6, ra := x.extractLsb' 29 6, rb := x.extractLsb' 23 6, pa := x.extractLsb' 19 4 }

/-- Operand bits of format SC (R93). -/
def SC.pack (o : SC) : BitVec 41 := (o.pt ++ o.pf ++ o.ra ++ o.rb ++ o.cc ++ 0#18 : BitVec 41)

/-- Fields of format SC read from its operand bits. -/
def SC.unpack (x : BitVec 41) : SC :=
  { pt := x.extractLsb' 37 4, pf := x.extractLsb' 33 4, ra := x.extractLsb' 27 6, rb := x.extractLsb' 21 6, cc := x.extractLsb' 18 3 }

/-- Operand bits of format SCI (R93). -/
def SCI.pack (o : SCI) : BitVec 41 := (o.pt ++ o.pf ++ o.ra ++ o.cc ++ o.imm : BitVec 41)

/-- Fields of format SCI read from its operand bits. -/
def SCI.unpack (x : BitVec 41) : SCI :=
  { pt := x.extractLsb' 37 4, pf := x.extractLsb' 33 4, ra := x.extractLsb' 27 6, cc := x.extractLsb' 24 3, imm := x.extractLsb' 0 24 }

/-- Operand bits of format SP (R93). -/
def SP.pack (o : SP) : BitVec 41 := (o.pt ++ o.pf ++ o.pa ++ o.pb ++ o.ra ++ 0#19 : BitVec 41)

/-- Fields of format SP read from its operand bits. -/
def SP.unpack (x : BitVec 41) : SP :=
  { pt := x.extractLsb' 37 4, pf := x.extractLsb' 33 4, pa := x.extractLsb' 29 4, pb := x.extractLsb' 25 4, ra := x.extractLsb' 19 6 }

/-- Operand bits of format SB (R93). -/
def SB.pack (o : SB) : BitVec 41 := (o.bd ++ o.ba ++ o.ra ++ 0#27 : BitVec 41)

/-- Fields of format SB read from its operand bits. -/
def SB.unpack (x : BitVec 41) : SB :=
  { bd := x.extractLsb' 37 4, ba := x.extractLsb' 33 4, ra := x.extractLsb' 27 6 }

/-- Operand bits of format SBL (R93). -/
def SBL.pack (o : SBL) : BitVec 41 := (o.bd ++ 0#5 ++ o.pos : BitVec 41)

/-- Fields of format SBL read from its operand bits. -/
def SBL.unpack (x : BitVec 41) : SBL :=
  { bd := x.extractLsb' 37 4, pos := x.extractLsb' 0 32 }

/-- Operand bits of format SX (R93). -/
def SX.pack (o : SX) : BitVec 41 := (o.rd ++ o.ra ++ o.rb ++ o.imm : BitVec 41)

/-- Fields of format SX read from its operand bits. -/
def SX.unpack (x : BitVec 41) : SX :=
  { rd := x.extractLsb' 35 6, ra := x.extractLsb' 29 6, rb := x.extractLsb' 23 6, imm := x.extractLsb' 0 23 }

/-- Operand bits of format SW (R93). -/
def SW.pack (o : SW) : BitVec 41 := (o.l ++ o.s ++ o.c ++ o.t ++ 0#17 : BitVec 41)

/-- Fields of format SW read from its operand bits. -/
def SW.unpack (x : BitVec 41) : SW :=
  { l := x.extractLsb' 35 6, s := x.extractLsb' 29 6, c := x.extractLsb' 23 6, t := x.extractLsb' 17 6 }

/-- Operand bits of format VR (R94). -/
def VR.pack (o : VR) : BitVec 41 := (o.vd ++ o.va ++ o.vb ++ o.vc ++ o.msk ++ o.rm ++ o.et ++ o.mod ++ 0#5 : BitVec 41)

/-- Fields of format VR read from its operand bits. -/
def VR.unpack (x : BitVec 41) : VR :=
  { vd := x.extractLsb' 35 6, va := x.extractLsb' 29 6, vb := x.extractLsb' 23 6, vc := x.extractLsb' 17 6, msk := x.extractLsb' 14 3, rm := x.extractLsb' 12 2, et := x.extractLsb' 9 3, mod := x.extractLsb' 5 4 }

/-- Operand bits of format VS (R94). -/
def VS.pack (o : VS) : BitVec 41 := (o.vd ++ o.va ++ o.sa ++ o.msk ++ o.et ++ o.mod ++ o.imm : BitVec 41)

/-- Fields of format VS read from its operand bits. -/
def VS.unpack (x : BitVec 41) : VS :=
  { vd := x.extractLsb' 35 6, va := x.extractLsb' 29 6, sa := x.extractLsb' 23 6, msk := x.extractLsb' 20 3, et := x.extractLsb' 17 3, mod := x.extractLsb' 13 4, imm := x.extractLsb' 0 13 }

/-- Operand bits of format VC (R94). -/
def VC.pack (o : VC) : BitVec 41 := (o.md ++ o.va ++ o.vb ++ o.msk ++ o.et ++ o.cc ++ 0#17 : BitVec 41)

/-- Fields of format VC read from its operand bits. -/
def VC.unpack (x : BitVec 41) : VC :=
  { md := x.extractLsb' 38 3, va := x.extractLsb' 32 6, vb := x.extractLsb' 26 6, msk := x.extractLsb' 23 3, et := x.extractLsb' 20 3, cc := x.extractLsb' 17 3 }

/-- Operand bits of format VM (R94). -/
def VM.pack (o : VM) : BitVec 41 := (o.md ++ o.ma ++ o.mb ++ o.rd ++ 0#26 : BitVec 41)

/-- Fields of format VM read from its operand bits. -/
def VM.unpack (x : BitVec 41) : VM :=
  { md := x.extractLsb' 38 3, ma := x.extractLsb' 35 3, mb := x.extractLsb' 32 3, rd := x.extractLsb' 26 6 }

/-- Operand bits of format VT (R94). -/
def VT.pack (o : VT) : BitVec 41 := (o.vd ++ o.tt ++ o.sa ++ o.msk ++ o.imm ++ 0#10 : BitVec 41)

/-- Fields of format VT read from its operand bits. -/
def VT.unpack (x : BitVec 41) : VT :=
  { vd := x.extractLsb' 35 6, tt := x.extractLsb' 31 4, sa := x.extractLsb' 25 6, msk := x.extractLsb' 22 3, imm := x.extractLsb' 10 12 }

/-- Operand bits of format MF (R95). -/
def MF.pack (o : MF) : BitVec 35 := (o.td ++ o.ak ++ o.aop ++ o.bk ++ o.bop ++ o.mod : BitVec 35)

/-- Fields of format MF read from its operand bits. -/
def MF.unpack (x : BitVec 35) : MF :=
  { td := x.extractLsb' 31 4, ak := x.extractLsb' 30 1, aop := x.extractLsb' 18 12, bk := x.extractLsb' 17 1, bop := x.extractLsb' 5 12, mod := x.extractLsb' 0 5 }

/-- Operand bits of format XF (R95). -/
def XF.pack (o : XF) : BitVec 11 := (o.td ++ o.ta ++ o.xe : BitVec 11)

/-- Fields of format XF read from its operand bits. -/
def XF.unpack (x : BitVec 11) : XF :=
  { td := x.extractLsb' 7 4, ta := x.extractLsb' 3 4, xe := x.extractLsb' 0 3 }

/-- Operand bits of format KF (R95). -/
def KF.pack (o : KF) : BitVec 5 := (o.ks : BitVec 5)

/-- Fields of format KF read from its operand bits. -/
def KF.unpack (x : BitVec 5) : KF :=
  { ks := x.extractLsb' 0 5 }

/-- Operand bits of format CI (R96). -/
def CI.pack (o : CI) : BitVec 26 := (o.rd ++ o.rb ++ o.imm : BitVec 26)

/-- Fields of format CI read from its operand bits. -/
def CI.unpack (x : BitVec 26) : CI :=
  { rd := x.extractLsb' 20 6, rb := x.extractLsb' 14 6, imm := x.extractLsb' 0 14 }

/-- Operand bits of format CA (R96). -/
def CA.pack (o : CA) : BitVec 26 := (o.rd ++ o.rb ++ o.rc ++ o.aop ++ o.size ++ 0#2 : BitVec 26)

/-- Fields of format CA read from its operand bits. -/
def CA.unpack (x : BitVec 26) : CA :=
  { rd := x.extractLsb' 20 6, rb := x.extractLsb' 14 6, rc := x.extractLsb' 8 6, aop := x.extractLsb' 4 4, size := x.extractLsb' 2 2 }

/-- Operand bits of format CW (R96). -/
def CW.pack (o : CW) : BitVec 26 := (o.tt ++ o.win ++ o.rx ++ o.ry ++ o.mod : BitVec 26)

/-- Fields of format CW read from its operand bits. -/
def CW.unpack (x : BitVec 26) : CW :=
  { tt := x.extractLsb' 22 4, win := x.extractLsb' 14 8, rx := x.extractLsb' 8 6, ry := x.extractLsb' 2 6, mod := x.extractLsb' 0 2 }

/-- Operand bits of format CF (R96). -/
def CF.pack (o : CF) : BitVec 26 := (o.pa ++ o.pb ++ o.scope ++ o.obj ++ 0#1 : BitVec 26)

/-- Fields of format CF read from its operand bits. -/
def CF.unpack (x : BitVec 26) : CF :=
  { pa := x.extractLsb' 23 3, pb := x.extractLsb' 20 3, scope := x.extractLsb' 17 3, obj := x.extractLsb' 1 16 }

/-- Operand bits of format CR (R96). -/
def CR.pack (o : CR) : BitVec 26 := (o.ra ++ o.rb ++ o.rc ++ o.rd ++ o.mod : BitVec 26)

/-- Fields of format CR read from its operand bits. -/
def CR.unpack (x : BitVec 26) : CR :=
  { ra := x.extractLsb' 20 6, rb := x.extractLsb' 14 6, rc := x.extractLsb' 8 6, rd := x.extractLsb' 2 6, mod := x.extractLsb' 0 2 }

/-- A slot word of 56 bits: guard, path tag, opcode, operand (R86). -/
def wordS (h : Hdr) (op : BitVec 8) (x : BitVec 41) : BitVec 56 :=
  ((h.guard ++ h.tag ++ op ++ x : BitVec 56)).setWidth 56

/-- A slot word of 56 bits: guard, path tag, opcode, operand (R86). -/
def wordV (h : Hdr) (op : BitVec 8) (x : BitVec 41) : BitVec 56 :=
  ((h.guard ++ h.tag ++ op ++ x : BitVec 56)).setWidth 56

/-- A slot word of 48 bits: guard, path tag, opcode, operand (R86). -/
def wordM (h : Hdr) (op : BitVec 6) (x : BitVec 35) : BitVec 56 :=
  ((h.guard ++ h.tag ++ op ++ x : BitVec 48)).setWidth 56

/-- A slot word of 40 bits: guard, path tag, opcode, operand (R86). -/
def wordC (h : Hdr) (op : BitVec 7) (x : BitVec 26) : BitVec 56 :=
  ((h.guard ++ h.tag ++ op ++ x : BitVec 40)).setWidth 56

/-- A slot word of 24 bits: guard, path tag, opcode, operand (R86). -/
def wordX (h : Hdr) (op : BitVec 6) (x : BitVec 11) : BitVec 56 :=
  ((h.guard ++ h.tag ++ op ++ x : BitVec 24)).setWidth 56

/-- A slot word of 16 bits: guard, path tag, opcode, operand (R86). -/
def wordK (h : Hdr) (op : BitVec 4) (x : BitVec 5) : BitVec 56 :=
  ((h.guard ++ h.tag ++ op ++ x : BitVec 16)).setWidth 56

/-- The slot word of a slot operation, zero-extended to 56 bits (R97 to R100); 0 for `nop` and for what has no slot
encoding; the bits themselves for a reserved encoding. -/
def encode : Instr → BitVec 56
  | .add h o => wordS h 0x01 o.pack
  | .sub h o => wordS h 0x02 o.pack
  | .and h o => wordS h 0x03 o.pack
  | .or h o => wordS h 0x04 o.pack
  | .xor h o => wordS h 0x05 o.pack
  | .sll h o => wordS h 0x06 o.pack
  | .srl h o => wordS h 0x07 o.pack
  | .sra h o => wordS h 0x08 o.pack
  | .min h o => wordS h 0x09 o.pack
  | .max h o => wordS h 0x0a o.pack
  | .minu h o => wordS h 0x0b o.pack
  | .maxu h o => wordS h 0x0c o.pack
  | .shadd h o => wordS h 0x0d o.pack
  | .clz h o => wordS h 0x0e o.pack
  | .ctz h o => wordS h 0x0f o.pack
  | .popc h o => wordS h 0x10 o.pack
  | .bext h o => wordS h 0x11 o.pack
  | .bins h o => wordS h 0x12 o.pack
  | .mul h o => wordS h 0x13 o.pack
  | .mulh h o => wordS h 0x14 o.pack
  | .mulhu h o => wordS h 0x15 o.pack
  | .div h o => wordS h 0x16 o.pack
  | .divu h o => wordS h 0x17 o.pack
  | .rem h o => wordS h 0x18 o.pack
  | .remu h o => wordS h 0x19 o.pack
  | .sel h o => wordS h 0x1a o.pack
  | .addi h o => wordS h 0x20 o.pack
  | .andi h o => wordS h 0x21 o.pack
  | .ori h o => wordS h 0x22 o.pack
  | .xori h o => wordS h 0x23 o.pack
  | .slli h o => wordS h 0x24 o.pack
  | .srli h o => wordS h 0x25 o.pack
  | .srai h o => wordS h 0x26 o.pack
  | .li h o => wordS h 0x27 o.pack
  | .lih h o => wordS h 0x28 o.pack
  | .cmp h o => wordS h 0x30 o.pack
  | .cmpi h o => wordS h 0x31 o.pack
  | .pand h o => wordS h 0x32 o.pack
  | .por h o => wordS h 0x33 o.pack
  | .pxor h o => wordS h 0x34 o.pack
  | .pandn h o => wordS h 0x35 o.pack
  | .ptst h o => wordS h 0x36 o.pack
  | .bli h o => wordS h 0x38 o.pack
  | .bmov h o => wordS h 0x39 o.pack
  | .bget h o => wordS h 0x3a o.pack
  | .loop h o => wordS h 0x40 o.pack
  | .lbrk h o => wordS h 0x41 o.pack
  | .lget h o => wordS h 0x42 o.pack
  | .rotcfg h o => wordS h 0x43 o.pack
  | .swp h o => wordS h 0x44 o.pack
  | .bsel h o => wordS h 0x45 o.pack
  | .dbind h o => wordS h 0x48 o.pack
  | .dfree h o => wordS h 0x49 o.pack
  | .dget h o => wordS h 0x4a o.pack
  | .tyget h o => wordS h 0x4b o.pack
  | .tyset h o => wordS h 0x4c o.pack
  | .csrr h o => wordS h 0x50 o.pack
  | .csrw h o => wordS h 0x51 o.pack
  | .csrs h o => wordS h 0x52 o.pack
  | .csrc h o => wordS h 0x53 o.pack
  | .trap h o => wordS h 0x58 o.pack
  | .tret h o => wordS h 0x59 o.pack
  | .exit h o => wordS h 0x5a o.pack
  | .wait h o => wordS h 0x5b o.pack
  | .bar h o => wordS h 0x5c o.pack
  | .vfadd h o => wordV h 0x01 o.pack
  | .vfsub h o => wordV h 0x02 o.pack
  | .vfmul h o => wordV h 0x03 o.pack
  | .vffma h o => wordV h 0x04 o.pack
  | .vffms h o => wordV h 0x05 o.pack
  | .vfmin h o => wordV h 0x06 o.pack
  | .vfmax h o => wordV h 0x07 o.pack
  | .vfabs h o => wordV h 0x08 o.pack
  | .vfneg h o => wordV h 0x09 o.pack
  | .vfdiv h o => wordV h 0x0a o.pack
  | .vfsqrt h o => wordV h 0x0b o.pack
  | .vfexp2 h o => wordV h 0x0c o.pack
  | .vflog2 h o => wordV h 0x0d o.pack
  | .vfrcp h o => wordV h 0x0e o.pack
  | .vfrsq h o => wordV h 0x0f o.pack
  | .vadd h o => wordV h 0x10 o.pack
  | .vsub h o => wordV h 0x11 o.pack
  | .vmul h o => wordV h 0x12 o.pack
  | .vmulh h o => wordV h 0x13 o.pack
  | .vand h o => wordV h 0x14 o.pack
  | .vor h o => wordV h 0x15 o.pack
  | .vxor h o => wordV h 0x16 o.pack
  | .vandn h o => wordV h 0x17 o.pack
  | .vsll h o => wordV h 0x18 o.pack
  | .vsrl h o => wordV h 0x19 o.pack
  | .vsra h o => wordV h 0x1a o.pack
  | .vmin h o => wordV h 0x1b o.pack
  | .vmax h o => wordV h 0x1c o.pack
  | .vabs h o => wordV h 0x1d o.pack
  | .vcvt h o => wordV h 0x1e o.pack
  | .vmerge h o => wordV h 0x1f o.pack
  | .vfcmp h o => wordV h 0x20 o.pack
  | .vcmp h o => wordV h 0x21 o.pack
  | .vperm h o => wordV h 0x22 o.pack
  | .vslide h o => wordV h 0x23 o.pack
  | .vbcast h o => wordV h 0x24 o.pack
  | .vlane h o => wordV h 0x25 o.pack
  | .vmovs h o => wordV h 0x26 o.pack
  | .vmovsIns h o => wordV h 0x26 o.pack
  | .vfred h o => wordV h 0x28 o.pack
  | .vred h o => wordV h 0x29 o.pack
  | .vfscan h o => wordV h 0x2a o.pack
  | .vscan h o => wordV h 0x2b o.pack
  | .mand h o => wordV h 0x2c o.pack
  | .mor h o => wordV h 0x2d o.pack
  | .mxor h o => wordV h 0x2e o.pack
  | .mandn h o => wordV h 0x2f o.pack
  | .mpop h o => wordV h 0x30 o.pack
  | .vtrow h o => wordV h 0x31 o.pack
  | .vtwr h o => wordV h 0x32 o.pack
  | .vld h o => wordV h 0x40 o.pack
  | .vst h o => wordV h 0x41 o.pack
  | .vgat h o => wordV h 0x42 o.pack
  | .vsca h o => wordV h 0x43 o.pack
  | .vatom h o => wordV h 0x44 o.pack
  | .fpush h o => wordV h 0x45 o.pack
  | .fpop h o => wordV h 0x46 o.pack
  | .ypush h o => wordV h 0x47 o.pack
  | .tmma h o => wordM h 0x01 o.pack
  | .tmmas h o => wordM h 0x02 o.pack
  | .tmmac h o => wordM h 0x03 o.pack
  | .tzero h o => wordM h 0x04 o.pack
  | .xpose h o => wordX h 0x01 o.pack
  | .xcvt h o => wordX h 0x02 o.pack
  | .xquant h o => wordX h 0x03 o.pack
  | .xquantSat h o => wordX h 0x04 o.pack
  | .xexp h o => wordX h 0x05 o.pack
  | .xresh h o => wordX h 0x06 o.pack
  | .xcast h o => wordX h 0x07 o.pack
  | .xadd h o => wordX h 0x08 o.pack
  | .xmov h o => wordX h 0x09 o.pack
  | .xch h o => wordX h 0x0a o.pack
  | .kscl h o => wordK h 0x01 o.pack
  | .kcode h o => wordK h 0x02 o.pack
  | .kgrant h o => wordK h 0x03 o.pack
  | .kpad h o => wordK h 0x04 o.pack
  | .kmode h o => wordK h 0x05 o.pack
  | .ld h o => wordC h 0x01 o.pack
  | .ldW h o => wordC h 0x02 o.pack
  | .ldH h o => wordC h 0x03 o.pack
  | .ldB h o => wordC h 0x04 o.pack
  | .st h o => wordC h 0x05 o.pack
  | .stW h o => wordC h 0x06 o.pack
  | .stH h o => wordC h 0x07 o.pack
  | .stB h o => wordC h 0x08 o.pack
  | .vldm h o => wordC h 0x09 o.pack
  | .vstm h o => wordC h 0x0a o.pack
  | .tld h o => wordC h 0x0b o.pack
  | .tst h o => wordC h 0x0c o.pack
  | .amo h o => wordC h 0x0d o.pack
  | .cas h o => wordC h 0x0e o.pack
  | .acq h o => wordC h 0x10 o.pack
  | .rel h o => wordC h 0x11 o.pack
  | .xfence h o => wordC h 0x12 o.pack
  | .fence h o => wordC h 0x13 o.pack
  | .waitge h o => wordC h 0x14 o.pack
  | .copy h o => wordC h 0x20 o.pack
  | .copy2d h o => wordC h 0x21 o.pack
  | .copywLd h o => wordC h 0x22 o.pack
  | .copywSt h o => wordC h 0x22 o.pack
  | .gath h o => wordC h 0x23 o.pack
  | .scat h o => wordC h 0x24 o.pack
  | .cexp h o => wordC h 0x25 o.pack
  | .cred h o => wordC h 0x26 o.pack
  | .put h o => wordC h 0x27 o.pack
  | .get h o => wordC h 0x28 o.pack
  | .ssend h o => wordC h 0x29 o.pack
  | .cadd h o => wordC h 0x2a o.pack
  | .reservedOpcode _ raw => raw
  | _ => 0

/-- The operation a S-slot opcode names, with its fields, before any check (R97); none for a reserved opcode. -/
def pickS (h : Hdr) (op : Nat) (x : BitVec 41) : Option Instr :=
  match op with
  | 0x01 => some (.add h (SR.unpack x))
  | 0x02 => some (.sub h (SR.unpack x))
  | 0x03 => some (.and h (SR.unpack x))
  | 0x04 => some (.or h (SR.unpack x))
  | 0x05 => some (.xor h (SR.unpack x))
  | 0x06 => some (.sll h (SR.unpack x))
  | 0x07 => some (.srl h (SR.unpack x))
  | 0x08 => some (.sra h (SR.unpack x))
  | 0x09 => some (.min h (SR.unpack x))
  | 0x0a => some (.max h (SR.unpack x))
  | 0x0b => some (.minu h (SR.unpack x))
  | 0x0c => some (.maxu h (SR.unpack x))
  | 0x0d => some (.shadd h (SR.unpack x))
  | 0x0e => some (.clz h (SR.unpack x))
  | 0x0f => some (.ctz h (SR.unpack x))
  | 0x10 => some (.popc h (SR.unpack x))
  | 0x11 => some (.bext h (SR.unpack x))
  | 0x12 => some (.bins h (SR.unpack x))
  | 0x13 => some (.mul h (SR.unpack x))
  | 0x14 => some (.mulh h (SR.unpack x))
  | 0x15 => some (.mulhu h (SR.unpack x))
  | 0x16 => some (.div h (SR.unpack x))
  | 0x17 => some (.divu h (SR.unpack x))
  | 0x18 => some (.rem h (SR.unpack x))
  | 0x19 => some (.remu h (SR.unpack x))
  | 0x1a => some (.sel h (SS.unpack x))
  | 0x20 => some (.addi h (SI.unpack x))
  | 0x21 => some (.andi h (SI.unpack x))
  | 0x22 => some (.ori h (SI.unpack x))
  | 0x23 => some (.xori h (SI.unpack x))
  | 0x24 => some (.slli h (SI.unpack x))
  | 0x25 => some (.srli h (SI.unpack x))
  | 0x26 => some (.srai h (SI.unpack x))
  | 0x27 => some (.li h (SL.unpack x))
  | 0x28 => some (.lih h (SL.unpack x))
  | 0x30 => some (.cmp h (SC.unpack x))
  | 0x31 => some (.cmpi h (SCI.unpack x))
  | 0x32 => some (.pand h (SP.unpack x))
  | 0x33 => some (.por h (SP.unpack x))
  | 0x34 => some (.pxor h (SP.unpack x))
  | 0x35 => some (.pandn h (SP.unpack x))
  | 0x36 => some (.ptst h (SP.unpack x))
  | 0x38 => some (.bli h (SBL.unpack x))
  | 0x39 => some (.bmov h (SB.unpack x))
  | 0x3a => some (.bget h (SB.unpack x))
  | 0x40 => some (.loop h (SX.unpack x))
  | 0x41 => some (.lbrk h (SX.unpack x))
  | 0x42 => some (.lget h (SX.unpack x))
  | 0x43 => some (.rotcfg h (SX.unpack x))
  | 0x44 => some (.swp h (SX.unpack x))
  | 0x45 => some (.bsel h (SX.unpack x))
  | 0x48 => some (.dbind h (SX.unpack x))
  | 0x49 => some (.dfree h (SX.unpack x))
  | 0x4a => some (.dget h (SX.unpack x))
  | 0x4b => some (.tyget h (SX.unpack x))
  | 0x4c => some (.tyset h (SX.unpack x))
  | 0x50 => some (.csrr h (SX.unpack x))
  | 0x51 => some (.csrw h (SX.unpack x))
  | 0x52 => some (.csrs h (SX.unpack x))
  | 0x53 => some (.csrc h (SX.unpack x))
  | 0x58 => some (.trap h (SX.unpack x))
  | 0x59 => some (.tret h (SX.unpack x))
  | 0x5a => some (.exit h (SX.unpack x))
  | 0x5b => some (.wait h (SW.unpack x))
  | 0x5c => some (.bar h (SX.unpack x))
  | _ => none

/-- The operation a V-slot opcode names, with its fields, before any check (R98); none for a reserved opcode. -/
def pickV (h : Hdr) (op : Nat) (x : BitVec 41) : Option Instr :=
  match op with
  | 0x01 => some (.vfadd h (VR.unpack x))
  | 0x02 => some (.vfsub h (VR.unpack x))
  | 0x03 => some (.vfmul h (VR.unpack x))
  | 0x04 => some (.vffma h (VR.unpack x))
  | 0x05 => some (.vffms h (VR.unpack x))
  | 0x06 => some (.vfmin h (VR.unpack x))
  | 0x07 => some (.vfmax h (VR.unpack x))
  | 0x08 => some (.vfabs h (VR.unpack x))
  | 0x09 => some (.vfneg h (VR.unpack x))
  | 0x0a => some (.vfdiv h (VR.unpack x))
  | 0x0b => some (.vfsqrt h (VR.unpack x))
  | 0x0c => some (.vfexp2 h (VR.unpack x))
  | 0x0d => some (.vflog2 h (VR.unpack x))
  | 0x0e => some (.vfrcp h (VR.unpack x))
  | 0x0f => some (.vfrsq h (VR.unpack x))
  | 0x10 => some (.vadd h (VR.unpack x))
  | 0x11 => some (.vsub h (VR.unpack x))
  | 0x12 => some (.vmul h (VR.unpack x))
  | 0x13 => some (.vmulh h (VR.unpack x))
  | 0x14 => some (.vand h (VR.unpack x))
  | 0x15 => some (.vor h (VR.unpack x))
  | 0x16 => some (.vxor h (VR.unpack x))
  | 0x17 => some (.vandn h (VR.unpack x))
  | 0x18 => some (.vsll h (VR.unpack x))
  | 0x19 => some (.vsrl h (VR.unpack x))
  | 0x1a => some (.vsra h (VR.unpack x))
  | 0x1b => some (.vmin h (VR.unpack x))
  | 0x1c => some (.vmax h (VR.unpack x))
  | 0x1d => some (.vabs h (VR.unpack x))
  | 0x1e => some (.vcvt h (VR.unpack x))
  | 0x1f => some (.vmerge h (VR.unpack x))
  | 0x20 => some (.vfcmp h (VC.unpack x))
  | 0x21 => some (.vcmp h (VC.unpack x))
  | 0x22 => some (.vperm h (VR.unpack x))
  | 0x23 => some (.vslide h (VR.unpack x))
  | 0x24 => some (.vbcast h (VS.unpack x))
  | 0x25 => some (.vlane h (VR.unpack x))
  | 0x26 => some (if (VS.unpack x).mod.getLsbD 0 then .vmovsIns h (VS.unpack x) else .vmovs h (VS.unpack x))
  | 0x28 => some (.vfred h (VR.unpack x))
  | 0x29 => some (.vred h (VR.unpack x))
  | 0x2a => some (.vfscan h (VR.unpack x))
  | 0x2b => some (.vscan h (VR.unpack x))
  | 0x2c => some (.mand h (VM.unpack x))
  | 0x2d => some (.mor h (VM.unpack x))
  | 0x2e => some (.mxor h (VM.unpack x))
  | 0x2f => some (.mandn h (VM.unpack x))
  | 0x30 => some (.mpop h (VM.unpack x))
  | 0x31 => some (.vtrow h (VT.unpack x))
  | 0x32 => some (.vtwr h (VT.unpack x))
  | 0x40 => some (.vld h (VS.unpack x))
  | 0x41 => some (.vst h (VS.unpack x))
  | 0x42 => some (.vgat h (VS.unpack x))
  | 0x43 => some (.vsca h (VS.unpack x))
  | 0x44 => some (.vatom h (VS.unpack x))
  | 0x45 => some (.fpush h (VS.unpack x))
  | 0x46 => some (.fpop h (VS.unpack x))
  | 0x47 => some (.ypush h (VS.unpack x))
  | _ => none

/-- The operation a M-slot opcode names, with its fields, before any check (R99); none for a reserved opcode. -/
def pickM (h : Hdr) (op : Nat) (x : BitVec 35) : Option Instr :=
  match op with
  | 0x01 => some (.tmma h (MF.unpack x))
  | 0x02 => some (.tmmas h (MF.unpack x))
  | 0x03 => some (.tmmac h (MF.unpack x))
  | 0x04 => some (.tzero h (MF.unpack x))
  | _ => none

/-- The operation a C-slot opcode names, with its fields, before any check (R100); none for a reserved opcode. -/
def pickC (h : Hdr) (op : Nat) (x : BitVec 26) : Option Instr :=
  match op with
  | 0x01 => some (.ld h (CI.unpack x))
  | 0x02 => some (.ldW h (CI.unpack x))
  | 0x03 => some (.ldH h (CI.unpack x))
  | 0x04 => some (.ldB h (CI.unpack x))
  | 0x05 => some (.st h (CI.unpack x))
  | 0x06 => some (.stW h (CI.unpack x))
  | 0x07 => some (.stH h (CI.unpack x))
  | 0x08 => some (.stB h (CI.unpack x))
  | 0x09 => some (.vldm h (CI.unpack x))
  | 0x0a => some (.vstm h (CI.unpack x))
  | 0x0b => some (.tld h (CW.unpack x))
  | 0x0c => some (.tst h (CW.unpack x))
  | 0x0d => some (.amo h (CA.unpack x))
  | 0x0e => some (.cas h (CA.unpack x))
  | 0x10 => some (.acq h (CF.unpack x))
  | 0x11 => some (.rel h (CF.unpack x))
  | 0x12 => some (.xfence h (CF.unpack x))
  | 0x13 => some (.fence h (CF.unpack x))
  | 0x14 => some (.waitge h (CI.unpack x))
  | 0x20 => some (.copy h (CR.unpack x))
  | 0x21 => some (.copy2d h (CR.unpack x))
  | 0x22 => some (if (CR.unpack x).mod.getLsbD 0 then .copywSt h (CR.unpack x) else .copywLd h (CR.unpack x))
  | 0x23 => some (.gath h (CR.unpack x))
  | 0x24 => some (.scat h (CR.unpack x))
  | 0x25 => some (.cexp h (CR.unpack x))
  | 0x26 => some (.cred h (CR.unpack x))
  | 0x27 => some (.put h (CR.unpack x))
  | 0x28 => some (.get h (CR.unpack x))
  | 0x29 => some (.ssend h (CR.unpack x))
  | 0x2a => some (.cadd h (CR.unpack x))
  | _ => none

/-- The operation a X-slot opcode names, with its fields, before any check (R99); none for a reserved opcode. -/
def pickX (h : Hdr) (op : Nat) (x : BitVec 11) : Option Instr :=
  match op with
  | 0x01 => some (.xpose h (XF.unpack x))
  | 0x02 => some (.xcvt h (XF.unpack x))
  | 0x03 => some (.xquant h (XF.unpack x))
  | 0x04 => some (.xquantSat h (XF.unpack x))
  | 0x05 => some (.xexp h (XF.unpack x))
  | 0x06 => some (.xresh h (XF.unpack x))
  | 0x07 => some (.xcast h (XF.unpack x))
  | 0x08 => some (.xadd h (XF.unpack x))
  | 0x09 => some (.xmov h (XF.unpack x))
  | 0x0a => some (.xch h (XF.unpack x))
  | _ => none

/-- The operation a K-slot opcode names, with its fields, before any check (R99); none for a reserved opcode. -/
def pickK (h : Hdr) (op : Nat) (x : BitVec 5) : Option Instr :=
  match op with
  | 0x01 => some (.kscl h (KF.unpack x))
  | 0x02 => some (.kcode h (KF.unpack x))
  | 0x03 => some (.kgrant h (KF.unpack x))
  | 0x04 => some (.kpad h (KF.unpack x))
  | 0x05 => some (.kmode h (KF.unpack x))
  | _ => none

/-- Guard and path tag of a slot word whose prefix starts at bit `top` downward (R86). -/
def hdrOf (slot : Slot) (raw : BitVec 56) (top : Nat) : Hdr :=
  { slot := slot, guard := raw.extractLsb' (top - 4) 4, tag := raw.extractLsb' (top - 7) 3 }

/-- The operation named by a slot's opcode, before the checks of R101. -/
def pick (slot : Slot) (raw : BitVec 56) : Option Instr :=
  match slot with
  | .S => pickS (hdrOf slot raw 56) (raw.extractLsb' 41 8).toNat (raw.extractLsb' 0 41)
  | .V0 | .V1 => pickV (hdrOf slot raw 56) (raw.extractLsb' 41 8).toNat (raw.extractLsb' 0 41)
  | .M => pickM (hdrOf slot raw 48) (raw.extractLsb' 35 6).toNat (raw.extractLsb' 0 35)
  | .C0 | .C1 => pickC (hdrOf slot raw 40) (raw.extractLsb' 26 7).toNat (raw.extractLsb' 0 26)
  | .X => pickX (hdrOf slot raw 24) (raw.extractLsb' 11 6).toNat (raw.extractLsb' 0 11)
  | .K => pickK (hdrOf slot raw 16) (raw.extractLsb' 5 4).toNat (raw.extractLsb' 0 5)

/-- A slot word decodes to its operation when it is a legal encoding (R91, R92, R101): every reserved bit is zero, which
re-encoding shows, and the fields are well formed. An all-zero slot is `nop`; anything else is a reserved encoding. -/
def decodeSlot (slot : Slot) (raw : BitVec 56) : Instr :=
  if raw = 0 then .nop slot else
  match pick slot raw with
  | some i => if i.wf && encode i == raw then i else .reservedOpcode slot raw
  | none => .reservedOpcode slot raw

/-- Bits of one slot of a bundle (R85). -/
def slotBits (b : BundleWord) : Slot → BitVec 56
  | .S => b.extractLsb' 280 56
  | .V0 => b.extractLsb' 224 56
  | .V1 => b.extractLsb' 168 56
  | .M => (b.extractLsb' 120 48).setWidth 56
  | .C0 => (b.extractLsb' 80 40).setWidth 56
  | .C1 => (b.extractLsb' 40 40).setWidth 56
  | .X => (b.extractLsb' 16 24).setWidth 56
  | .K => (b.extractLsb' 0 16).setWidth 56

/-- A decoded bundle: whether its bundle bits are illegal (R101 row 1), the drain bit, the tests, the eight slots. -/
structure Bundle where
  bad   : Bool
  drain : Bool
  tests : List Test
  ops   : List Instr
  deriving DecidableEq, Repr

/-- Test k of a bundle (R85, R87). -/
def testBits (b : BundleWord) (k : Nat) : BitVec 10 := b.extractLsb' (366 - 10 * k) 10

/-- The fields of a test (R87). -/
def Test.unpack (x : BitVec 10) : Test :=
  { pred := x.extractLsb' 6 4, sense := x.extractLsb' 5 1, tgt := x.extractLsb' 1 4, kind := x.extractLsb' 0 1 }

/-- The bits of a test (R87). -/
def Test.pack (t : Test) : BitVec 10 := t.pred ++ t.sense ++ t.tgt ++ t.kind

/-- The slots in the order of R32. -/
def allSlots : List Slot := [.S, .V0, .V1, .M, .C0, .C1, .X, .K]

/-- Decodes a bundle (R85, R87, R101). -/
def decodeBundle (b : BundleWord) : Bundle :=
  let n := (b.extractLsb' 380 3).toNat
  { bad := b.extractLsb' 376 4 != 0 || 4 < n || (List.range 4).any (fun k => n ≤ k && testBits b k != 0)
    drain := b.getLsbD 383
    tests := (List.range 4 |>.take n).map fun k => Test.unpack (testBits b k)
    ops := allSlots.map fun s => decodeSlot s (slotBits b s) }

/-- The bundle that holds the operation in its slot and nothing else, or the tree and nothing else. -/
def bundleOf : Instr → Bundle
  | .nop _ => { bad := false, drain := false, tests := [], ops := [] }
  | .branchTree d ts => { bad := false, drain := d, tests := ts, ops := [] }
  | i => { bad := false, drain := false, tests := [], ops := [i] }

/-- The bits of a slot operation at its place in a bundle (R85). -/
def placeSlot (slot : Slot) (raw : BitVec 56) : BundleWord :=
  match slot with
  | .S => raw.setWidth 384 <<< 280
  | .V0 => raw.setWidth 384 <<< 224
  | .V1 => raw.setWidth 384 <<< 168
  | .M => raw.setWidth 384 <<< 120
  | .C0 => raw.setWidth 384 <<< 80
  | .C1 => raw.setWidth 384 <<< 40
  | .X => raw.setWidth 384 <<< 16
  | .K => raw.setWidth 384

/-- The literal bundle of a code stream: 24 halfwords, halfword i at bits 16i+15:16i (R102). -/
def bundleOfHalfwords (hs : List (BitVec 16)) : BundleWord :=
  hs.zipIdx.foldl (fun acc (x : BitVec 16 × Nat) => acc ||| (x.1.setWidth 384 <<< (16 * x.2))) 0

/-- The halfwords of a literal bundle after its escape (R102). -/
def halfwordsOf (b : BundleWord) : List (BitVec 16) :=
  (List.range 24).map fun i => b.extractLsb' (16 * i) 16

/-- What the sequencer finds at a position (R101, R102): an illegal code with the code read, or a bundle with the
fall-through position (R89). -/
inductive Fetched where
  | illegal (code : Nat)
  | bundle (b : Bundle) (next : Nat)
  deriving DecidableEq, Repr

/-- Fetches the code at a position of a stream (R101, R102). -/
def fetchCode (dict : List BundleWord) (stream : List (BitVec 16)) (pos : Nat) : Fetched :=
  match stream[pos]? with
  | none => .illegal 0
  | some c =>
    if c = 0xFFFF then
      let hs := (stream.drop (pos + 1)).take 24
      if hs.length < 24 then .illegal c.toNat else .bundle (decodeBundle (bundleOfHalfwords hs)) (pos + 25)
    else
      match dict[c.toNat]? with
      | some b => if c.toNat < 0x1000 then .bundle (decodeBundle b) (pos + 1) else .illegal c.toNat
      | none => .illegal c.toNat

/-- The one operation of a bundle that holds a single operation: a lone slot operation without a drain point, a lone tree, or
`nop` for the empty bundle. -/
def soleOp (b : Bundle) : Option Instr :=
  if b.bad then none else
  match b.ops.filter (fun i => match i with | .nop _ => false | _ => true), b.tests with
  | [], [] => if b.drain then some (.branchTree true []) else some (.nop .S)
  | [], ts => some (.branchTree b.drain ts)
  | [i], [] => if b.drain then none else some i
  | _, _ => none

/-- The operation in a code-stream word: the escape halfword 0xFFFF in bits 15:0 and the literal bundle above it (R102). -/
def decodeTableWord (_nbits w : Nat) : Option Instr :=
  if w % 65536 = 0xFFFF then soleOp (decodeBundle (BitVec.ofNat 384 (w / 65536))) else none

/-- The command a block names by OPC (R367), FABCFG SUB (R369), YCFG A1 and QUERY item (R368). A reserved one is
answered with status 1. -/
def decodeCommand (c : Command) : Instr :=
  match c.opc.toNat with
  | 0x01 => .pcreate | 0x02 => .pdestroy | 0x03 => .ptroot | 0x04 => .ptinv
  | 0x05 =>
    match (c.a[0]).toNat with
    | 0 => .fabcfgKeyEntry | 1 => .fabcfgShareEntry | 2 => .fabcfgPortMode | 3 => .fabcfgOutboundKey
    | 4 =>
      match (c.a[1]).toNat with
      | 0 => .fabcfgDomainSize | 1 => .fabcfgRoute | 2 => .fabcfgOwnAccelerator | _ => .reservedCommand
    | 5 => .fabcfgReductionTree | 6 => .fabcfgUalinkSource | 7 => .fabcfgLiftFence | 8 => .fabcfgLaneThreshold
    | _ => .reservedCommand
  | 0x06 => .memw | 0x07 => .memr | 0x08 => .imgload | 0x09 => .imgfree | 0x0A => .gsubmit | 0x0B => .gabort
  | 0x0C => match (c.a[1]).toNat with | 0 => .ycfgAssignQueue | 1 => .ycfgLoadRouter | _ => .reservedCommand
  | 0x0D => .govset
  | 0x0E =>
    match (c.a[0]).toNat with
    | 0 => .queryPcc | 1 => .querySpares | 2 => .queryPartition | 3 => .queryPortTenant | 4 => .queryYelmQueue
    | 5 => .queryRepairReport | 6 => .queryTemperature | 7 => .queryErrorCounts | _ => .reservedCommand
  | 0x0F => .reset
  | _ => .reservedCommand

/-- The 64-byte command block read as its fields (R365). -/
def commandOf (port : Nat) (block : BitVec 512) (data : List Byte) : Command :=
  { port := port, opc := block.extractLsb' 0 8, status := block.extractLsb' 8 12, part := block.extractLsb' 20 4
    rsv := block.extractLsb' 24 8, seq := block.extractLsb' 32 32
    a := Vector.ofFn fun k => block.extractLsb' (64 + 64 * k.val) 64, data := data }

end Sys2Proof
end

