-- ==== Sys2Proof/Config.lean ====
section
/-! DEFINITION. What the spec leaves to one build of the part, and the values it leaves open. -/

namespace Sys2Proof.Config

/-- Byte `i` of the spill-ring slot that the `n`-th spilled push of a channel writes: R235 gives the slot its 64 bytes and
no layout, so each byte is a free value (log entry 5). -/
opaque spillByte : Nat → Nat → Byte

/-- Data of a codebook tile that `xpose` moves as an engine operation: R271 moves elements, and one index holds eight of
them, so the spec states no result; a free value of the source's data and type word (log entry 8). -/
opaque codebookTranspose : TileData → TypeWord → TileData

/-- VA of the save area that Ridge has allocated for an instance: R318 places it in the partition's memory and gives no
address; a free value of the instance's serial (log entry 9). -/
opaque saveArea : Nat → Word

/-- The `n`-th report whose layout the spec does not give: a fence report (R339), a step fault or router report (R359, R361), an
over-temperature report (R374); each is a free value (log entry 10). -/
opaque openReport : Nat → BitVec 128

/-- Spare rows or banks left on a stack (LEFT of R328) at the `n`-th event: R327 has them per stack and states no number, so a
free value (log entry 11). -/
opaque hbmSparesLeft : Nat → BitVec 8

/-- A byte of the ROM routine: R349 places it and gives no contents, so a free value of its offset (log entry 12). -/
opaque yelmRom : Nat → Byte

/-- What a Yelm register window reads where the spec states no value (QWIN of an empty queue, QPART of a queue with no partition),
by offset and PCC, and the queue that a number above 3 in QSEL selects; free values (log entry 13). -/
opaque yelmOpen : Nat → Nat → Byte

/-- Which of the lines of a full set L1 gives up at the `n`-th eviction: R181 names no replacement rule, so a free value (log
entry 51). -/
opaque l1Victim : Nat → Nat

/-- The L2 slice of a line, 0 to 639 over the four dies, and its set in it, 0 to 255, as slice + 640 · set: R183 calls the spread not
architectural, so a free value (log entry 72). -/
opaque l2Place : Nat → Nat

/-- Which of the 16 dirty lines of a full set an L2 slice writes back at the `n`-th eviction; a free value (log entry 72). -/
opaque l2Victim : Nat → Nat

/-- Die of an L2 slice whose correction concerns no core: the unit code of R375 names the slice within its die and not the die, so a
free value (log entry 10). -/
opaque errorDie : Nat → Nat

/-- The word that opens the Atomic request of a `cred` element for which R334 has no AOP (FP32, BF16, saturating INT32), by bits 38:32
of the operation register; a free value (log entry 21). -/
opaque credWord : Nat → Nat

/-- Flags of the `n`-th element that `cred` combines on another accelerator: R334 returns none, so a free value (log entry 21). -/
opaque credFlags : Nat → BitVec 6

/-- The code by which the response to a typed send tells its sender a status of R239: R338 has none for it, so a free value of the
status (log entry 21). -/
opaque sendCode : Nat → Nat

/-- Architectural cores (R2). -/
def coreCount : Nat := 256
/-- First address above local memory (R174). -/
def localLimit : Nat := 0xFF40000000
/-- First virtual address of the SRAM window (R175). -/
def windowBase : Nat := 0xFFFFFFFFC00000
/-- End of the virtual address space (R174). -/
def vaLimit : Nat := 2 ^ 56

end Sys2Proof.Config
end

