-- ==== Sys2Proof/Machine/State.lean ====
section
/-! DEFINITION. The state of an FJ-8400 package as plain data: 256 cores, 64 clusters, 4 dies, home memory, partitions,
graphs, the fabric ports and the Unoon link, and the list of inputs that the outside supplies. The rule that names each
field stands beside it; reset values that the spec does not state are in log entries 3 and 4. -/

namespace Sys2Proof.Machine

/-- Memory as (address, byte) pairs, addresses strictly rising, no byte equal to what an unlisted address reads as. -/
abbrev Memory := List Host.Cell

/-- One entry of the loop stack (R128). -/
structure LoopEntry where
  start : BitVec 32
  stop  : BitVec 32
  count : BitVec 32
  deriving DecidableEq, Repr, Inhabited

/-- The register files of R38, by physical number. -/
structure Regs where
  s     : Vector Word 64
  v     : Vector VReg 64
  t     : Vector TileData 16
  ty    : Vector TypeWord 16
  p     : Vector Bool 16
  m     : Vector Word 8
  b     : Vector (BitVec 32) 16
  d     : Vector (Option (BitVec 32)) 16
  /-- Innermost entry first. -/
  loops : List LoopEntry
  rot   : Word
  pad   : Vector (BitVec 32) 4
  deriving DecidableEq, Repr

/-- The registers at the start of an instance (R38), with `s1` still 0. -/
def Regs.start : Regs :=
  { s := Vector.replicate 64 0, v := Vector.replicate 64 0, t := Vector.replicate 16 0, ty := Vector.replicate 16 0
    p := (Vector.replicate 16 false).set 0 true, m := (Vector.replicate 8 0).set 0 (BitVec.allOnes 64)
    b := Vector.replicate 16 0, d := Vector.replicate 16 none, loops := [], rot := 0, pad := Vector.replicate 4 0 }

/-- Engine state (R256) and the sticky flags of R82. -/
structure Engine where
  st      : Vector (BitVec 16) 16
  sba     : BitVec 32
  sbb     : BitVec 32
  cbt0    : Vector (BitVec 16) 256
  cbt1    : Vector (BitVec 16) 256
  padsel  : Word
  /-- Issue cycles before the M pipeline accepts again, counted from the next bundle (R263). -/
  occ     : Nat
  /-- Number of the next exchange (R280). -/
  xnum    : Nat
  clip    : Bool
  fpflags : BitVec 6
  deriving DecidableEq, Repr

/-- Engine state at instance start (R256): every scale 1.0. -/
def Engine.start : Engine :=
  { st := Vector.replicate 16 0x3F80, sba := 0x3F800000, sbb := 0x3F800000, cbt0 := Vector.replicate 256 0
    cbt1 := Vector.replicate 256 0, padsel := 0x124, occ := 0, xnum := 0, clip := false, fpflags := 0 }

/-- What a result in flight does when it lands (R22): a register write by physical number, or the bytes of a V1 commit
(R165) by scratchpad address. -/
inductive Land where
  | s (r : Nat) (x : Word)
  | v (r : Nat) (x mask : VReg)
  | t (r : Nat) (x : TileData) (ty : TypeWord)
  | trow (r row : Nat) (x mask : VReg)
  | ty (r : Nat) (x : TypeWord)
  | tzero (r : Nat)
  | p (r : Nat) (x : Bool)
  | m (r : Nat) (x : Word)
  | b (r : Nat) (x : BitVec 32)
  | pad (r : Nat) (x : BitVec 32)
  | csr (n : Nat) (x : Word)
  | cells (xs : List Host.Cell)
  /-- A write to s0, p0, m0 or a dead register (R39, R42) that still carries flags (R83). -/
  | nothing
  deriving DecidableEq, Repr

/-- A result in flight (R22): its landing cycle, effect, flags (R83), whether it sets QSTAT.CLIP (R275), whether it is an
`xch` landing (R315), and the replay register it still occupies (R317). -/
structure Flight where
  due   : Nat
  land  : Land
  flags : BitVec 6
  clip  : Bool
  xch   : Bool
  q     : Option Nat
  deriving DecidableEq, Repr

/-- A replay register in use (R315). -/
structure Replay where
  q     : Nat
  rem   : Nat
  hnd   : Bool
  land  : Land
  flags : BitVec 6
  clip  : Bool
  xch   : Bool
  deriving DecidableEq, Repr

/-- A cause of a trap with its syndromes and the slot field of SYND3 (R308, R309). -/
structure Cause where
  code  : Nat
  synd0 : Word
  synd1 : Word
  synd2 : Word
  synd3 : Word
  deriving DecidableEq, Repr, Inhabited

/-- An asynchronous cause with its arrival; `deferred` marks one that was pending when a user handler was entered and
waits for its return (R312). -/
structure Async where
  pcc      : Nat
  deferred : Bool
  cause    : Cause
  deriving DecidableEq, Repr

/-- A translation (R190, R191): the page's first VA, its size, the accelerator of a remote page, the frame, and whether
writes are allowed. -/
structure Trans where
  va    : Nat
  size  : Nat
  acc   : Option Nat
  pa    : Nat
  write : Bool
  /-- The leaf entry and the level it was read at, for the syndrome of R193. -/
  entry : Word
  level : Nat
  deriving DecidableEq, Repr

/-- A failed walk (R193): KIND, LEVEL and the entry read. -/
structure WalkFault where
  kind  : Nat
  level : Nat
  entry : Word
  deriving DecidableEq, Repr

/-- The bytes an access touches: virtual address ranges and the home of each 4 KiB piece. A home key is a PA of this
package, 2^52 (acc + 1) + PA on accelerator acc, or 2^70 plus 2^22 cluster plus a scratchpad address. -/
structure Span where
  ranges : List (Nat × Nat)
  pages  : List (Nat × Nat)
  deriving DecidableEq, Repr

/-- A byte held dirty in L1 (R181): home key, value, which bits were written, the object it is bound to (R196), the
serial of the oldest store in it, the compressible attribute (R185). -/
structure DirtyByte where
  key  : Nat
  val  : Byte
  mask : Byte
  obj  : Option Nat
  ser  : Nat
  cmp  : Bool
  deriving DecidableEq, Repr

/-- What an outstanding load does with its data (R214 to R218). -/
inductive LoadKind where
  | scalar (r : Option Nat)
  | vector (r : Option Nat)
  | amo (r : Option Nat) (op : Nat) (v : Word)
  | cas (r : Option Nat) (expect new : Word)
  /-- A read of a remote counter by a held `waitge` (R230). -/
  | poll
  deriving DecidableEq, Repr

/-- An outstanding load or atomic (R28). `fwd` holds bytes already bound to a value (R198); `obj` is the object it is bound to
(R196). Of bytes on another accelerator, `asked` says that the request has left, `keep` that L1 may keep what returns. -/
structure LoadOp where
  id    : Nat
  slot  : Nat
  va    : Nat
  n     : Nat
  kind  : LoadKind
  span  : Span
  fwd   : List Host.Cell
  obj   : Option Nat
  asked : Bool
  keep  : Bool
  deriving DecidableEq, Repr

/-- An outstanding store (R28): the bytes it writes, the fence epoch in which it issued (R207). -/
structure StoreOp where
  id    : Nat
  slot  : Nat
  va    : Nat
  epoch : Nat
  bytes : List DirtyByte
  deriving DecidableEq, Repr

/-- An outstanding tile load (R223) with its box type and window. -/
structure TldOp where
  id   : Nat
  slot : Nat
  tile : Nat
  win  : Nat
  desc : WindowWord
  box  : TypeWord
  /-- The box extents as values, and the origin. -/
  ext  : List Nat
  org  : List Nat
  span : Span
  fwd  : List Host.Cell
  /-- As of a load. -/
  asked : Bool
  keep  : Bool
  deriving DecidableEq, Repr

/-- An outstanding tile store (R225). -/
structure TstOp where
  id   : Nat
  slot : Nat
  tile : Nat
  win  : Nat
  desc : WindowWord
  box  : TypeWord
  ext  : List Nat
  org  : List Nat
  span : Span
  /-- The tile as it stood at issue (R211), and its OCNT. -/
  data : TileData
  ocnt : Nat
  /-- The fence epoch in which it issued (R207). -/
  epoch : Nat
  deriving DecidableEq, Repr

/-- An outstanding release (R201, R227). `marked` says that the release markers of its epoch have left, if it closes one;
`routes` are the ports, with the writes sent by each, whose routers have yet to complete the epoch (R207). -/
structure RelOp where
  id     : Nat
  obj    : Nat
  scope  : Nat
  epoch  : Option Nat
  /-- The core whose number its markers carry. -/
  agent  : Nat
  marked : Bool
  routes : List (Nat × Nat)
  deriving DecidableEq, Repr

/-- The copy commands (R244 to R254). -/
inductive CopyKind where
  | copy | copy2d | copywLd | copywSt | gath | scat | cexp | cred | put | get | ssend | cadd
  deriving DecidableEq, Repr, Inhabited

/-- The instance a copy command, a remote write or a release belongs to, which may have left its core. -/
structure Owner where
  uid   : Nat
  part  : Nat
  graph : Nat
  node  : Nat
  idx   : Nat
  core  : Nat
  deriving DecidableEq, Repr

/-- A queue entry (R232 to R236): its owner, what was read at issue, the expanded time, the captured record address. -/
structure CopyEntry where
  own  : Owner
  kind : CopyKind
  ra   : Word
  rb   : Word
  rc   : Word
  mod  : BitVec 2
  /-- Window descriptor and number, box extents and origin, box or carried type word, of the window and typed forms. -/
  desc : WindowWord
  win  : Nat
  ext  : List Nat
  org  : List Nat
  box  : TypeWord
  /-- The absolute start time A, 0 for none (R236); before PCC 0 it is negative. -/
  at_  : Int
  add  : Word
  cen  : Bool
  record : Nat
  deriving DecidableEq, Repr

/-- Why a channel is stopped (R194): the command, whether its record failed, and the syndrome. -/
structure ChanStop where
  id    : Nat
  atRec : Bool
  synd0 : Word
  synd1 : Word
  synd2 : Word
  deriving DecidableEq, Repr

/-- A copy channel of a core (R232, R235): unstarted entries on chip, spilled entries, ring slots used so far, stop. -/
structure Channel where
  queue   : List CopyEntry
  spilled : List CopyEntry
  ring    : Nat
  stop    : Option ChanStop
  deriving DecidableEq, Repr, Inhabited

/-- A command in progress (R237), which runs on even when its owner has left its core. -/
structure CopyRun where
  id     : Nat
  ch     : Nat
  /-- Place in the channel's start order. -/
  seq    : Nat
  e      : CopyEntry
  start  : Nat
  /-- Chunks in all, once known. -/
  total  : Option Nat
  /-- Chunks done. -/
  done   : Nat
  /-- Source offset of the next group (R248). -/
  off    : Nat
  /-- Index of the row in progress (R246). -/
  idx    : Nat
  status : BitVec 9
  flags  : BitVec 6
  /-- Highest ring group that holds a permit, plus one (R249). -/
  permit : Nat
  /-- Source bytes of a chunk whose write faulted (R241). -/
  buf    : Option (List Byte)
  /-- What the chunks so far have gathered of a typed send's image or of a stream (R251, R253). -/
  img    : List Byte
  /-- A chunk has written nothing, so what follows is not delivered in sequence (R242). -/
  gap    : Bool
  /-- Keys of remote source bytes that the chunk in progress has asked for. -/
  asked  : List Nat
  /-- Nothing is left to move; only the record remains. -/
  fin    : Bool
  /-- The record step has gone to another accelerator. -/
  sent   : Bool
  deriving DecidableEq, Repr

/-- Draw grant state (R285). -/
structure Grant where
  cls  : Option Nat
  gend : Nat
  pend : Option (Nat × Nat)
  deriving DecidableEq, Repr, Inhabited

/-- A rectangular region bound to an object (R297). -/
structure Region where
  base : Nat
  size : Nat
  obj  : Nat
  deriving DecidableEq, Repr

/-- A launch header (R295): the cut, level bytes LVL0 to LVL6, argument block, trap vector, interlock, pair timeout,
regions. -/
structure Header where
  nf      : Nat
  widths  : List Nat
  counts  : List Nat
  levels  : List (BitVec 8)
  arg     : Word
  tven    : Bool
  tvec    : Nat
  ilk     : Bool
  pto     : Nat
  regions : List Region
  deriving DecidableEq, Repr, Inhabited

/-- The running instance (R11, R18). `uid` is the model's own serial. -/
structure Inst where
  uid     : Nat
  part    : Nat
  graph   : Nat
  node    : Nat
  idx     : Nat
  wid     : Word
  lh      : Header
  windows : List WindowWord
  entry   : Nat
  deriving DecidableEq, Repr

/-- Why a bundle is held (R27). -/
inductive HoldKind where
  | wait | bar (level : Nat) | waitge | acq | fence | tlb
  deriving DecidableEq, Repr

/-- The watchdog measures the hold (R321). -/
def HoldKind.watched : HoldKind → Bool
  | .wait | .bar _ | .waitge | .acq => true
  | .fence | .tlb => false

/-- Why a core is stalled other than by bank conflicts (R26, R34). -/
inductive StallKind where
  | grant | pair | ilk
  deriving DecidableEq, Repr

/-- What a core is doing. `service` is Ridge servicing a page or spill fault (R313); `saving` is a save that waits for
L, S and T and for Ridge (R319); `resuming` is a saved instance that Ridge has placed (R320); `retiring` is an instance past
its `exit` (R19). -/
inductive Phase where
  | idle | run | retiring | service | saving | resuming
  deriving DecidableEq, Repr, Inhabited

/-- Class counters (R28). -/
structure Counters where
  l : Nat
  s : Nat
  c : Nat
  t : Nat
  deriving DecidableEq, Repr, Inhabited

/-- The trap registers (R308 to R314) and the retry identity of R323. -/
structure TrapRegs where
  cause    : Word
  synd0    : Word
  synd1    : Word
  synd2    : Word
  synd3    : Word
  trappc   : Word
  hnd      : Bool
  /-- Retries of the trapping bundle in a row (R314, R323). -/
  rtry     : Nat
  /-- Traps in a row with the code `rtryCode` at the position `rtryPos`, with no retirement between (R323). -/
  run      : Nat
  rtryCode : Nat
  rtryPos  : Nat
  deriving DecidableEq, Repr, Inhabited

/-- A byte of a remote page that L1 holds (R181), with the aligned unit around it, up to 8 bytes, that one access brought whole
(R197). -/
structure FarByte where
  key  : Nat
  val  : Byte
  unit : Nat
  deriving DecidableEq, Repr

/-- The memory side of a core: L1 (R181), outstanding accesses (R28), releases (R227), walks (R192). -/
structure CoreMem where
  /-- Clean sectors held, by sector number (home key div 32), 32 bytes each. -/
  clean  : List (Nat × List Byte)
  dirty  : List DirtyByte
  loads  : List LoadOp
  stores : List StoreOp
  tlds   : List TldOp
  tsts   : List TstOp
  rels   : List RelOp
  /-- Pages whose walks the held bundle waits for (R27). -/
  want   : List Nat
  /-- Results of completed walks of the bundle now coming to issue, by 4 KiB page number. -/
  walks  : List (Nat × Option WalkFault)
  walked : List Trans
  /-- The fence epoch of the agent (R336). -/
  epoch  : Nat
  /-- Remote writes sent, by epoch and port (R207, R336). -/
  sent   : List ((Nat × Nat) × Nat)
  /-- Bytes of remote pages that L1 holds: own stores, which are written through, and what loads have returned (R181, R215). -/
  far    : List FarByte
  /-- The counter of the held `waitge` of each slot, by slot code, as it was judged when the bundle first came to issue (R230). -/
  gate   : List (Nat × Span)
  /-- What the held `waitge` of each slot last read from a remote counter: a value, or a refusal with its code (R230). -/
  poll   : List (Nat × (Word ⊕ Nat))
  deriving DecidableEq, Repr, Inhabited

/-- A half on the pair link (R280), named by the instance that supplied it. It stays there until the bundles of both members
have met it, or it is withdrawn. -/
structure XchHalf where
  graph : Nat
  node  : Nat
  idx   : Nat
  num   : Nat
  data  : TileData
  ty    : TypeWord
  /-- The partner's bundle has issued with it, or has trapped on it. -/
  taken : Bool
  deriving DecidableEq, Repr

/-- How far the counters of a core, and its outstanding releases, have fallen in PCC cycle `at_` (R35). -/
structure Drops where
  at_ : Nat
  l   : Nat
  s   : Nat
  c   : Nat
  t   : Nat
  r   : Nat
  deriving DecidableEq, Repr, Inhabited

/-- One architectural core with the instance it runs. -/
structure Core where
  phase   : Phase
  inst    : Option Inst
  dict    : List BundleWord
  stream  : List (BitVec 16)
  r       : Regs
  e       : Engine
  x       : TrapRegs
  mem     : CoreMem
  cnt     : Counters
  /-- Pending bits of s, v and t by physical number (R29, R39). -/
  pendS   : Word
  pendV   : Word
  pendT   : BitVec 16
  /-- `bar` instructions retired, by level (R20). -/
  bars    : List Nat
  grant   : Grant
  /-- A grant of an instance that has left the core, whose units are held until GEND or the core's next grant (R304). -/
  drawn   : Grant
  stalls  : Word
  holds   : Word
  cbase   : Word
  cwp     : Vector Word 2
  spr     : Vector Word 2
  ch      : Vector Channel 2
  wid     : Word
  level   : Word
  grid    : Vector Word 6
  pos     : Nat
  /-- The issue cycle of the next bundle (R8). -/
  cycle   : Nat
  /-- Branch bubbles still to pass (R24). -/
  bubbles : Nat
  flight  : List Flight
  replay  : List Replay
  /-- The next bundle re-lands replay registers (R317). -/
  reland  : Bool
  asyncs  : List Async
  /-- A pre-emption request and the issue cycle at which it arrived (R33). -/
  preempt : Option Nat
  hold    : Option (HoldKind × Nat)
  stall   : Option (StallKind × Nat)
  /-- Time for which the bundle of the next hold was held before a save (R321). -/
  held    : Nat
  /-- What the counters have lost in this PCC cycle (R35). -/
  drops   : Drops
  /-- Held bundles whose release has been entered (R226), by HND and position. -/
  relIn   : List (Bool × Nat)
  /-- The first exchange whose half the instance had not supplied when it took a hard fault (R326 item 3). -/
  broke   : Option Nat
  /-- The launch starts this instance again, so its leaving the core does not end it (R324). -/
  again   : Bool
  /-- Bundles with FP arithmetic in both V slots in this 1,024-cycle window (R306). -/
  heavy   : Nat
  /-- The code and syndrome of the service in progress (R313). -/
  serving : Option Cause
  /-- CAUSE of the instance that last left the core (R326). -/
  lastCause : Word
  /-- The first PCC cycle at which the core acts again. -/
  wake    : Nat
  /-- The PCC cycle at which a bank-conflict stall runs out (R26). -/
  stallEnd : Option Nat
  /-- Physical core retired and no spare left (R328). -/
  unplaceable : Bool
  /-- Physical core retired; a spare takes over at the next save or kill (R327). -/
  spareDue : Bool
  deriving DecidableEq, Repr

/-- A core that runs nothing: R38's instance-start values, empty pipelines (R38, R256, R329). -/
def Core.idle : Core :=
  { phase := .idle, inst := none, dict := [], stream := [], r := Regs.start, e := Engine.start, x := default
    mem := default, cnt := default, pendS := 0, pendV := 0, pendT := 0, bars := List.replicate 7 0, grant := default, drawn := default
    stalls := 0, holds := 0, cbase := 0, cwp := Vector.replicate 2 0, spr := Vector.replicate 2 0
    ch := Vector.replicate 2 default, wid := 0, level := 0, grid := Vector.replicate 6 0, pos := 0, cycle := 0
    bubbles := 0, flight := [], replay := [], reland := false, asyncs := [], preempt := none
    hold := none, stall := none, held := 0, drops := default, relIn := [], broke := none, again := false, heavy := 0, serving := none, lastCause := 0, wake := 0, stallEnd := none
    unplaceable := false, spareDue := false }

/-- Mode of an SRAM bank (R176). -/
inductive BankMode where
  | cache | spad | fifo
  deriving DecidableEq, Repr, Inhabited

/-- One SRAM bank's map entry (R176) and its FIFO (R171, R172): entries, the counts each side sees, and the counts in
transit as (due PCC, true for a push). -/
structure Bank where
  mode    : BankMode
  ready   : Bool
  own     : Nat
  prod    : Nat
  cons    : Nat
  /-- Instances of the owner, or of producer and consumer (R180). -/
  ownUid  : Nat
  prodUid : Nat
  consUid : Nat
  entries : List VReg
  pcount  : Nat
  ccount  : Nat
  transit : List (Nat × Bool)
  /-- PCC of the retire of the change in progress (R179). -/
  since   : Nat
  deriving DecidableEq, Repr

/-- A bank in cache mode, READY (R176). -/
def Bank.cache : Bank :=
  { mode := .cache, ready := true, own := 0, prod := 0, cons := 0, ownUid := 0, prodUid := 0, consUid := 0, entries := []
    pcount := 0, ccount := 0, transit := [], since := 0 }

/-- A request for a bank that has passed the checks of R178 in this PCC cycle: the cluster, the requesting core's number in it and
its instance, and for FIFO mode the other party and which side the requester takes. -/
structure BankReq where
  cluster : Nat
  bank    : Nat
  mode    : BankMode
  core    : Nat
  uid     : Nat
  peer    : Nat
  peerUid : Nat
  cons    : Bool
  deriving DecidableEq, Repr

/-- A cluster: banks, SRAM contents, and the translations its TLBs hold (R192). -/
structure Cluster where
  banks : Vector Bank 64
  sram  : Memory
  tlb   : List Trans
  deriving DecidableEq, Repr

/-- An open or closed step of a Yelm queue (R353, R354). `aff` holds the affinities supplied, by token and expert. -/
structure YStep where
  id     : Nat
  num    : Nat
  t      : Nat
  e      : Nat
  c      : Nat
  add    : Nat
  stat   : Nat
  res    : Nat
  meta_  : Nat
  itab   : Nat
  dl     : Nat
  aff    : List ((Nat × Nat) × BitVec 32)
  malc   : Nat
  nanc   : Nat
  /-- Closed, by deadline or complete. -/
  closed : Option Bool
  miss   : Nat
  /-- The residency bitmap as read at close (R356). -/
  bitmap : List Bool
  /-- The step has closed, and its bitmap on another accelerator has not come. -/
  waitRes : Bool
  fault  : Bool
  /-- PCC of the close. -/
  since  : Nat
  /-- The outputs are written, and remote ones of them are awaited. -/
  wrote  : Bool
  deriving DecidableEq, Repr

/-- The registers of a Yelm processor (R349): x1 to x31, the pc, and the reservation of a load-reserved with the bytes it read. -/
structure Rv where
  x    : Vector Word 32
  pc   : Word
  resv : Option (Nat × List Byte)
  deriving DecidableEq, Repr

/-- A die's gate-logit queue and Yelm processor (R349 to R362). -/
structure Yelm where
  queue   : List WindowWord
  /-- PCCs at which pops become free entries for the cores (R352). -/
  frees   : List Nat
  part    : Option Nat
  steps   : List YStep
  discard : Nat
  noStep  : Nat
  /-- The die whose processor serves this queue (R362). -/
  server  : Nat
  qsel    : Nat
  /-- A user router serves this queue (R361). -/
  user    : Bool
  /-- The Yelm record whose scratchpad and registers that router uses: its server's, or its own where it was taken over by a processor
  that runs another (R362). -/
  home    : Nat
  /-- A remote read for this queue has been refused by the fabric. -/
  readErr : Bool
  failed  : Bool
  scratch : Memory
  rv      : Rv
  deriving DecidableEq, Repr

/-- A request waiting for a draw grant (R305). -/
structure GrantReq where
  core : Nat
  pcc  : Nat
  deriving DecidableEq, Repr

/-- A fence counter of a router (R336), by the port that its route leaves by: writes passed, and the marker's count once it
has arrived. -/
structure FenceCount where
  port   : Nat
  src    : Nat
  agent  : Nat
  epoch  : Nat
  passed : Nat
  marker : Option Nat
  deriving DecidableEq, Repr

/-- A die: governor (R304 to R306), thermal state (R374), spares (R327), fence counters, Yelm. -/
structure Die where
  b          : Nat
  d          : Nat
  winUnits   : Nat
  queue      : List GrantReq
  charge     : Nat
  throttleAt : Nat
  temp       : Nat
  throttling : Bool
  shut       : Bool
  spareCores : Nat
  spareSlices : Nat
  fences     : List FenceCount
  /-- Release markers that have reached the router, each with the port of its route (R336). -/
  markers    : List (Nat × Flit)
  yelm       : Yelm
  deriving DecidableEq, Repr

/-- A partition (R367, R190, R321). -/
structure Partition where
  clusters : Nat
  tenant   : Nat
  root     : Nat
  wlog     : Nat
  deriving DecidableEq, Repr

/-- A loaded image (R113, R367). -/
structure Image where
  dict    : List BundleWord
  stream  : List (BitVec 16)
  windows : List WindowWord
  entry   : Nat
  deriving DecidableEq, Repr

/-- State of a graph node (R291, R292). -/
inductive NodeState where
  | waiting | ready | running | completed (result : Bool) | skipped
  deriving DecidableEq, Repr

/-- A launch in progress (R295 to R300): instances not yet dispatched from `next` upward, groups to dispatch again. -/
structure Launch where
  lh      : Header
  windows : List WindowWord
  image   : Image
  total   : Nat
  next    : Nat
  /-- Instances that have retired or were killed. -/
  gone    : Nat

  /-- Groups to start again (R324): first instance index and number of instances. -/
  redo    : List (Nat × Nat)
  /-- Index ranges killed before dispatch (R322). -/
  dead    : List (Nat × Nat)
  killed  : Bool
  refused : Bool
  /-- CAUSE of each instance of a paired launch that has left (R309). -/
  left    : List (Nat × Word)
  deriving DecidableEq, Repr

/-- Whose access waits for a page fault to be serviced, besides the cores: a node's (R292), the root of a tree's (R347). -/
inductive Asker where
  | node (graph node : Nat)
  | comb (tree round : Nat)
  deriving DecidableEq, Repr

/-- A page fault of Ridge or Comb: its service is under way, or has failed (R193). -/
structure Ask where
  who    : Asker
  failed : Bool
  deriving DecidableEq, Repr

/-- A graph node (R290). -/
structure Node where
  word   : WindowWord
  state  : NodeState
  /-- PCC at which it became ready (R301). -/
  since  : Nat
  /-- Effective priority (R301). -/
  eff    : Nat
  /-- Its record or its add has gone to another accelerator. -/
  sent   : Bool
  /-- PCC of the last poll, of a wait node. -/
  polled : Option Nat
  launch : Option Launch
  /-- The header and windows read at submission, of a launch node. -/
  lh     : Option Header
  deriving DecidableEq, Repr

/-- A resident graph (R290, R371). -/
structure Graph where
  part    : Nat
  order   : Nat
  record  : Nat
  nodes   : List Node
  status  : BitVec 3
  /-- The graph record's step has gone to another accelerator. -/
  sent    : Bool
  deriving DecidableEq, Repr

/-- Cores reserved for a unit that pre-empts others (R303): instance index and core of each member. -/
structure Plan where
  part  : Nat
  graph : Nat
  node  : Nat
  first : Nat
  size  : Nat
  cores : List (Nat × Nat)
  deriving DecidableEq, Repr

/-- An instance saved from its core (R318), with the cluster its banks hold it to (R180). -/
structure Saved where
  core    : Core
  inst    : Inst
  cluster : Option Nat
  local_  : Nat
  deriving DecidableEq, Repr

/-- The response block of a command (R365), or an unsolicited event. -/
structure Response where
  opc    : BitVec 8
  status : Nat
  part   : BitVec 4
  seq    : Nat
  a      : Vector Word 7
  data   : List Byte
  deriving DecidableEq, Repr

/-- What a command still executing waits for (R372): a graph to end, or all that a partition runs. -/
inductive Await where
  | graph (g : Nat)
  | destroy (part : Nat)
  deriving DecidableEq, Repr

/-- The Unoon link (R364, R366): active port, since when each link is down, previous SEQ, kept responses, the command that
still executes, commands received behind it, blocks sent. -/
structure Unoon where
  active : Nat
  down   : Vector (Option Nat) 2
  seq    : Nat
  kept   : List Response
  await  : Option (Command × Await)
  pendq  : List Command
  /-- The command in `cmd` was accepted when it arrived, and waited behind another. -/
  again  : Bool
  sent   : List Response
  deriving DecidableEq, Repr

/-- Per-tenant counts at a port (R339, R368). -/
structure PortCount where
  tenant  : Nat
  refused : Nat
  errors  : Nat
  outFlits : Nat
  inFlits : Nat
  deriving DecidableEq, Repr

/-- A Purlin port (R331, R332, R337 to R341). -/
structure Port where
  mode    : Nat
  lanes   : Nat
  spare   : Bool
  /-- Corrected errors of each active lane in the present 2^20 flits (R332). -/
  corr    : List Nat
  flits   : Nat
  thresh  : Nat
  keys    : List (Nat × Word)
  shares  : List ((Bool × Nat) × Word)
  sources : List (Nat × Nat)
  fenced  : List Nat
  counts  : List PortCount
  /-- Flits waiting to leave, oldest first, each with the number of its request in this package, 0 for none. -/
  outq    : List (Nat × Flit)
  /-- Flits received and accepted that the round robin has yet to serve; of a request to home memory, which was performed as it was
  accepted (R207), the answer's class and payload. -/
  inq     : List (Flit × Option (Nat × List Byte))
  deficit : List ((Bool × Nat) × Nat)
  deriving DecidableEq, Repr

/-- A leaf or stage of a reduction tree (R369). -/
structure TreeNode where
  acc    : Nat
  die    : Nat
  parent : Option Nat
  inp    : Nat
  deriving DecidableEq, Repr

/-- A reduction tree (R343, R369). -/
structure Tree where
  num    : Nat
  ten    : Nat
  cap    : Nat
  part   : Nat
  leaves : List TreeNode
  stages : List TreeNode
  deriving DecidableEq, Repr

/-- A run of a stream's entries, index and value (R346): a dense segment with its first index, or entries of any segments. -/
structure Segment where
  dense   : Bool
  first   : Nat
  entries : List (Nat × BitVec 32)
  deriving DecidableEq, Repr

/-- A stream that has arrived at an input of a stage in a round (R343, R344). -/
structure Stream where
  tree  : Nat
  round : Nat
  stage : Nat
  inp   : Nat
  segs  : List Segment
  /-- Header fields of the leaf's `ssend`: RA, VF, DZ, THR. -/
  ra    : Word
  vf    : Bool
  dz    : Bool
  thr   : Nat
  /-- The leaf accelerators whose streams are in it, with the status bits each has earned. -/
  marks : List (Nat × BitVec 9)
  /-- Streams of other parameters that follow it at the input in the round. -/
  left  : Nat
  deriving DecidableEq, Repr

/-- A typed send or a stream of which some flits have been delivered (R342). -/
structure PartMsg where
  port   : Nat
  tenant : Nat
  src    : Nat
  agent  : Nat
  cls    : Nat
  tag    : Nat
  bytes  : List Byte
  deriving DecidableEq, Repr

/-- A typed send waiting at a receiving port (R252). -/
structure Send where
  id     : Nat
  port   : Nat
  tenant : Nat
  src    : Nat
  agent  : Nat
  tag    : Nat
  ty     : TypeWord
  image  : List Byte
  pcc    : Nat
  deriving DecidableEq, Repr

/-- What takes a place in the synchronisation order (R200): a release or acquire of an object, a completion add or a
satisfied `waitge` at a counter's home key. -/
inductive SyncKind where
  | release (obj : Nat)
  | acquire (obj : Nat)
  | add (key : Nat)
  | waitge (key : Nat)
  deriving DecidableEq, Repr

/-- A place in the synchronisation order (R200): the agent, by accelerator and by its number of R333, with its instance; the
tenant and the partition whose objects it names; the scope of its operation; and what it did. -/
structure SyncEvent where
  acc    : Nat
  agent  : Nat
  uid    : Nat
  tenant : Nat
  part   : Nat
  scope  : Nat
  kind   : SyncKind
  deriving DecidableEq, Repr

/-- A release whose instance has retired before it took its place (R201). -/
structure OldRel where
  own : Owner
  rel : RelOp
  deriving DecidableEq, Repr

/-- What a remote write that touches a byte only in part still has to merge into the aligned 8 bytes at its key (R225): the bits it
writes, their values, and the value that its exchange expects to find (log entry 21). -/
structure Merge where
  mask   : Nat
  val    : Nat
  expect : Nat
  deriving DecidableEq, Repr

/-- A remote write or record step that awaits its response (R207, R213): `group` is the instruction or command it came
from, `native` says whether its port is in native mode, `refused` that its error response has arrived. -/
structure RemReq where
  id      : Nat
  group   : Nat
  own     : Owner
  agent   : Nat
  epoch   : Nat
  port    : Option Nat
  native  : Bool
  va      : Nat
  acc     : Nat
  /-- Home key of the first byte. -/
  key     : Nat
  access  : Nat
  slot    : Nat
  copy    : Bool
  refused : Bool
  merge   : Option Merge
  /-- A record step or an atomic that already has its place in the synchronisation order (R200). -/
  placed  : Bool
  deriving DecidableEq, Repr

/-- A line that its home L2 slice holds and has still to write to HBM (R183): its dirty bytes, and the compressible attribute of the
write that last filled the whole line, if one did while it was held (R185). -/
structure L2Line where
  line  : Nat
  dirty : BitVec 128
  full  : Option Bool
  deriving DecidableEq, Repr

/-- A word with a SEC-DED error (R189): the place and how many bits are wrong. -/
structure SoftErr where
  place : ErrPlace
  bits  : Nat
  deriving DecidableEq, Repr

/-- Error counts of QUERY item 7 (R368). -/
structure ErrCounts where
  single : Nat
  double : Nat
  deriving DecidableEq, Repr

/-- Something that happens at a PCC cycle that the spec leaves open: an event of the opcode table, a command block arriving on a
Unoon port, an eviction, a write-back, or the next instruction of the user router on a die's Yelm, with the remote bytes that its read returns (R361). -/
inductive Input where
  | event (i : Instr)
  | command (c : Command)
  /-- A core's L1 gives up a line (R181). -/
  | evict (core line : Nat)
  /-- An L2 slice writes a line to HBM (R183). -/
  | writeBack (line : Nat)
  | router (die : Nat) (remote : List Byte)
  /-- A die's temperature in °C as its sensor gives it (R368, R374). -/
  | temp (die deg : Nat)
  deriving DecidableEq, Repr

/-- The package. -/
structure State where
  powered  : Bool
  pcc      : Nat
  cores    : Vector Core 256
  clusters : Vector Cluster 64
  /-- Requests for banks retired in this PCC cycle; the modes change with the next cycle (R178). -/
  kmodes   : List BankReq
  dies     : Vector Die 4
  /-- Home memory, as the L2 slices give it (R174, R183). -/
  mem      : Memory
  /-- Lines whose compression tag is not raw, with the tag (R185 to R187), and the lines whose last full write carried
  the compressible attribute. -/
  tags     : List (Nat × Nat)
  cmpLines : List Nat
  /-- Lines that the L2 slices hold dirty (R183). -/
  l2       : List L2Line
  errs     : List SoftErr
  errCount : ErrCounts
  /-- Reserve pseudo-channel unused, by stack (R184, R327). -/
  reserve  : Vector Bool 16
  parts    : Vector (Option Partition) 16
  images   : List (Nat × Image)
  graphs   : List (Nat × Graph)
  saved    : List Saved
  plans    : List Plan
  copies   : List CopyRun
  unoon    : Unoon
  reports  : List (BitVec 128)
  reportCount : Nat
  ports    : Vector Port 48
  outKeys  : List (Nat × BitVec 16)
  accNum   : Nat
  domain   : Nat
  routes   : List (Nat × Nat)
  trees    : List Tree
  streams  : List Stream
  /-- Halves on the pair links (R280). -/
  link     : List XchHalf
  rounds   : List ((Nat × Nat) × Nat)
  sends    : List Send
  sync     : List SyncEvent
  /-- Words of home memory that hold the completion record of a grid or the counter of a signal node: an agent that reads one
  sees the grid's writes (R209). -/
  news     : List Nat
  oldRels  : List OldRel
  remote   : List RemReq
  /-- Error responses of the package's own routers to its requests, as (agent, request, code) (R335, R338). -/
  bounced  : List (Nat × Nat × Nat)
  /-- Page faults of Ridge and Comb in service. -/
  asks     : List Ask
  /-- Messages of which some flits have been delivered. -/
  partials : List PartMsg
  ridgeDie : Nat
  /-- The PCC of the last governor window (R304), vector-heavy window (R306) and recomputation of priorities (R301). -/
  winAt    : Nat
  heavyAt  : Nat
  agedAt   : Nat
  /-- The command block being executed (R365). -/
  cmd      : Command
  /-- The core whose bundle issues. -/
  cur      : Nat
  serial   : Nat
  inputs   : List (Nat × Input)
  deriving DecidableEq, Repr

/-- Why the machine stops with a fault. -/
inductive Fault where
  /-- The package has no power or has not come up (R373): raised by everything but POWER_UP. Safe. -/
  | noPower
  deriving DecidableEq, Repr

/-- Why a step has no meaning. -/
inductive Refusal where
  /-- An instruction that the model does not give a meaning. Raised by `exec` only. Safe. -/
  | notModelled (mnemonic : String)
  /-- An event or an operation whose own condition does not hold in this state (a completion of nothing outstanding, an
  operation on a core that issues nothing): such a step does not happen in the part. Raised by the events. Safe. -/
  | notEnabled (mnemonic : String)
  deriving DecidableEq, Repr

/-- A Yelm queue at reset (R361, R373). -/
def Yelm.reset (die : Nat) : Yelm :=
  { queue := [], frees := [], part := none, steps := [], discard := 0, noStep := 0, server := die, qsel := die, user := false
    home := die, readErr := false, failed := false, scratch := [], rv := { x := Vector.replicate 32 0, pc := 0, resv := none } }

/-- A die at reset (R304, R327, R374). -/
def Die.reset (die : Nat) : Die :=
  { b := 300, d := 48, winUnits := 0, queue := [], charge := 0, throttleAt := 95, temp := 0, throttling := false, shut := false
    spareCores := 4, spareSlices := 8, fences := [], markers := [], yelm := Yelm.reset die }

/-- A port at reset (R373): down, every table entry invalid. -/
def Port.reset : Port :=
  { mode := 0, lanes := 4, spare := true, corr := [0, 0, 0, 0], flits := 0, thresh := 4096, keys := [], shares := [], sources := []
    fenced := [], counts := [], outq := [], inq := [], deficit := [] }

/-- An empty command block. -/
def Command.none : Command :=
  { port := 0, opc := 0, status := 0, part := 0, rsv := 0, seq := 0, a := Vector.replicate 7 0, data := [] }

/-- The ready report (R373): KIND 0, DIE 0, UNIT 256 placeable cores, LEFT 16 spares, PART 255, at PCC 0. -/
def readyReport : BitVec 128 := 0x010010FF

/-- The package right after bring-up (R373). -/
def State.reset : State :=
  { powered := true, pcc := 0, cores := Vector.replicate 256 Core.idle
    clusters := Vector.replicate 64 { banks := Vector.replicate 64 Bank.cache, sram := [], tlb := [] }, kmodes := []
    dies := #v[Die.reset 0, Die.reset 1, Die.reset 2, Die.reset 3]
    mem := [], tags := [], cmpLines := [], l2 := [], errs := [], errCount := { single := 0, double := 0 }
    reserve := Vector.replicate 16 true, parts := Vector.replicate 16 none, images := [], graphs := [], saved := [], plans := [], copies := []
    unoon := { active := 0, down := Vector.replicate 2 none, seq := 0, kept := [], await := none, pendq := [], again := false
               sent := [{ opc := 0xFF, status := 0, part := 0, seq := 0
                          a := (Vector.replicate 7 0).set 0 (readyReport.extractLsb' 0 64), data := [] }] }
    reports := [readyReport], reportCount := 1
    ports := Vector.replicate 48 Port.reset, outKeys := [], accNum := 0, domain := 0, routes := [], trees := [], streams := [], link := []
    rounds := [], sends := [], sync := [], news := [], oldRels := [], remote := [], bounced := [], asks := [], partials := [], ridgeDie := 0, winAt := 0, heavyAt := 0, agedAt := 0, cmd := Command.none, cur := 0, serial := 0, inputs := [] }

end Sys2Proof.Machine
end

