-- ==== Sys2Proof/Machine/Base.lean ====
section
/-! DEFINITION. Reading and writing the parts of the state: vectors, memory in canonical form, cores, clusters, dies, home
bytes by key, register names through rotation (R39 to R42), the reads of R22. -/

namespace Sys2Proof.Machine

/-- Element `i` of a vector, or `d` outside it. -/
def vget {α : Type} {n : Nat} (v : Vector α n) (i : Nat) (d : α) : α := v[i]?.getD d

/-- The vector with element `i` replaced; unchanged outside it. -/
def vset {α : Type} {n : Nat} (v : Vector α n) (i : Nat) (x : α) : Vector α n := v.setIfInBounds i x

/-- Bits hi:lo of a word as a number. -/
def fld {w : Nat} (x : BitVec w) (hi lo : Nat) : Nat := (x.toNat >>> lo) % 2 ^ (hi + 1 - lo)

/-- Bit k of a word. -/
def bit {w : Nat} (x : BitVec w) (k : Nat) : Bool := x.getLsbD k

/-- A Bool as a number. -/
def b2n (b : Bool) : Nat := if b then 1 else 0

/-- The word of a natural number modulo 2^64. -/
def word (n : Nat) : Word := BitVec.ofNat 64 n

/-- Sign extension to 64 bits. -/
def sx {w : Nat} (x : BitVec w) : Word := x.signExtend 64

/-- Zero extension to 64 bits. -/
def zx {w : Nat} (x : BitVec w) : Word := x.setWidth 64

/-! ### Memory -/

/-- The byte at an address; an unlisted address reads 0 (log entry 3). -/
def Memory.get : Memory → Nat → Byte
  | [], _ => 0
  | (k, v) :: r, a => if a = k then v else Memory.get r a

/-- Writes one byte and keeps the canonical form. -/
def Memory.set : Memory → Nat → Byte → Memory
  | [], a, x => if x = 0 then [] else [(a, x)]
  | (k, v) :: r, a, x =>
    if a < k then (if x = 0 then (k, v) :: r else (a, x) :: (k, v) :: r)
    else if a = k then (if x = 0 then r else (a, x) :: r)
    else (k, v) :: Memory.set r a x

/-- Every address of the list is above `lo`. -/
def Memory.above : Memory → Nat → Bool
  | [], _ => true
  | (k, v) :: r, lo => decide (lo ≤ k) && v != 0 && Memory.above r (k + 1)

/-- The canonical form: addresses strictly rising, no listed byte 0. -/
def Memory.wf (m : Memory) : Bool := Memory.above m 0

/-- `n` bytes from `a`, lowest address first. -/
def Memory.readBytes (m : Memory) (a n : Nat) : List Byte := (List.range n).map fun i => m.get (a + i)

/-- Writes bytes from `a` upward. -/
def Memory.writeBytes (m : Memory) (a : Nat) : List Byte → Memory
  | [] => m
  | x :: r => (m.set a x).writeBytes (a + 1) r

/-- A little-endian number of bytes (R6). -/
def ofBytes : List Byte → Nat
  | [] => 0
  | x :: r => x.toNat + 256 * ofBytes r

/-- The `n` little-endian bytes of a number (R6). -/
def toBytes (n x : Nat) : List Byte := (List.range n).map fun i => BitVec.ofNat 8 (x >>> (8 * i))

/-- Bytes of a bit vector held as a number, byte j at bits 8j+7:8j. -/
def byteAt {w : Nat} (x : BitVec w) (j : Nat) : Byte := x.extractLsb' (8 * j) 8

/-- Replaces `n` bits of `x` at `lo`. -/
def putBits {w : Nat} (x : BitVec w) (lo n : Nat) (v : Nat) : BitVec w :=
  (x &&& ~~~(BitVec.ofNat w ((2 ^ n - 1) <<< lo))) ||| BitVec.ofNat w ((v % 2 ^ n) <<< lo)

/-! ### Parts of the package -/

/-- A core by logical number. -/
def State.core (s : State) (i : Nat) : Core := vget s.cores i Core.idle
/-- Replaces a core. -/
def State.setCore (s : State) (i : Nat) (c : Core) : State := { s with cores := vset s.cores i c }
/-- Changes a core. -/
def State.modCore (s : State) (i : Nat) (f : Core → Core) : State := s.setCore i (f (s.core i))

/-- Cluster of a core (R2). -/
def clusterOf (core : Nat) : Nat := core / 4
/-- Die of a core (R2). -/
def dieOf (core : Nat) : Nat := core / 64
/-- The partner core of a pair (R2, R16). -/
def partnerOf (core : Nat) : Nat := if (core / 4) % 2 = 0 then core + 4 else core - 4

/-- A cluster with every bank in cache mode. -/
def Cluster.fresh : Cluster := { banks := Vector.replicate 64 Bank.cache, sram := [], tlb := [] }
/-- A cluster by number. -/
def State.cluster (s : State) (k : Nat) : Cluster := vget s.clusters k Cluster.fresh
/-- Replaces a cluster. -/
def State.setCluster (s : State) (k : Nat) (c : Cluster) : State := { s with clusters := vset s.clusters k c }
/-- Changes a cluster. -/
def State.modCluster (s : State) (k : Nat) (f : Cluster → Cluster) : State := s.setCluster k (f (s.cluster k))
/-- A bank of a cluster. -/
def Cluster.bank (c : Cluster) (b : Nat) : Bank := vget c.banks b Bank.cache
/-- Replaces a bank. -/
def Cluster.setBank (c : Cluster) (b : Nat) (x : Bank) : Cluster := { c with banks := vset c.banks b x }

/-- A die by number. -/
def State.die (s : State) (k : Nat) : Die := vget s.dies k (Die.reset k)
/-- Replaces a die. -/
def State.setDie (s : State) (k : Nat) (d : Die) : State := { s with dies := vset s.dies k d }
/-- Changes a die. -/
def State.modDie (s : State) (k : Nat) (f : Die → Die) : State := s.setDie k (f (s.die k))
/-- Changes a die's Yelm processor and queue. -/
def State.modYelm (s : State) (k : Nat) (f : Yelm → Yelm) : State := s.modDie k fun d => { d with yelm := f d.yelm }

/-- A partition. -/
def State.part (s : State) (p : Nat) : Option Partition := vget s.parts p none

/-- A port by number. -/
def State.port (s : State) (p : Nat) : Port := vget s.ports p Port.reset
/-- Changes a port. -/
def State.modPort (s : State) (p : Nat) (f : Port → Port) : State := { s with ports := vset s.ports p (f (s.port p)) }

/-- The value an association list gives a key. -/
def assoc {α : Type} (l : List (Nat × α)) (k : Nat) : Option α := (l.find? fun x => x.1 == k).map (·.2)

/-- Sets the value of a key. -/
def assocSet {α : Type} (l : List (Nat × α)) (k : Nat) (x : α) : List (Nat × α) := (k, x) :: l.filter fun y => y.1 != k

/-- Changes the value of a key where it has one. -/
def assocMod {α : Type} (l : List (Nat × α)) (k : Nat) (f : α → α) : List (Nat × α) :=
  l.map fun y => if y.1 == k then (k, f y.2) else y

/-! ### Home bytes -/

/-- Key of byte `pa` on accelerator `acc`. -/
def remoteKey (acc pa : Nat) : Nat := 2 ^ 52 * (acc + 1) + pa
/-- Key of a scratchpad byte of a cluster. -/
def sramKey (cluster a : Nat) : Nat := 2 ^ 70 + 2 ^ 22 * cluster + a
/-- The key names a scratchpad byte. -/
def isSram (key : Nat) : Bool := decide (2 ^ 70 ≤ key)
/-- The key names a byte on another accelerator. -/
def isRemote (key : Nat) : Bool := decide (2 ^ 52 ≤ key) && decide (key < 2 ^ 70)
/-- The accelerator of a remote key. -/
def keyAcc (key : Nat) : Nat := key / 2 ^ 52 - 1

/-- The byte at its home: home memory or cluster SRAM. A byte on another accelerator is not held here and reads 0; its
value comes with the response. -/
def State.readHome (s : State) (key : Nat) : Byte :=
  if isSram key then (s.cluster ((key - 2 ^ 70) / 2 ^ 22)).sram.get ((key - 2 ^ 70) % 2 ^ 22)
  else if isRemote key then 0 else s.mem.get key

/-- Performs a byte write at its home. A remote byte is performed at its own accelerator. -/
def State.writeHome (s : State) (key : Nat) (x : Byte) : State :=
  if isSram key then
    s.modCluster ((key - 2 ^ 70) / 2 ^ 22) fun c => { c with sram := c.sram.set ((key - 2 ^ 70) % 2 ^ 22) x }
  else if isRemote key then s else { s with mem := s.mem.set key x }

/-- The signed value of an n-bit difference `a - b`. -/
def delta (n a b : Nat) : Int :=
  let d := (a + 2 ^ n - b) % 2 ^ n
  if d < 2 ^ (n - 1) then (d : Int) else (d : Int) - 2 ^ n

/-- The little-endian words of `n` bytes of a line (R186). -/
def lineWords (n : Nat) (l : List Byte) : List Nat := (List.range (128 / n)).map fun i => ofBytes ((l.drop (n * i)).take n)

/-- Every word of the line is word 0 plus a delta of `k` bytes (R186). -/
def deltasFit (n k : Nat) (l : List Byte) : Bool :=
  let ws := lineWords n l
  ws.all fun w => let d := delta (8 * n) w (ws.headD 0); decide (-(2 ^ (8 * k - 1)) ≤ d) && decide (d < 2 ^ (8 * k - 1))

/-- The line's words of `n` bytes are all equal. -/
def wordsEqual (n : Nat) (l : List Byte) : Bool := let ws := lineWords n l; ws.all fun w => w == ws.headD 0

/-- The encoder's tag for a line (R186): fewest sectors, ties to the lower tag. -/
def encodeTag (l : List Byte) : Nat :=
  if l.all (· == 0) then 0
  else if wordsEqual 4 l then 1
  else if wordsEqual 8 l then 2
  else if deltasFit 8 1 l then 3
  else if deltasFit 8 2 l then 4
  else if deltasFit 4 1 l then 5
  else if deltasFit 4 2 l then 6
  else 7

/-- Tag of a line of home memory (R185): 7, raw, unless the tag store names another. -/
def State.tag (s : State) (line : Nat) : Nat := (assoc s.tags line).getD 7

/-- The home slice of the byte's line holds it dirty (R183). -/
def State.l2Has (s : State) (key : Nat) : Bool :=
  s.l2.any fun x => x.line == key / 128 && x.dirty.getLsbD (key % 128)

/-- Reads an `n`-byte number from home memory. -/
def State.readNat (s : State) (pa n : Nat) : Nat := ofBytes (s.mem.readBytes pa n)

/-- `n` bytes of home memory. -/
def State.homeBytes (s : State) (pa n : Nat) : List Byte := s.mem.readBytes pa n

/-! ### Spans -/

/-- A range of bytes cut at 4 KiB pages. -/
def cutRange (r : Nat × Nat) : List (Nat × Nat) :=
  if r.2 = 0 then []
  else
    let first := r.1 / 4096
    (List.range ((r.1 + r.2 - 1) / 4096 + 1 - first)).map fun k =>
      let lo := max r.1 (4096 * (first + k))
      (lo, min (r.1 + r.2) (4096 * (first + k + 1)) - lo)

/-- The pages a range of bytes touches, each with the lowest VA it is touched at; addresses wrap modulo 2^64 (R212). -/
def rangePages (r : Nat × Nat) : List (Nat × Nat) := (cutRange r).map fun p => (p.1 % 2 ^ 64, p.1 / 4096 % 2 ^ 52)

/-- The home of no byte: where a page was not translated. -/
def noKey : Nat := 2 ^ 90

/-- Home key of a VA of the span. -/
def Span.key (sp : Span) (va : Nat) : Nat :=
  match assoc sp.pages (va % 2 ^ 64 / 4096) with | some k => k + va % 4096 | none => noKey

/-- Home keys of every byte of the span, in order. -/
def Span.keys (sp : Span) : List Nat := sp.ranges.flatMap fun r => (List.range r.2).map fun j => sp.key (r.1 + j)

/-- Home keys of the span as ranges (first, one past the last). -/
def Span.keyRanges (sp : Span) : List (Nat × Nat) :=
  sp.ranges.flatMap fun r => (cutRange r).map fun p => (sp.key p.1, sp.key p.1 + p.2)

/-- Two sets of key ranges share a byte. -/
def meets (a b : List (Nat × Nat)) : Bool := a.any fun x => b.any fun y => decide (x.1 < y.2) && decide (y.1 < x.2)

/-! ### Register names (R39 to R42) -/

/-- A rotating region of ROT (R40): base, size, live depth. -/
structure RotRegion where
  base : Nat
  size : Nat
  live : Nat

/-- The scalar region. -/
def rotS (rot : Word) : RotRegion := { base := fld rot 4 0, size := fld rot 10 5, live := fld rot 16 11 }
/-- The vector region. -/
def rotV (rot : Word) : RotRegion := { base := fld rot 21 17, size := fld rot 27 22, live := fld rot 33 28 }
/-- PRB (R40). -/
def rotP (rot : Word) : Nat := fld rot 36 34

/-- Physical number of a name in a file with a rotating region (R41). -/
def RotRegion.phys (g : RotRegion) (n : Nat) : Nat :=
  if 32 ≤ n ∧ n < 32 + g.size then 32 + (n - 32 + g.base) % g.size else n

/-- The physical register is dead: its current name lies at or beyond the live depth (R42). -/
def RotRegion.dead (g : RotRegion) (ph : Nat) : Bool :=
  decide (32 ≤ ph) && decide (ph < 32 + g.size) && decide (g.live ≤ (ph - 32 + g.size - g.base) % g.size)

/-- Physical predicate of a name (R41). -/
def physP (rot : Word) (n : Nat) : Nat := if n < 8 then n else 8 + (n - 8 + rotP rot) % 8

/-- The value a scalar name reads (R39, R42). -/
def Regs.readS (r : Regs) (n : Nat) : Word :=
  let ph := (rotS r.rot).phys n
  if ph = 0 || (rotS r.rot).dead ph then 0 else vget r.s ph 0

/-- The value a vector name reads (R42). -/
def Regs.readV (r : Regs) (n : Nat) : VReg :=
  let ph := (rotV r.rot).phys n
  if (rotV r.rot).dead ph then 0 else vget r.v ph 0

/-- The value a predicate name reads; p0 is true (R38). -/
def Regs.readP (r : Regs) (n : Nat) : Bool :=
  let ph := physP r.rot n
  if ph = 0 then true else vget r.p ph false

/-- The value a mask reads; m0 is all ones (R38). -/
def Regs.readM (r : Regs) (n : Nat) : Word := if n = 0 then BitVec.allOnes 64 else vget r.m n 0

/-- The value of a branch-target register. -/
def Regs.readB (r : Regs) (n : Nat) : BitVec 32 := vget r.b n 0

/-- The type word of a tile register. -/
def Regs.readTy (r : Regs) (n : Nat) : TypeWord := vget r.ty n 0

/-- The data of a tile register. -/
def Regs.readT (r : Regs) (n : Nat) : TileData := vget r.t n 0

/-- Sets ROT; registers that are dead under the new value lose their values (R42). -/
def Regs.setRot (r : Regs) (rot : Word) : Regs :=
  { r with
    rot := rot
    s := r.s.mapIdx fun i x => if (rotS rot).dead i then 0 else x
    v := r.v.mapIdx fun i x => if (rotV rot).dead i then 0 else x }

/-- The values ROT may hold (R40). -/
def rotOk (rot : Word) : Bool :=
  let g := rotS rot
  let h := rotV rot
  decide (rot.toNat < 2 ^ 37) && decide (g.size ≤ 32) && decide (g.live ≤ g.size) &&
  (if g.size = 0 then g.base == 0 else decide (g.base < g.size)) &&
  decide (h.size ≤ 32) && decide (h.live ≤ h.size) &&
  (if h.size = 0 then h.base == 0 else decide (h.base < h.size))

/-- Bits of ROT after one `swp` (R133): each base of a region of size above 0 falls by one, modulo the size; PRB falls by
one, modulo 8. -/
def swpRot (rot : Word) : Word :=
  let g := rotS rot
  let h := rotV rot
  let x := if g.size = 0 then rot else putBits rot 0 5 ((g.base + g.size - 1) % g.size)
  let y := if h.size = 0 then x else putBits x 17 5 ((h.base + h.size - 1) % h.size)
  putBits y 34 3 ((rotP rot + 7) % 8)

/-- Inserts by key, keeping earlier elements of equal key first. -/
def insertBy {α : Type} (key : α → Nat) (x : α) : List α → List α
  | [] => [x]
  | y :: r => if key x ≤ key y then x :: y :: r else y :: insertBy key x r

/-- Sorts by key, keeping the order of equal keys. -/
def sortBy {α : Type} (key : α → Nat) : List α → List α
  | [] => []
  | x :: r => insertBy (fun y => key y) x (sortBy key r)

end Sys2Proof.Machine
end

