-- ==== Sys2Proof/Machine/Operands.lean ====
section
/-! DEFINITION. Typed operands: tile type words (R45 to R50), unification (R51, R52) with its syndromes (R54 to R56), tile storage
(R48, R49), pattern sparsity (R75), window descriptors and boxes (R58 to R60). -/

namespace Sys2Proof.Machine

/-- The dimension variables. -/
abbrev Dims := Vector (Option (BitVec 32)) 16

/-! ### Fields of a type word (R45) -/

/-- VALID. -/
def tyValid (t : TypeWord) : Bool := bit t 127
/-- RANK, one less than the rank. -/
def tyRank (t : TypeWord) : Nat := fld t 126 125
/-- FMT. -/
def tyFmt (t : TypeWord) : Nat := fld t 124 120
/-- LAYOUT. -/
def tyLayout (t : TypeWord) : Nat := fld t 119 116
/-- SGEO. -/
def tySgeo (t : TypeWord) : Nat := fld t 115 114
/-- SIDX. -/
def tySidx (t : TypeWord) : Bool := bit t 113
/-- ESC. -/
def tyEsc (t : TypeWord) : Bool := bit t 112
/-- OCNT. -/
def tyOcnt (t : TypeWord) : Nat := fld t 111 105
/-- DENS. -/
def tyDens (t : TypeWord) : Nat := fld t 104 102
/-- SEED. -/
def tySeed (t : TypeWord) : Nat := fld t 101 86
/-- The 16-bit field of extent k (R46). -/
def tyExt (t : TypeWord) (k : Nat) : BitVec 16 := t.extractLsb' (16 * k) 16

/-- A type word from its fields (R45). -/
def mkTy (rank fmt layout sgeo : Nat) (sidx esc : Bool) (ocnt dens seed : Nat) (exts : BitVec 64) : TypeWord :=
  BitVec.ofNat 128
    (1 <<< 127 ||| (rank % 4) <<< 125 ||| (fmt % 32) <<< 120 ||| (layout % 16) <<< 116 ||| (sgeo % 4) <<< 114 |||
     (b2n sidx) <<< 113 ||| (b2n esc) <<< 112 ||| (ocnt % 128) <<< 105 ||| (dens % 8) <<< 102 ||| (seed % 65536) <<< 86) ||| exts.setWidth 128

/-- Bits per element of a format (R47); a codebook weight takes 2. -/
def fmtBits : Nat → Nat
  | 1 => 64 | 2 => 32 | 3 => 16 | 4 => 16 | 5 => 8 | 6 => 8 | 7 => 4 | 8 => 32 | 9 => 16 | 10 => 8 | 11 => 4 | 12 => 2 | _ => 0
/-- The format allows escapes (R47). -/
def fmtEsc (f : Nat) : Bool := [5, 6, 7, 10, 11].contains f
/-- The format allows scale blocks (R47). -/
def fmtScale (f : Nat) : Bool := [5, 6, 7, 10, 11, 12].contains f
/-- The format allows pattern sparsity (R47). -/
def fmtSparse (f : Nat) : Bool := [3, 4, 5, 6, 7, 9, 10, 11].contains f

/-- Length of a scale block (R45); 0 for none. -/
def blockLen (sgeo : Nat) : Nat := if sgeo = 1 then 16 else if sgeo = 2 then 32 else 0

/-- Value of an extent field: its constant, or the value of its variable when bound (R46). -/
def extVal (d : Dims) (x : BitVec 16) : Option Nat :=
  if bit x 15 then (vget d (fld x 3 0) none).map (·.toNat) else some (fld x 11 0)

/-- What a syndrome holds for an extent: its value, or the unbound marker (R56). -/
def extMark (d : Dims) (x : BitVec 16) : Word :=
  match extVal d x with | some v => word v | none => word (2 ^ 63 + fld x 3 0)

/-- The contiguous extent (R48). -/
def contig (rank layout : Nat) : Nat := if layout = 1 then rank - 1 else rank

/-! ### Faults (R54 to R56) -/

/-- A shape fault (code 3) or unresolved-dimension fault (code 4) with its syndromes. -/
structure TyFault where
  code : Nat
  synd0 : Word
  synd1 : Word
  synd2 : Word
  deriving DecidableEq, Repr

/-- Where an operand's word comes from: operand index, REF, tile register, window (R54). -/
structure Origin where
  opnd : Nat
  ref  : Nat
  treg : Nat
  win  : Nat

/-- A tile register as an operand. -/
def tileOpnd (opnd t : Nat) : Origin := { opnd := opnd, ref := 0, treg := t, win := 0 }
/-- A window box as operand A. -/
def boxOpnd (win : Nat) : Origin := { opnd := 0, ref := 1, treg := 0, win := win }

/-- SYND0 of a type fault (R54). -/
def typeSynd (o : Origin) (ext field : Nat) : Word :=
  word ((o.win % 256) <<< 16 ||| o.ref <<< 14 ||| (o.treg % 16) <<< 10 ||| (ext % 4) <<< 8 ||| field <<< 4 ||| o.opnd <<< 2)

/-- A shape fault. -/
def shape (o : Origin) (ext field : Nat) (s1 s2 : Word) : TyFault :=
  { code := 3, synd0 := typeSynd o ext field, synd1 := s1, synd2 := s2 }

/-- An unresolved-dimension fault. -/
def unresolved (o : Origin) (ext : Nat) (s1 s2 : Word) : TyFault :=
  { code := 4, synd0 := typeSynd o ext 2, synd1 := s1, synd2 := s2 }

/-- A Form fault holds the two halves of the word (R56). -/
def formFault (o : Origin) (t : TypeWord) : TyFault := shape o 0 1 (t.extractLsb' 0 64) (t.extractLsb' 64 64)

/-- Typing: tentative bindings, or the first fault (R51). -/
abbrev TyM := StateT Dims (Except TyFault)

/-- A storage fault is charged as for a derived word, to the destination (R56). -/
def atDest {α : Type} (o : Origin) (m : TyM α) : TyM α := fun d =>
  match m d with
  | .error e => .error (if e.code = 3 ∧ fld e.synd0 7 4 = 10 then { e with synd0 := typeSynd o 0 10 } else e)
  | .ok r => .ok r

/-! ### Well-formedness (R50) -/

/-- The requirements of LAYOUT that depend on no extent value (R48, R50). -/
def layoutStatic (t : TypeWord) : Bool :=
  (tyLayout t == 0 || decide (3 ≤ tyLayout t) || decide (1 ≤ tyRank t)) && (tyLayout t != 2 || decide (fmtBits (tyFmt t) ≤ 16))

/-- Conditions 1 and 3 of R50 and the parts of condition 2 that depend on no extent value (R140). -/
def tyBasic (t : TypeWord) : Bool :=
  let r := tyRank t
  let f := tyFmt t
  fld t 85 64 == 0 && decide (1 ≤ f) && decide (f ≤ 12) && decide (tyLayout t ≤ 5) &&
  layoutStatic t &&
  ((List.range 4).all fun k =>
    let x := tyExt t k
    if k ≤ r then
      if bit x 15 then fld x 14 4 == 0 else fld x 14 12 == 0 && decide (1 ≤ fld x 11 0)
    else x == 1)

/-- Conditions of R50 that depend on no extent value. -/
def tyStatic (t : TypeWord) : Bool :=
  let f := tyFmt t
  tyBasic t && tySgeo t != 3 && (tySgeo t == 0 || fmtScale f) && (tySgeo t != 0 || !tySidx t) &&
  (if tyEsc t then fmtEsc f && decide (tyOcnt t ≤ 64) else tyOcnt t == 0) &&
  (tyDens t == 0 || fmtSparse f)

/-- The geometry of a tile: extents resolved and grouped as outer × r1 × r0, with the fields that place elements. -/
structure Geo where
  ext    : List Nat
  rank   : Nat
  outer  : Nat
  r1     : Nat
  r0     : Nat
  fmt    : Nat
  layout : Nat
  sgeo   : Nat
  sidx   : Bool
  esc    : Bool
  ocnt   : Nat
  dens   : Nat
  seed   : Nat
  deriving DecidableEq, Repr

/-- The geometry of a type word with every extent given. -/
def geoOf (t : TypeWord) (ext : List Nat) : Geo :=
  let r := tyRank t
  let e (k : Nat) : Nat := ext[k]?.getD 1
  { ext := ext, rank := r, outer := (ext.take (r - 1)).foldl (· * ·) 1, r1 := if r = 0 then 1 else e (r - 1), r0 := e r
    fmt := tyFmt t, layout := tyLayout t, sgeo := tySgeo t, sidx := tySidx t, esc := tyEsc t, ocnt := tyOcnt t
    dens := tyDens t, seed := tySeed t }

/-- The resolved extents of a type word, if every variable is bound. -/
def tyExts (d : Dims) (t : TypeWord) : Option (List Nat) := (List.range 4).mapM fun k => extVal d (tyExt t k)

/-- Elements of the tile. -/
def Geo.count (g : Geo) : Nat := g.outer * g.r1 * g.r0
/-- Length of a line along the contiguous extent. -/
def Geo.lineLen (g : Geo) : Nat := if g.layout = 1 then g.r1 else g.r0
/-- Lines along the contiguous extent. -/
def Geo.lines (g : Geo) : Nat := if g.layout = 1 then g.outer * g.r0 else g.outer * g.r1
/-- Stored positions of a line (R49). -/
def Geo.storedPerLine (g : Geo) : Nat := if g.dens = 0 then g.lineLen else g.lineLen / 8 * g.dens
/-- Bytes of the data (R49). -/
def Geo.dataBytes (g : Geo) : Nat := (g.lines * g.storedPerLine * fmtBits g.fmt + 7) / 8
/-- Scale blocks. -/
def Geo.blocks (g : Geo) : Nat := if g.sgeo = 0 then 0 else g.lines * (g.lineLen / blockLen g.sgeo)
/-- First byte of the scale indices (R49). -/
def Geo.idxOff (g : Geo) : Nat := (g.dataBytes + 31) / 32 * 32
/-- Bytes of data and scale indices. -/
def Geo.storage (g : Geo) : Nat := if g.sidx then g.idxOff + (g.blocks + 1) / 2 else g.dataBytes
/-- Bytes that data and scale indices may take (R49). -/
def Geo.limit (g : Geo) : Nat := if g.esc then 7680 else 8192
/-- Bytes of a storage row along the innermost extent (R48). -/
def Geo.rowBytes (g : Geo) : Nat :=
  (if g.dens = 0 || g.layout = 1 then g.r0 * fmtBits g.fmt else g.r0 / 8 * g.dens * fmtBits g.fmt) / 8

/-- Requirements of LAYOUT on extents (R48). -/
def Geo.layoutOk (g : Geo) : Bool :=
  let rowBits := if g.dens = 0 then g.r0 * fmtBits g.fmt else g.r0 / 8 * g.dens * fmtBits g.fmt
  if g.layout = 2 then g.r1 % 2 == 0 && rowBits % 16 == 0
  else if g.layout < 3 then true else rowBits % 1024 == 0

/-- The requirements of LAYOUT on extent values (R48, R50), each judged once its extent has a value. -/
def layoutDims (d : Dims) (t : TypeWord) : Bool :=
  let r := tyRank t
  let dens := tyDens t
  let e (k : Nat) : Option Nat := extVal d (tyExt t k)
  let row (n m : Nat) : Bool := (if dens = 0 then n * fmtBits (tyFmt t) else n / 8 * dens * fmtBits (tyFmt t)) % m == 0
  let on0 (f : Nat → Bool) : Bool := match e r with | some n => f n | none => true
  let on1 (f : Nat → Bool) : Bool := match e (r - 1) with | some n => f n | none => true
  (tyLayout t != 2 || (on1 (fun n => n % 2 == 0) && on0 fun n => row n 16)) && (decide (tyLayout t < 3) || on0 fun n => row n 1024)

/-- Conditions of R50 on extent values other than storage, each judged once the extents it depends on have values. -/
def formOk (d : Dims) (t : TypeWord) : Bool :=
  let dens := tyDens t
  let onC (f : Nat → Bool) : Bool := match extVal d (tyExt t (contig (tyRank t) (tyLayout t))) with | some n => f n | none => true
  layoutDims d t &&
  (tySgeo t == 0 || onC fun n => n % blockLen (tySgeo t) == 0) && (dens == 0 || onC fun n => n % 8 == 0) &&
  (tyFmt t != 12 || onC fun n => n % 8 == 0)

/-- R50 on a word, as far as its extents are resolved. -/
def checkForm (o : Origin) (t : TypeWord) : TyM Unit := do
  let d ← get
  if !tyStatic t || !formOk d t then throw (formFault o t)
  match tyExts d t with
  | none => pure ()
  | some e =>
    let g := geoOf t e
    if g.limit < g.storage then throw (shape o 0 10 (word g.limit) (word g.storage))

/-- VALID and well-formedness of one operand (R51 step 2). -/
def checkWord (o : Origin) (t : TypeWord) : TyM Unit := do
  if !tyValid t then throw (shape o 0 0 1 0)
  checkForm o t

/-- Unifies two extents (R52); the fault names the later operand `o` and extent `k`. -/
def unifyExt (o : Origin) (k : Nat) (a b : BitVec 16) : TyM Unit := do
  let d ← get
  match extVal d a, extVal d b with
  | some x, some y => if x = y then pure () else throw (shape o k 2 (word x) (word y))
  | some x, none => set (vset d (fld b 3 0) (some (BitVec.ofNat 32 x)))
  | none, some y => set (vset d (fld a 3 0) (some (BitVec.ofNat 32 y)))
  | none, none => throw (unresolved o k (extMark d a) (extMark d b))

/-- Compares one field for equality. -/
def eqField (o : Origin) (field a b : Nat) : TyM Unit :=
  if a = b then pure () else throw (shape o 0 field (word a) (word b))

/-- Requires one field of one operand to hold a value (R56, last row). -/
def needField (o : Origin) (field want found : Nat) : TyM Unit :=
  if want = found then pure () else throw (shape o 0 field (word want) (word found))

/-- A condition on one field that several values could meet: SYND1 is 0 (R56). -/
def needCond (ok : Bool) (o : Origin) (field found : Nat) : TyM Unit :=
  if ok then pure () else throw (shape o 0 field 0 (word found))

/-- Unifies extent `ka` of one operand with extent `kb` of a later one, and judges again what the binding resolves (R50). -/
def unifyAt (oa : Origin) (a : TypeWord) (ka : Nat) (ob : Origin) (b : TypeWord) (kb : Nat) : TyM Unit := do
  unifyExt ob kb (tyExt a ka) (tyExt b kb)
  checkForm oa a
  checkForm ob b

/-- Every equality of R51 between two words already visited: rank, extents, format, layout, scale geometry, escape,
sparsity; OCNT never. -/
def unifyAll (oa : Origin) (a : TypeWord) (ob : Origin) (b : TypeWord) : TyM Unit := do
  eqField ob 4 (tyRank a) (tyRank b)
  unifyAt oa a 0 ob b 0
  unifyAt oa a 1 ob b 1
  unifyAt oa a 2 ob b 2
  unifyAt oa a 3 ob b 3
  eqField ob 5 (tyFmt a) (tyFmt b)
  eqField ob 6 (tyLayout a) (tyLayout b)
  eqField ob 7 (tySgeo a) (tySgeo b)
  eqField ob 7 (b2n (tySidx a)) (b2n (tySidx b))
  eqField ob 8 (b2n (tyEsc a)) (b2n (tyEsc b))
  eqField ob 9 (tyDens a) (tyDens b)
  if tyDens a ≠ 0 then eqField ob 9 (tySeed a) (tySeed b)

/-- An extent still unbound when the procedure ends (R52). -/
def resolved (o : Origin) (t : TypeWord) : TyM (List Nat) := do
  let d ← get
  match (List.range 4).find? fun k => (extVal d (tyExt t k)).isNone with
  | some k => throw (unresolved o k (extMark d (tyExt t k)) (extMark d (tyExt t k)))
  | none => pure ((tyExts d t).getD [])

/-- Step 5 of R51 on the derived word: Form or Storage, charged to the destination. -/
def checkDerived (o : Origin) (t : TypeWord) : TyM Geo := do
  let e ← resolved o t
  checkForm o t
  pure (geoOf t e)

/-- The geometry of a source once everything is resolved, with its conditions judged again (R50). -/
def geoOfSource (o : Origin) (t : TypeWord) : TyM Geo := do
  let e ← resolved o t
  checkForm o t
  pure (geoOf t e)

/-! ### Pattern sparsity (R75) -/

/-- Swaps two elements of a list. -/
def swapAt (l : List Nat) (i j : Nat) : List Nat := (l.set i (l[j]?.getD 0)).set j (l[i]?.getD 0)

/-- The permutation steps of `pattern_positions`, from i = 7 down to 1. -/
def patternPerm : Nat → Nat → List Nat → List Nat
  | 0, _, l => l
  | i + 1, x, l => patternPerm i (x / (i + 2)) (swapAt l (i + 1) (x % (i + 2)))

/-- Stored positions of a group (R75), ascending. -/
def patternPositions (seed line grp n : Nat) : List Nat :=
  let x := ((seed <<< 16) ^^^ (line <<< 9) ^^^ grp ^^^ 0x9E3779B9) % 2 ^ 32
  let x := if x = 0 then 1 else x
  let x := x ^^^ ((x <<< 13) % 2 ^ 32)
  let x := x ^^^ (x >>> 17)
  let x := x ^^^ ((x <<< 5) % 2 ^ 32)
  let keep := (patternPerm 7 x [0, 1, 2, 3, 4, 5, 6, 7]).take n
  (List.range 8).filter keep.contains

/-! ### Tile storage (R48, R49) -/

/-- Line and position of the element with row-major index `i` (R48). -/
def Geo.place (g : Geo) (i : Nat) : Nat × Nat :=
  if g.layout = 1 then (i / (g.r1 * g.r0) * g.r0 + i % g.r0, i / g.r0 % g.r1) else (i / g.r0, i % g.r0)

/-- Row-major index of a position of a line. -/
def Geo.indexOf (g : Geo) (line pos : Nat) : Nat :=
  if g.layout = 1 then (line / g.r0 * g.r1 + pos) * g.r0 + line % g.r0 else line * g.r0 + pos

/-- Place of a position among the stored positions of its line; none when the pattern does not store it. -/
def Geo.slotOf (g : Geo) (line pos : Nat) : Option Nat :=
  if g.dens = 0 then some pos
  else ((patternPositions g.seed line (pos / 8) g.dens).idxOf? (pos % 8)).map fun k => pos / 8 * g.dens + k

/-- Byte address in storage of linear data byte `x` (R48). -/
def Geo.byteOf (g : Geo) (x : Nat) : Nat :=
  let rb := g.rowBytes
  if g.layout < 2 || rb = 0 then x
  else
    let row := x / rb
    let off := x % rb
    if g.layout = 2 then row / 2 * (2 * rb) + off / 2 * 4 + row % 2 * 2 + off % 2
    else row * rb + off / 128 * 128 + ((off % 128 / 16) ^^^ (row % 2 ^ (g.layout - 2))) * 16 + off % 16

/-- First bit in storage of the element at a line and stored place; for a codebook, of the index that holds it. -/
def Geo.bitOf (g : Geo) (line slot : Nat) : Nat :=
  if g.fmt = 12 then
    let x := (line * (g.lineLen / 8) + slot / 8) * 16
    g.byteOf (x / 8) * 8
  else
    let x := (line * g.storedPerLine + slot) * fmtBits g.fmt
    g.byteOf (x / 8) * 8 + x % 8

/-- Code of an element, or the 16-bit index of a codebook weight. -/
def Geo.code (g : Geo) (data : TileData) (line slot : Nat) : Nat :=
  let w := if g.fmt = 12 then 16 else fmtBits g.fmt
  (data.extractLsb' (g.bitOf line slot) w).toNat

/-- Writes the code of an element into storage held as a number that is 0 there. -/
def Geo.putCode (g : Geo) (data : TileData) (line slot code : Nat) : TileData :=
  let w := if g.fmt = 12 then 16 else fmtBits g.fmt
  data ||| (BitVec.ofNat w code).setWidth 65536 <<< (g.bitOf line slot)

/-- Scale index of a block (R49, R72): 0 when no indices are stored. -/
def Geo.scaleIdx (g : Geo) (data : TileData) (line pos : Nat) : Nat :=
  if g.sidx then
    let n := line * (g.lineLen / blockLen g.sgeo) + pos / blockLen g.sgeo
    (data.extractLsb' (8 * g.idxOff + 4 * n) 4).toNat
  else 0

/-- Entry k of the outlier tail (R49): position and FP32 value. -/
def outlier (data : TileData) (k : Nat) : Nat × BitVec 32 :=
  ((data.extractLsb' (8 * (8184 - 8 * k)) 16).toNat, data.extractLsb' (8 * (8188 - 8 * k)) 32)

/-- An entry of an outlier list: position and FP32 value, its reserved bits 0. -/
def outlierEntry (pos : Nat) (v : BitVec 32) : BitVec 64 := v ++ (0 : BitVec 16) ++ BitVec.ofNat 16 pos

/-- An entry in place k of the outlier tail. -/
def entryBits (k : Nat) (e : BitVec 64) : TileData := e.setWidth 65536 <<< (8 * (8184 - 8 * k))

/-- Position and value in place k of the outlier tail. -/
def outlierBits (k pos : Nat) (v : BitVec 32) : TileData := entryBits k (outlierEntry pos v)

/-- An element of a tile as stored: row-major index, line, position, place, code. -/
structure Elem where
  idx  : Nat
  line : Nat
  pos  : Nat
  slot : Nat
  code : Nat

/-- The stored elements in row-major logical order (R73). -/
def Geo.elems (g : Geo) (data : TileData) : List Elem :=
  (List.range g.count).filterMap fun i =>
    let p := g.place i
    (g.slotOf p.1 p.2).map fun k => { idx := i, line := p.1, pos := p.2, slot := k, code := g.code data p.1 k }

/-- The escape code of a format (R73). -/
def escCode (fmt : Nat) : Nat := if fmt = 7 || fmt = 11 then 8 else if fmt = 10 then 0x80 else 0xFF

/-! ### Windows (R58 to R60) -/

/-- VALID of a window. -/
def winValid (w : WindowWord) : Bool := bit w 63
/-- RANK of a window. -/
def winRank (w : WindowWord) : Nat := fld w 57 56
/-- FMT of a window. -/
def winFmt (w : WindowWord) : Nat := fld w 62 58
/-- LAYOUT given to loaded tiles. -/
def winLayout (w : WindowWord) : Nat := fld w 67 64
/-- SGEO of a window. -/
def winSgeo (w : WindowWord) : Nat := fld w 69 68
/-- SIDX of a window. -/
def winSidx (w : WindowWord) : Bool := bit w 70
/-- ESC of a window. -/
def winEsc (w : WindowWord) : Bool := bit w 71
/-- DENS of a window. -/
def winDens (w : WindowWord) : Nat := fld w 74 72
/-- SEED of a window. -/
def winSeed (w : WindowWord) : Nat := fld w 90 75
/-- CMP: writes carry the compressible attribute. -/
def winCmp (w : WindowWord) : Bool := bit w 91
/-- SYNC: the bound object. -/
def winSync (w : WindowWord) : Nat := fld w 107 92
/-- BASE of a window. -/
def winBase (w : WindowWord) : Nat := fld w 55 0
/-- FULLk. -/
def winFull (w : WindowWord) (k : Nat) : Nat := fld w (151 + 24 * k) (128 + 24 * k)
/-- STRDk for k below 3; the innermost extent is packed. -/
def winStride (w : WindowWord) (k : Nat) : Nat := if k < 3 then fld w (295 + 40 * k) (256 + 40 * k) else 0
/-- BOXk, in the extent encoding of R46. Above the rank, 0 stands for the constant 1: an absent key of `.window` leaves a field 0
(R110), and the spec's own programs leave out the boxes above the rank (log entry 16). -/
def winBox (w : WindowWord) (k : Nat) : BitVec 16 :=
  let f : BitVec 16 := w.extractLsb' (384 + 16 * k) 16
  if winRank w < k ∧ f = 0 then 1 else f
/-- The four box extents. -/
def winBoxes (w : WindowWord) : BitVec 64 := (winBox w 3 ++ winBox w 2) ++ (winBox w 1 ++ winBox w 0)
/-- First byte of the scale-index region (R58). -/
def winSiBase (w : WindowWord) : Int := (winBase w : Int) + (w.extractLsb' 224 32).toInt * 256
/-- First byte of the outlier-list region (R58). -/
def winOlBase (w : WindowWord) : Int := (winBase w : Int) + (w.extractLsb' 480 32).toInt * 256

/-- The box type before clipping (R60). -/
def boxType (w : WindowWord) : TypeWord :=
  mkTy (winRank w) (winFmt w) (winLayout w) (winSgeo w) (winSidx w) (winEsc w) 0 (winDens w) (winSeed w) (winBoxes w)

/-- Clipping of one extent (R60 items 3 to 5); `bind` says whether an unbound variable is bound (a tile access) or faults
(R250). Gives the clipped size and the extent field of the box type. -/
def clipExt (w : WindowWord) (win : Nat) (bind : Bool) (k x : Nat) : TyM (Nat × BitVec 16) := do
  let d ← get
  let f := winBox w k
  let room := winFull w k - x
  if bit f 15 then
    match vget d (fld f 3 0) none with
    | some v =>
      let c := min v.toNat room
      if v.toNat = c then pure (c, f) else throw (shape (boxOpnd win) k 2 (word v.toNat) (word c))
    | none =>
      if bind then do
        set (vset d (fld f 3 0) (some (BitVec.ofNat 32 room)))
        pure (room, f)
      else throw (unresolved (boxOpnd win) k (extMark d f) (extMark d f))
  else
    let c := min (fld f 11 0) room
    pure (c, BitVec.ofNat 16 c)

/-- The box type of a window at an origin, clipped (R60): the type word and its extents. -/
def boxAt (w : WindowWord) (win : Nat) (bind : Bool) (org : List Nat) : TyM (TypeWord × List Nat) := do
  let x (k : Nat) : Nat := org[k]?.getD 0
  match (List.range 4).find? fun k => decide (winFull w k ≤ x k) with
  | some k => throw (shape (boxOpnd win) k 3 (word (winFull w k)) (word (x k)))
  | none =>
    let c := contig (winRank w) (winLayout w)
    let lb := blockLen (winSgeo w)
    if winSgeo w ≠ 0 ∧ x c % lb ≠ 0 then throw (shape (boxOpnd win) c 7 (word lb) (word (x c)))
    if winDens w ≠ 0 ∧ x c % 8 ≠ 0 then throw (shape (boxOpnd win) c 9 8 (word (x c)))
    let e0 ← clipExt w win bind 0 (x 0)
    let e1 ← clipExt w win bind 1 (x 1)
    let e2 ← clipExt w win bind 2 (x 2)
    let e3 ← clipExt w win bind 3 (x 3)
    let f : BitVec 64 := e3.2 ++ e2.2 ++ e1.2 ++ e0.2
    pure (putBits (boxType w) 0 64 f.toNat, [e0.1, e1.1, e2.1, e3.1])

/-- The conditions on a window that R219 check 2 takes: SYND2 of the failure, if any. -/
def windowCheck (w : WindowWord) (org : List Nat) : Option Nat :=
  let bad := if winEsc w || winDens w != 0 then
      (List.range 4).find? fun k =>
        let f := winBox w k
        bit f 15 || ((org[k]?.getD 0) % (max 1 (fld f 11 0)) != 0)
    else none
  match bad with
  | some k => some k
  | none => if winLayout w == 1 && (winDens w != 0 || winFmt w == 12) then some 4 else none

/-- Byte offset along the innermost extent of a window and the bit within it (R220), for coordinate `e` of a dense line or a
packed place of a sparse one. -/
def winOff (fmt e : Nat) : Nat × Nat :=
  if fmt = 12 then (2 * (e / 8), 0)
  else (e * fmtBits fmt / 8, e * fmtBits fmt % 8)

/-- Coordinates of the element with row-major index `i` in a box. -/
def coordsOf (ext : List Nat) (i : Nat) : List Nat :=
  let e (k : Nat) : Nat := max 1 (ext[k]?.getD 1)
  [i / (e 1 * e 2 * e 3), i / (e 2 * e 3) % e 1, i / e 3 % e 2, i % e 3]

/-- VA and bit of an element of the box at `org` (R220). `slot` is the element's place among the stored ones of its line
when the window is sparse; lines run along the innermost extent there. -/
def winElem (w : WindowWord) (org ext : List Nat) (i slot : Nat) : Nat × Nat :=
  let r := winRank w
  let cs := coordsOf ext i
  let full (k : Nat) : Nat := (org[k]?.getD 0) + (cs[k]?.getD 0)
  let outer := (List.range r).foldl (fun a k => a + full k * winStride w k) 0
  let inner := if winDens w = 0 then full r else (org[r]?.getD 0) / 8 * winDens w + slot
  let o := winOff (winFmt w) inner
  ((winBase w + outer + o.1) % 2 ^ 64, o.2)

/-- Nibble number of the scale index of a block of the full tensor (R221). -/
def winNibble (w : WindowWord) (org ext : List Nat) (i : Nat) : Nat :=
  let r := winRank w
  let c := contig r (winLayout w)
  let cs := coordsOf ext i
  let full (k : Nat) : Nat := (org[k]?.getD 0) + (cs[k]?.getD 0)
  let others := (List.range (r + 1)).filter (· != c)
  let line := others.foldl (fun a k => a * winFull w k + full k) 0
  line * (winFull w c / max 1 (blockLen (winSgeo w))) + full c / max 1 (blockLen (winSgeo w))

/-- VA of the outlier slot of the box at `org` (R222). -/
def winSlot (w : WindowWord) (org : List Nat) : Nat :=
  let b (k : Nat) : Nat := max 1 (fld (winBox w k) 11 0)
  let q := (List.range (winRank w + 1)).foldl
    (fun a k => a * ((winFull w k + b k - 1) / b k) + (org[k]?.getD 0) / b k) 0
  ((winOlBase w + 512 * q) % (2 ^ 64 : Int)).toNat

end Sys2Proof.Machine
end

