-- ==== Sys2Proof/Machine/Boxes.lean ====
section
/-! DEFINITION. The stored items of a box in memory (R219 to R222) and what a tile writes into one (R225). -/

namespace Sys2Proof.Machine

/-- One stored item of a box: where it lies in tile storage (line, place) and in memory (VA, first bit, bits). -/
structure BoxItem where
  line : Nat
  slot : Nat
  va   : Nat
  sub  : Nat
  bits : Nat

/-- The stored elements of a box, in row-major order; of a codebook box, one item for each index, that of the group's
first weight where the origin is no multiple of 8 (log entry 79). -/
def boxItems (w : WindowWord) (box : TypeWord) (ext org : List Nat) : List BoxItem :=
  let g := geoOf box ext
  (List.range g.count).filterMap fun i =>
    let p := g.place i
    match g.slotOf p.1 p.2 with
    | none => none
    | some k =>
      if g.fmt = 12 ∧ p.2 % 8 ≠ 0 then none
      else
        let a := winElem w org ext i k
        some { line := p.1, slot := k, va := a.1, sub := a.2, bits := if g.fmt = 12 then 16 else fmtBits g.fmt }

/-- The scale nibbles of a box: number in tile storage, VA, first bit (R221). -/
def boxScales (w : WindowWord) (box : TypeWord) (ext org : List Nat) : List (Nat × Nat × Nat) :=
  let g := geoOf box ext
  if !g.sidx then []
  else
    let lb := blockLen g.sgeo
    let per := g.lineLen / lb
    (List.range g.blocks).map fun n =>
      let nib := winNibble w org ext (g.indexOf (n / per) (n % per * lb))
      (n, ((winSiBase w + (nib / 2 : Nat)) % (2 ^ 64 : Int)).toNat, 4 * (nib % 2))

/-- The 1,024-byte piece of a tile image in which an item lies. -/
def BoxItem.piece (g : Geo) (e : BoxItem) : Nat := g.bitOf e.line e.slot / 8192

/-- The stored elements of piece k of a box's image (log entry 80). -/
def pieceItems (w : WindowWord) (box : TypeWord) (ext org : List Nat) (k : Nat) : List BoxItem :=
  let g := geoOf box ext
  (boxItems w box ext org).filter fun e => e.piece g == k

/-- The scale nibbles of piece k of a box's image. -/
def pieceScales (w : WindowWord) (box : TypeWord) (ext org : List Nat) (k : Nat) : List (Nat × Nat × Nat) :=
  let g := geoOf box ext
  (boxScales w box ext org).filter fun n => (2 * g.idxOff + n.1) / 2048 == k

/-- Bytes with written bits of one item of a box: (VA, value, mask). -/
def itemBytes (va sub bits code : Nat) : List (Nat × Byte × Byte) :=
  (List.range ((bits + sub + 7) / 8)).map fun j =>
    ((va + j) % 2 ^ 64, BitVec.ofNat 8 ((code <<< sub) >>> (8 * j)), BitVec.ofNat 8 (((2 ^ bits - 1) <<< sub) >>> (8 * j)))

/-- What items, scale nibbles and `ocnt` outlier entries of a tile write into a box of memory (R225): (VA, value, mask) in order, a
later write over an earlier one. -/
def tileWrites (w : WindowWord) (g : Geo) (org : List Nat) (items : List BoxItem) (scales : List (Nat × Nat × Nat)) (data : TileData)
    (ocnt : Nat) : List (Nat × Byte × Byte) :=
  let es := items.flatMap fun e => itemBytes e.va e.sub e.bits (g.code data e.line e.slot)
  let ss := scales.flatMap fun x => itemBytes x.2.1 x.2.2 4 (data.extractLsb' (8 * g.idxOff + 4 * x.1) 4).toNat
  let slot := winSlot w org
  let os := if winEsc w then (List.range ocnt).flatMap fun k =>
      itemBytes ((slot + 8 * k) % 2 ^ 64) 0 64 (data.extractLsb' (8 * (8184 - 8 * k)) 64).toNat else []
  es ++ ss ++ os

/-- What a tile writes into a box of memory (R225). -/
def boxWrites (w : WindowWord) (box : TypeWord) (ext org : List Nat) (data : TileData) (ocnt : Nat) : List (Nat × Byte × Byte) :=
  tileWrites w (geoOf box ext) org (boxItems w box ext org) (boxScales w box ext org) data ocnt

/-- Code of an item of a box. -/
def BoxItem.read (e : BoxItem) (get : Nat → Byte) : Nat :=
  (ofBytes ((List.range ((e.bits + e.sub + 7) / 8)).map fun j => get ((e.va + j) % 2 ^ 64))) >>> e.sub % 2 ^ e.bits

/-- Escape codes among items of a box. -/
def boxEscapes (w : WindowWord) (g : Geo) (items : List BoxItem) (get : Nat → Byte) : Nat :=
  if winEsc w then (items.filter fun e => e.read get == escCode g.fmt).length else 0

/-- Tile data that items, scale nibbles and `n` outlier entries in memory give (R223). -/
def tileOf (w : WindowWord) (g : Geo) (org : List Nat) (items : List BoxItem) (scales : List (Nat × Nat × Nat)) (n : Nat)
    (get : Nat → Byte) : TileData :=
  let data := items.foldl (fun d e => g.putCode d e.line e.slot (e.read get)) (0 : TileData)
  let data := scales.foldl (fun d x => putBits d (8 * g.idxOff + 4 * x.1) 4 ((get x.2.1).toNat >>> x.2.2)) data
  let slot := winSlot w org
  (List.range (min n 64)).foldl (fun d k =>
    putBits d (8 * (8184 - 8 * k)) 64 (ofBytes ((List.range 8).map fun j => get ((slot + 8 * k + j) % 2 ^ 64)))) data

/-- The tile that a box in memory gives (R223): its data, its escape count. -/
def boxTile (w : WindowWord) (box : TypeWord) (ext org : List Nat) (get : Nat → Byte) : TileData × Nat :=
  let g := geoOf box ext
  let items := boxItems w box ext org
  let n := boxEscapes w g items get
  (tileOf w g org items (boxScales w box ext org) n get, n)

/-- Escape codes of a tile image under a type. -/
def imageEscapes (w : WindowWord) (g : Geo) (data : TileData) : Nat :=
  if winEsc w then ((g.elems data).filter fun x => x.code == escCode g.fmt).length else 0

end Sys2Proof.Machine
end

