-- ==== Sys2Proof/Machine/Errors.lean ====
section
/-! DEFINITION. Causes of traps (R308, R309), reports to the control node (R328, R370), single-bit and uncorrectable errors (R189,
R375). -/

namespace Sys2Proof.Machine

/-- A cause of a slot: SYND3 holds the slot (R54). -/
def slotCause (code : Nat) (slot : Slot) (s0 s1 s2 : Word) : Cause :=
  { code := code, synd0 := s0, synd1 := s1, synd2 := s2, synd3 := word slot.code }

/-- A cause of the bundle as a whole: SYND3 is 0 (R309). -/
def bundleCause (code : Nat) (s0 s1 s2 : Word) : Cause := { code := code, synd0 := s0, synd1 := s1, synd2 := s2, synd3 := 0 }

/-- The core's instance serial. -/
def Core.uid (c : Core) : Nat := match c.inst with | some i => i.uid | none => 0

/-- Adds an asynchronous cause to the instance `uid`, wherever it is (R308, R312). -/
def State.postAsync (s : State) (uid : Nat) (k : Cause) : State :=
  let a : Async := { pcc := s.pcc, deferred := false, cause := k }
  { s with
    cores := s.cores.map fun c =>
      if c.inst.isSome && c.uid == uid && c.phase != .retiring then { c with asyncs := c.asyncs ++ [a] } else c
    saved := s.saved.map fun v => if v.inst.uid == uid then { v with core := { v.core with asyncs := v.core.asyncs ++ [a] } } else v }

/-- A response or event leaves on the active Unoon port (R365). -/
def State.emit (s : State) (x : Response) : State := { s with unoon := { s.unoon with sent := s.unoon.sent ++ [x] } }

/-- An unsolicited event (R370): OPC 0xFF, SEQ 0, the report in A0 and A1. -/
def eventBlock (w : BitVec 128) : Response :=
  { opc := 0xFF, status := 0, part := 0, seq := 0, data := []
    a := ((Vector.replicate 7 (0 : Word)).set 0 (w.extractLsb' 0 64)).set 1 (w.extractLsb' 64 64) }

/-- A report of R328 from its fields. -/
def reportWord (pcc kind die unit left part : Nat) : BitVec 128 :=
  BitVec.ofNat 128 (pcc <<< 64 ||| (kind % 256) <<< 40 ||| (die % 16) <<< 32 ||| (unit % 65536) <<< 16 ||| (left % 256) <<< 8
    ||| part % 256)

/-- Sends a repair report, and keeps the newest 1,024 (R328, R368). -/
def State.report (s : State) (kind die unit left part : Nat) : State :=
  let w := reportWord s.pcc kind die unit left part
  { s.emit (eventBlock w) with reports := (w :: s.reports).take 1024, reportCount := s.reportCount + 1 }

/-- The partition that owns a cluster, if any. -/
def State.clusterPart (s : State) (k : Nat) : Option Nat :=
  (List.range 16).find? fun p => match s.part p with | some q => q.clusters.testBit k | none => false

/-- The partition number a report names, 255 for none. -/
def State.partOfCore (s : State) (core : Nat) : Nat := (s.clusterPart (clusterOf core)).getD 255

/-! ### Single-bit and uncorrectable errors (R189, R375) -/

/-- The unit code of an HBM stack charged to a core (R375). -/
def hbmUnit (core stack : Nat) : Nat := core <<< 16 ||| stack <<< 8 ||| 0x12

/-- A single-bit error is corrected, counted and reported (R189, R328). -/
def State.correctOne (s : State) (e : SoftErr) : State :=
  let code := match e.place with | .home _ stack => hbmUnit 0xFFFF stack | .unit c => c.toNat
  let die := match e.place with
    | .home _ stack => stack / 4
    | .unit c =>
      if fld c 31 16 ≠ 0xFFFF then fld c 31 16 / 64 % 4
      else if fld c 7 0 = 0x13 then fld c 15 8 else Config.errorDie s.serial % 4
  let part := match e.place with | .home _ _ => 255 | .unit c => s.partOfCore (fld c 31 16)
  let s := { s with errs := s.errs.erase e, errCount := { s.errCount with single := s.errCount.single + 1 } }
  s.report 11 die (code % 65536) 0 part

/-- A unit code (R375). -/
def unitCode (core idx kind : Nat) : BitVec 32 := BitVec.ofNat 32 (core <<< 16 ||| idx <<< 8 ||| kind)

/-- A report whose layout the spec does not give reaches the control node (log entry 10). -/
def State.openReport (s : State) : State := { s.emit (eventBlock (Config.openReport s.serial)) with serial := s.serial + 1 }

/-- A unit error that is met by reads through memory: of a core's L1 where `l1` says so, of the L2 slice that holds a line which the core reads
(R183), of a cluster bank that a window access reads (R375). `core` is none where no core is concerned. -/
def unitMet (core : Option Nat) (l1 : Bool) (keys : List Nat) (c : BitVec 32) : Bool :=
  let who := fld c 31 16
  let idx := fld c 15 8
  match fld c 7 0 with
  | 0x07 => l1 && core == some who
  | 0x10 => keys.any fun k => decide (sramKey (clusterOf who) (65536 * idx) ≤ k) && decide (k < sramKey (clusterOf who) (65536 * (idx + 1)))
  | 0x11 => who == core.getD 0xFFFF && keys.any fun k => decide (k < 2 ^ 52) && Config.l2Place (k / 128) % 640 % 160 == idx
  | _ => false

/-- The errors that a read of these home bytes meets, on behalf of a core or of none: of HBM, those of bytes that no L2 slice holds dirty. -/
def State.errsBy (s : State) (core : Option Nat) (l1 : Bool) (keys : List Nat) : List SoftErr :=
  if s.errs.isEmpty then []
  else s.errs.filter fun e => match e.place with
    | .home pa _ => keys.any fun k => k / 8 == pa / 8 && !s.l2Has k
    | .unit c => unitMet core l1 keys c

/-- The errors that a read which concerns no core meets. -/
def State.errsAt (s : State) (keys : List Nat) : List SoftErr := s.errsBy none false keys

/-- An uncorrectable error is counted (R368). -/
def State.countDouble (s : State) : State := { s with errCount := { s.errCount with double := s.errCount.double + 1 } }

/-- Corrects the single-bit errors of a list; an uncorrectable one stays and is given, counted. -/
def State.meetErrs (s : State) (es : List SoftErr) : State × Option SoftErr :=
  let s := (es.filter fun e => e.bits == 1).foldl State.correctOne s
  match es.find? fun e => decide (2 ≤ e.bits) with
  | some e => (s.countDouble, some e)
  | none => (s, none)

/-- A read of home bytes that concerns no core. -/
def State.checkRead (s : State) (keys : List Nat) : State × Option SoftErr := s.meetErrs (s.errsAt keys)

/-- A read through core i's L1. -/
def State.checkL1 (s : State) (i : Nat) (keys : List Nat) : State × Option SoftErr := s.meetErrs (s.errsBy (some i) true keys)

/-- The ECC cause of data charged to a core (R309). -/
def eccCause (core : Nat) (e : SoftErr) (va : Nat) : Cause :=
  let code : Word := match e.place with
    | .home _ stack => word (hbmUnit core stack)
    | .unit c => (if fld c 7 0 = 0x10 then unitCode core (fld c 15 8) 0x10 else c).setWidth 64
  bundleCause 0x13 code (word va) 0

/-- Bytes of a line. -/
def lineKeys (line : Nat) : List Nat := (List.range 128).map fun j => 128 * line + j

/-- Bytes of a partial write into a compressed line that an uncorrectable error keeps from being performed (R189). -/
def State.blockedWrites (s : State) (ds : List DirtyByte) : List DirtyByte :=
  if s.errs.isEmpty then []
  else ds.filter fun d =>
    let line := d.key / 128
    let mine := ds.filter fun e => e.key / 128 == line
    let compressed := s.tag line != 7 && !(mine.length == 128 && mine.all fun e => e.mask == 0xFF)
    decide (d.key < 2 ^ 52) && compressed && (s.errsAt (lineKeys line)).any fun e => decide (2 ≤ e.bits)

end Sys2Proof.Machine
end

