-- ==== Sys2Proof/Machine/L2.lean ====
section
/-! DEFINITION. The L2 slices (R183): lines written at their homes and not yet to HBM, their write-back, with the compression tags
(R185, R188) and what write-back meets of errors (R189); writes performed at their homes. -/

namespace Sys2Proof.Machine

/-- The place of a line in L2: its slice, and its set in the slice (R183). -/
def l2Place (line : Nat) : Nat × Nat := (Config.l2Place line % 640, Config.l2Place line / 640 % 256)

/-- The line is written to HBM, encoded or raw (R185). `full` is the attribute of the write that last filled the whole line while its slice
held it, if one did. -/
def State.retag (s : State) (line : Nat) (full : Option Bool) : State :=
  let cmp := match full with | some c => c | none => s.cmpLines.contains line
  let encode := cmp || (full.isNone && s.tag line != 7)
  let t := if encode then encodeTag (s.mem.readBytes (128 * line) 128) else 7
  let rest := s.tags.filter fun x => x.1 != line
  let others := s.cmpLines.filter (· != line)
  { s with
    tags := if t = 7 then rest else (line, t) :: rest
    cmpLines := if cmp then line :: others else others }

/-- The words of HBM whose 8 bytes are all written lose their errors (R189). -/
def State.clearErrs (s : State) (written : Nat → Bool) : State :=
  if s.errs.isEmpty then s
  else { s with errs := s.errs.filter fun e => match e.place with
    | .home pa _ => !((List.range 8).all fun j => written (pa / 8 * 8 + j))
    | .unit _ => true }

/-- A slice writes a line to HBM: its tag follows R185, words written whole lose their errors, and a word written in part is read with what
it holds; an uncorrectable error in it has no consumer, stays, and is a System fault report (R189, log entry 10). -/
def State.l2WriteBack (s : State) (x : L2Line) : State :=
  let s := { s with l2 := s.l2.filter fun y => y.line != x.line }
  let s := (s.clearErrs fun k => k / 128 == x.line && x.dirty.getLsbD (k % 128)).retag x.line x.full
  if s.errs.isEmpty then s
  else
    let r := s.meetErrs (s.errs.filter fun e => match e.place with
      | .home pa _ => (List.range 8).any fun j => let k := pa / 8 * 8 + j; k / 128 == x.line && x.dirty.getLsbD (k % 128)
      | .unit _ => false)
    if r.2.isSome then r.1.openReport else r.1

/-- Room for a line in its slice: where the set holds 16 dirty lines, one of them is written back; which, the spec leaves open (log entry
72). -/
def State.l2Room (s : State) (line : Nat) : State :=
  if s.l2.length < 16 then s
  else
    let set := s.l2.filter fun x => l2Place x.line == l2Place line
    if set.length < 16 then s
    else match set[Config.l2Victim s.serial % set.length]? with
      | some x => { s.l2WriteBack x with serial := s.serial + 1 }
      | none => s

/-- A write into a line at its home slice: its bytes are dirty there, all of them where a compressed line is decoded and merged (R188).
`whole` is the attribute of a write that fills the line. -/
def State.l2Take (s : State) (line : Nat) (bytes : List Nat) (whole : Option Bool) : State :=
  let mask := bytes.foldl (fun m k => m ||| (1 : BitVec 128) <<< (k % 128)) 0
  let mask := if s.tag line = 7 then mask else BitVec.allOnes 128
  match s.l2.find? fun x => x.line == line with
  | some _ =>
    { s with l2 := s.l2.map fun x =>
        if x.line == line then { x with dirty := x.dirty ||| mask, full := if whole.isSome then whole else x.full } else x }
  | none =>
    let s := s.l2Room line
    { s with l2 := { line := line, dirty := mask, full := whole } :: s.l2 }

/-- The lines of home memory among the keys written join their slices' dirty lines; `full` lists the keys whose every bit was written,
with the attribute of the write. A line that writes with and without the attribute fill together takes it only where every byte carries it
(R185; log entry 65). -/
def State.l2TakeAll (s : State) (keys : List Nat) (full : List (Nat × Bool)) : State :=
  let lines := ((keys.filter fun k => !isSram k && !isRemote k).map (· / 128)).eraseDups
  lines.foldl (fun s l =>
    let mine := full.filter fun k => k.1 / 128 == l
    s.l2Take l (mine.map (·.1)) (if 128 ≤ (mine.map (·.1)).eraseDups.length then some (mine.all (·.2)) else none)) s

/-- Every dirty line that satisfies `p` is written to HBM. -/
def State.l2Flush (s : State) (p : L2Line → Bool) : State := (s.l2.filter p).foldl State.l2WriteBack s

/-- Performs byte writes at their homes, in order, as one write with the attribute `cmp` (R185). -/
def State.writeHomes (s : State) (cells : List Host.Cell) (cmp : Bool := false) : State :=
  (cells.foldl (fun s c => s.writeHome c.1 c.2) s).l2TakeAll (cells.map (·.1)) (cells.map fun c => (c.1, cmp))

/-- Writes bytes to home memory from a physical address upward. -/
def State.writeMem (s : State) (pa : Nat) (bytes : List Byte) : State :=
  s.writeHomes (bytes.zipIdx.map fun b => (pa + b.2, b.1))

/-- Writes an `n`-byte number to home memory. -/
def State.writeNat (s : State) (pa n x : Nat) : State := s.writeMem pa (toBytes n x)

end Sys2Proof.Machine
end

