-- ==== Sys2Proof/Machine/Graphs.lean ====
section
/-! DEFINITION. Graph nodes (R290), their edges (R291), and the effective priority of a node (R301). -/

namespace Sys2Proof.Machine

/-- KIND (R290). -/
def ndKind (w : WindowWord) : Nat := fld w 2 0
/-- PRI. -/
def ndPri (w : WindowWord) : Nat := fld w 4 3
/-- NPRED. -/
def ndNpred (w : WindowWord) : Nat := fld w 8 5
/-- IMG. -/
def ndImg (w : WindowWord) : Nat := fld w 20 9
/-- BODY. -/
def ndBody (w : WindowWord) : Nat := fld w 32 21
/-- ADDR. -/
def ndAddr (w : WindowWord) : Nat := fld w 375 320
/-- REC. -/
def ndRec (w : WindowWord) : Nat := fld w 439 384
/-- VAL. -/
def ndVal (w : WindowWord) : Nat := fld w 511 448
/-- The edge word i. -/
def ndEdge (w : WindowWord) (i : Nat) : BitVec 16 := w.extractLsb' (64 + 16 * i) 16
/-- The edges in use: EK and SRC. -/
def ndEdges (w : WindowWord) : List (Nat × Nat) :=
  (List.range (ndNpred w)).map fun i => (fld (ndEdge w i) 15 14, fld (ndEdge w i) 11 0)

/-- The node has completed or was skipped. -/
def NodeState.ended : NodeState → Bool
  | .completed _ | .skipped => true
  | _ => false

/-- An edge is satisfied (R291). -/
def edgeMet (ek : Nat) : NodeState → Bool
  | .completed r => ek == 0 || ek == 3 || (ek == 1 && r) || (ek == 2 && !r)
  | .skipped => ek == 3
  | _ => false

/-- An edge is dead (R291). -/
def edgeDead (ek : Nat) : NodeState → Bool
  | .completed r => (ek == 1 && !r) || (ek == 2 && r)
  | .skipped => ek != 3
  | _ => false

/-- Body nodes of a graph. -/
def bodies (nodes : List Node) : List Nat := (nodes.filter fun n => ndKind n.word == 2).map fun n => ndBody n.word

/-! ### Units not yet dispatched (R302) -/

/-- First instance index not yet dispatched and not killed before dispatch. -/
def Launch.nextUnit (l : Launch) : Nat :=
  (sortBy (·.1) l.dead).foldl (fun f d => if d.1 ≤ f ∧ f < d.2 then d.2 else f) l.next

/-- Every unit of the launch has been dispatched. -/
def State.fullyOut (s : State) (g n : Nat) (l : Launch) : Bool :=
  decide (l.total ≤ l.nextUnit) && l.redo.isEmpty && !(s.saved.any fun v => v.inst.graph == g && v.inst.node == n)

/-! ### Effective priority (R301) -/

/-- Aged priority of a node. -/
def State.aged (s : State) (g n : Nat) (nd : Node) : Nat :=
  let old := min 3 (ndPri nd.word + (s.pcc - nd.since) / 2 ^ 20)
  match nd.state, nd.launch with
  | .ready, _ => old
  | .running, some l => if s.fullyOut g n l then ndPri nd.word else old
  | .running, none => if ndKind nd.word = 2 then old else ndPri nd.word
  | _, _ => ndPri nd.word

/-- Effective priorities of the nodes from index `k` upward, given those of the nodes above them: a node takes the highest of
its own aged priority and of the nodes that wait on it. -/
def State.effs (s : State) (g : Nat) (nodes : List Node) : List Nat :=
  (List.range nodes.length).reverse.foldl (fun es k =>
    match nodes[k]? with
    | none => es
    | some nd =>
      let above := (nodes.zipIdx.filter fun m => decide (k < m.2) && !m.1.state.ended && (ndEdges m.1.word).any fun e => e.2 == k).map
        fun m => es[m.2 - k - 1]?.getD 0
      above.foldl max (s.aged g k nd) :: es) []

/-- The nodes of a graph with their effective priorities; a body has its while node's. -/
def State.reprioNodes (s : State) (g : Nat) (nodes : List Node) : List Node :=
  let es := s.effs g nodes
  nodes.mapIdx fun k nd =>
    let own := es[k]?.getD 0
    let e := match nodes.findIdx? fun m => ndKind m.word == 2 && ndBody m.word == k with
      | some w => es[w]?.getD own
      | none => own
    { nd with eff := e }

/-- Effective priorities are recomputed (R301). -/
def State.reprio (s : State) : State :=
  { s with graphs := s.graphs.map fun g => (g.1, { g.2 with nodes := s.reprioNodes g.1 g.2.nodes }) }

end Sys2Proof.Machine
end

