-- ==== Sys2Proof/Machine/Contain.lean ====
section
/-! DEFINITION. Leaving a core: banks returning to cache (R180), L1 write-back, kills of groups (R322, R325), retirement
once L, S and T are zero (R19), relaunch (R324), and the reports of R328. -/

namespace Sys2Proof.Machine

/-! ### The cut (R11 to R13) -/

/-- Instances in a level-L group: the product of the counts below L (R13). -/
def Header.groupSize (h : Header) (l : Nat) : Nat := (h.counts.take l).foldl (· * ·) 1

/-- Instances of the launch (R11). -/
def Header.total (h : Header) : Nat := h.groupSize h.nf

/-- The level byte of level L (R296). -/
def Header.lvl (h : Header) (l : Nat) : BitVec 8 := h.levels[l]?.getD 0
/-- POLICY of a level. -/
def Header.policy (h : Header) (l : Nat) : Nat := fld (h.lvl l) 7 6
/-- RESTART of a level. -/
def Header.restart (h : Header) (l : Nat) : Bool := bit (h.lvl l) 5
/-- PLACE of a level. -/
def Header.place (h : Header) (l : Nat) : Nat := fld (h.lvl l) 4 2
/-- PAIR of a level. -/
def Header.pair (h : Header) (l : Nat) : Bool := bit (h.lvl l) 1
/-- GANG of a level. -/
def Header.gang (h : Header) (l : Nat) : Bool := bit (h.lvl l) 0

/-- The paired level, if one is marked (R16). -/
def Header.pairLevel (h : Header) : Option Nat := (List.range (h.nf + 1)).find? fun l => 1 ≤ l && h.pair l

/-- Levels whose groups start all-or-none: ganged or paired (R15, R16). -/
def Header.ganged (h : Header) (l : Nat) : Bool := decide (1 ≤ l) && decide (l ≤ h.nf) && (h.gang l || h.pair l)

/-- The outermost ganged level, 0 when none: its groups are the placement units (R300). -/
def Header.unitLevel (h : Header) : Nat := (List.range (h.nf + 1)).foldl (fun m l => if h.ganged l then l else m) 0

/-- Instances in a placement unit. -/
def Header.unitSize (h : Header) : Nat := h.groupSize h.unitLevel

/-- The WID of instance `idx` in ascending WID order: field values are its mixed-radix digits (R11). -/
def widFrom : List Nat → List Nat → Nat → Nat → Nat
  | n :: ns, w :: ws, idx, sh => (idx % n) <<< sh ||| widFrom ns ws (idx / n) (sh + w)
  | _, _, _, _ => 0
/-- The WID of an instance. -/
def Header.wid (h : Header) (idx : Nat) : Word := word (widFrom (h.counts.take h.nf) (h.widths.take h.nf) idx 0)

/-- Two instances of one launch lie in one level-L group (R13). -/
def Header.sameGroup (h : Header) (l a b : Nat) : Bool := a / h.groupSize l == b / h.groupSize l

/-- Index of the partner of an instance of a paired launch (R16). -/
def partnerIdx (idx : Nat) : Nat := if idx % 2 = 0 then idx + 1 else idx - 1

/-! ### Launch records -/

/-- The launch of a node. -/
def State.launch (s : State) (g n : Nat) : Option Launch :=
  match assoc s.graphs g with
  | some gr => match gr.nodes[n]? with | some nd => nd.launch | none => none
  | none => none

/-- Changes a node of a graph. -/
def State.modNode (s : State) (g n : Nat) (f : Node → Node) : State :=
  { s with graphs := assocMod s.graphs g fun gr => { gr with nodes := gr.nodes.mapIdx fun i x => if i = n then f x else x } }

/-- Changes the launch of a node. -/
def State.modLaunch (s : State) (g n : Nat) (f : Launch → Launch) : State :=
  s.modNode g n fun nd => { nd with launch := nd.launch.map f }

/-- The core runs an instance of the launch (graph, node). -/
def Core.runs (c : Core) (g n : Nat) : Bool :=
  match c.inst with | some i => i.graph == g && i.node == n | none => false

/-- The owner of what an instance on core i starts. -/
def Inst.owner (x : Inst) (i : Nat) : Owner :=
  { uid := x.uid, part := x.part, graph := x.graph, node := x.node, idx := x.idx, core := i }

/-- The owner of what core i starts. -/
def Core.owner (c : Core) (i : Nat) : Owner :=
  match c.inst with | some x => x.owner i | none => { uid := 0, part := 0, graph := 0, node := 0, idx := 0, core := i }

/-- The core's instance index. -/
def Core.idx (c : Core) : Nat := match c.inst with | some i => i.idx | none => 0

/-! ### Reads on the core path -/

/-- The clean byte L1 holds at a key. -/
def CoreMem.cleanByte (m : CoreMem) (key : Nat) : Option Byte := (assoc m.clean (key / 32)).map fun l => l.getD (key % 32) 0

/-- The dirty byte L1 holds at a key. -/
def CoreMem.dirtyAt (m : CoreMem) (key : Nat) : Option DirtyByte := m.dirty.find? fun d => d.key == key

/-- A byte with the written bits of a dirty byte over it. -/
def overlay (x : Byte) : Option DirtyByte → Byte
  | some d => (x &&& ~~~d.mask) ||| (d.val &&& d.mask)
  | none => x

/-- The byte a core-path read returns (R181, R204): through L1's dirty bits, from a clean sector if the read may be stale,
else from the home. -/
def State.l1Read (s : State) (i : Nat) (stale : Bool) (key : Nat) : Byte :=
  let m := (s.core i).mem
  let base := if stale then (m.cleanByte key).getD (s.readHome key) else s.readHome key
  overlay base (m.dirtyAt key)

/-- Key ranges of an outstanding load that no value is bound to yet. -/
def openRanges (span : Span) (fwd : List Host.Cell) : List (Nat × Nat) :=
  if fwd.isEmpty then span.keyRanges
  else ((span.keys.filter fun k => !(fwd.any fun c => c.1 == k)).map fun k => (k, k + 1))

/-- Ranges widened to whole aligned units of `u` bytes. -/
def widen (u : Nat) (rs : List (Nat × Nat)) : List (Nat × Nat) := rs.map fun r => (r.1 / u * u, (r.2 + u - 1) / u * u)

/-- The unit in which a load is single-copy atomic (R197): 1 where it is atomic only per byte. -/
def LoadOp.unit (l : LoadOp) : Nat :=
  match l.kind with | .vector _ => 4 | _ => if l.va % l.n = 0 then l.n else 1

/-- Values for the bytes of `rs`, in whole units of `u` bytes, that a load has not bound yet, as they stand now (R197). -/
def State.bindNow (s : State) (i u : Nat) (span : Span) (fwd : List Host.Cell) (rs : List (Nat × Nat)) : List Host.Cell :=
  let rs := widen u rs
  let ks := span.keys.filter fun k => meets [(k, k + 1)] rs && !(fwd.any fun c => c.1 == k) && !isRemote k
  fwd ++ ks.eraseDups.map fun k => (k, s.l1Read i false k)

/-! ### Banks of a leaving instance (R179, R180) -/

/-- The key lies in a bank of a cluster. -/
def inBank (cl b key : Nat) : Bool := decide (sramKey cl (65536 * b) ≤ key) && decide (key < sramKey cl (65536 * (b + 1)))

/-- The span without the pages of a bank. -/
def Span.without (sp : Span) (cl b : Nat) : Span :=
  { sp with pages := sp.pages.map fun p => if inBank cl b p.2 then (p.1, noKey) else p }

/-- Writes the bits of a byte that a mask selects to the byte's home. -/
def State.writeDirty (s : State) (d : DirtyByte) : State :=
  s.writeHome d.key ((s.readHome d.key &&& ~~~d.mask) ||| (d.val &&& d.mask))

/-- New value of an atomic of `w` bits (R217). -/
def amoNew (w op : Nat) (old v : Nat) : Nat :=
  match op with
  | 0 => (old + v) % 2 ^ w
  | 1 => old &&& v
  | 2 => old ||| v
  | 3 => old ^^^ v
  | 4 => if sgnN w v < sgnN w old then v else old
  | 5 => if sgnN w old < sgnN w v then v else old
  | 6 => min old v
  | 7 => max old v
  | _ => v
where
  sgnN (w x : Nat) : Int := if x < 2 ^ (w - 1) then (x : Int) else (x : Int) - 2 ^ w

/-- What an atomic of `n` bytes writes at the home for an old value, if anything (R217, R218). -/
def LoadKind.newValue (n : Nat) (old : Nat) : LoadKind → Option Nat
  | .amo _ op v => some (amoNew (8 * n) op old v.toNat)
  | .cas _ e v => if old = e.toNat then some v.toNat else none
  | _ => none

/-- What a tile store writes (R225), a later write over an earlier one. -/
def TstOp.bytes (t : TstOp) : List DirtyByte :=
  (boxWrites t.desc t.box t.ext t.org t.data t.ocnt).map fun x =>
    { key := t.span.key x.1, val := x.2.1, mask := x.2.2, obj := some (winSync t.desc), ser := t.id, cmp := winCmp t.desc }

/-- The bank's part of a load or atomic is performed now: an atomic writes its new value, and the value read is bound. -/
def State.settleLoad (s : State) (i : Nat) (l : LoadOp) (r : List (Nat × Nat)) : State :=
  let fwd := s.bindNow i l.unit l.span l.fwd r
  let s := s.modCore i fun c =>
    { c with mem := { c.mem with loads := c.mem.loads.map fun x => if x.id = l.id then { x with fwd := fwd } else x } }
  if fwd.length = l.fwd.length then s
  else
    let old := ofBytes (l.span.keys.map fun k => ((fwd.find? fun c => c.1 == k).map (·.2)).getD 0)
    match l.kind.newValue l.n old with
    | some y => (l.span.keys.zip (toBytes l.n y)).foldl (fun s c => s.writeHome c.1 c.2) s
    | none => s

/-- The outstanding accesses of core i that touch a bank, each with its serial number and its performance. -/
def State.bankActs (s : State) (cl b i : Nat) : List (Nat × (State → State)) :=
  let r := [(sramKey cl (65536 * b), sramKey cl (65536 * (b + 1)))]
  let m := (s.core i).mem
  ((m.loads.filter fun l => meets l.span.keyRanges r).map fun l => (l.id, fun s => s.settleLoad i l r)) ++
  ((m.tlds.filter fun l => meets l.span.keyRanges r).map fun l => (l.id, fun s => s.modCore i fun c =>
    { c with mem := { c.mem with
        tlds := c.mem.tlds.map fun x => if x.id = l.id then { x with fwd := s.bindNow i 4 l.span l.fwd r } else x } })) ++
  (m.stores.map fun t => (t.id, fun s => (t.bytes.filter fun d => inBank cl b d.key).foldl State.writeDirty s)) ++
  ((m.tsts.filter fun t => meets t.span.keyRanges r).map fun t =>
    (t.id, fun s => (t.bytes.filter fun d => inBank cl b d.key).foldl State.writeDirty s))

/-- Every window access of the cluster's cores to a bank that passed its check is performed before the bank changes mode
(R179): what L1 holds dirty, then the outstanding ones in the order in which they issued. -/
def State.settleBanks (s : State) (cl b : Nat) : State :=
  let is := (List.range 4).map fun k => 4 * cl + k
  let s := is.foldl (fun s i => ((s.core i).mem.dirty.filter fun d => inBank cl b d.key).foldl State.writeDirty s) s
  let s := is.foldl (fun s i => s.modCore i fun c =>
    { c with mem := { c.mem with dirty := c.mem.dirty.filter fun d => !inBank cl b d.key } }) s
  let s := (sortBy (·.1) (is.flatMap fun i => s.bankActs cl b i)).foldl (fun s a => a.2 s) s
  is.foldl (fun s i => s.modCore i fun c =>
    { c with mem := { c.mem with
        stores := c.mem.stores.map fun t => { t with bytes := t.bytes.filter fun d => !inBank cl b d.key }
        tsts := c.mem.tsts.map fun t => { t with span := t.span.without cl b }
        clean := c.mem.clean.filter fun x => !inBank cl b (32 * x.1) } }) s

/-- A bank returns to cache mode as R179 lays down: contents discarded, READY set by BANK_MODE_READY. -/
def Bank.toCache (pcc : Nat) : Bank := { Bank.cache with ready := false, since := pcc }

/-- What the departure of an instance does to a bank: its scratchpad bank returns to cache mode; a FIFO bank does when its
other party has left too. -/
def Bank.leave (b : Bank) (uid pcc : Nat) : Bank :=
  match b.mode with
  | .cache => b
  | .spad => if b.ownUid = uid then Bank.toCache pcc else b
  | .fifo =>
    let x := { b with prodUid := if b.prodUid = uid then 0 else b.prodUid, consUid := if b.consUid = uid then 0 else b.consUid }
    if x.prodUid = 0 && x.consUid = 0 then Bank.toCache pcc else x

/-- Applies the departure of an instance to its cluster's banks; SRAM bytes of the banks that return read as zero after. -/
def State.banksLeave (s : State) (k uid : Nat) : State :=
  let gone := (List.range 64).filter fun b => ((s.cluster k).bank b).mode == .spad && ((s.cluster k).bank b).ownUid == uid
  let s := gone.foldl (fun s b => s.settleBanks k b) s
  s.modCluster k fun c =>
    { c with
      banks := c.banks.map fun b => b.leave uid s.pcc
      sram := c.sram.filter fun x => !(((c.bank (x.1 / 65536)).mode == .spad) && (c.bank (x.1 / 65536)).ownUid == uid) }

/-- The instance holds scratchpad banks or is a party of a FIFO bank (R180). -/
def Cluster.holdsBanks (c : Cluster) (uid : Nat) : Bool :=
  c.banks.toList.any fun b => match b.mode with
    | .cache => false
    | .spad => b.ownUid == uid
    | .fifo => b.prodUid == uid || b.consUid == uid

/-! ### L1 write-back -/

/-- Performs dirty bytes at their homes (R185, R188). -/
def State.flushBytes (s : State) (ds : List DirtyByte) : State :=
  let s := ds.foldl State.writeDirty s
  let full := ds.filter fun d => d.mask == 0xFF
  s.l2TakeAll (ds.map (·.key)) (full.map fun d => (d.key, d.cmp))

/-- Dirty bytes of core i go to their homes. A partial write into a compressed line that an uncorrectable error blocks is charged to
the instance; an uncorrectable error of L1 itself, and one whose instance has gone, has no consumer and is a System fault report
(R189, log entry 10). -/
def State.sendDirty (s : State) (i : Nat) (ds : List DirtyByte) : State :=
  let bad := s.blockedWrites ds
  let s := match (bad.flatMap fun d => s.errsAt (lineKeys (d.key / 128))).find? fun e => decide (2 ≤ e.bits) with
    | some e =>
      if (s.core i).phase == Phase.retiring then s.countDouble.openReport
      else s.countDouble.postAsync (s.core i).uid (eccCause i e 0)
    | none => s
  let s := if ds.isEmpty then s else
    let r := s.meetErrs (s.errsBy (some i) true [])
    if r.2.isSome then r.1.openReport else r.1
  s.flushBytes (ds.filter fun d => !bad.contains d)

/-- Writes back the whole L1 of a core and empties it (R210). -/
def State.flushL1 (s : State) (i : Nat) : State :=
  (s.sendDirty i (s.core i).mem.dirty).modCore i fun c => { c with mem := { c.mem with dirty := [], clean := [], far := [] } }

/-! ### Retirement and kills -/

/-- The core after its instance has left it: R38's start values; what belongs to the core itself stays, copies already
pushed among it (R19), and the units of its grant, held until GEND (R304). -/
def Core.freed (c : Core) : Core :=
  { Core.idle with
    mem := { (default : CoreMem) with epoch := c.mem.epoch, sent := c.mem.sent }
    drawn := if c.grant.cls.isSome then { c.grant with pend := none } else c.drawn
    ch := c.ch, heavy := c.heavy, wake := c.wake, unplaceable := c.unplaceable, spareDue := c.spareDue, lastCause := c.x.cause }

/-- Receives of an instance still unmatched when it ends are withdrawn with NORECV (R252). -/
def State.withdraw (s : State) (uid : Nat) : State :=
  { s with copies := s.copies.map fun r =>
      if r.e.own.uid = uid ∧ r.e.kind = .get ∧ !r.fin then { r with status := r.status ||| 64, fin := true } else r }

/-- A member of a pair leaves for good: its CAUSE is kept for its partner (R309), and halves supplied to it go; its own stay for
the partner (R326 item 4) unless the group starts again. -/
def State.leavePair (s : State) (inst : Inst) (cause : Word) (again : Bool) : State :=
  if inst.lh.pairLevel.isSome then
    { s with link := s.link.filter fun h =>
        !(h.graph == inst.graph && h.node == inst.node && (h.idx == partnerIdx inst.idx || (again && h.idx == inst.idx))) }.modLaunch
      inst.graph inst.node fun l => { l with left := assocSet l.left inst.idx cause }
  else s

/-- The instance on core i leaves it for good (R19): L1 is written back, banks return, the grant ends, the launch counts
it gone. -/
def State.freeCore (s : State) (i : Nat) : State :=
  let c := s.core i
  match c.inst with
  | none => s
  | some inst =>
    let s := ((s.flushL1 i).banksLeave (clusterOf i) inst.uid).withdraw inst.uid
    let s := { s with oldRels := s.oldRels ++ c.mem.rels.map fun r => (⟨inst.owner i, r⟩ : OldRel) }
    let s := s.modDie (dieOf i) fun d => { d with queue := d.queue.filter fun q => q.core != i }
    ((s.modCore i Core.freed).leavePair inst c.x.cause c.again).modLaunch inst.graph inst.node fun l =>
      if c.again then l else { l with gone := l.gone + 1 }

/-- A retiring instance leaves once L, S and T are zero (R19). -/
def State.retireCheck (s : State) (i : Nat) : State :=
  let c := s.core i
  if c.phase = .retiring ∧ c.cnt.l = 0 ∧ c.cnt.s = 0 ∧ c.cnt.t = 0 then s.freeCore i else s

/-- Discards the results in flight, replay registers and unstarted copies of core i, and lets its instance retire. -/
def State.beginRetire (s : State) (i : Nat) : State :=
  (s.modCore i fun c =>
    { c with phase := .retiring, flight := [], replay := [], reland := false, asyncs := [], preempt := none, hold := none
             stall := none, relIn := [], held := 0, serving := none }).retireCheck i

/-- Kills the instance on core i at once (R325): results in flight, replay registers and unstarted copies are discarded;
started copies run on. -/
def State.killCore (s : State) (i : Nat) : State :=
  match (s.core i).inst with
  | none => s
  | some _ =>
    (s.modCore i fun c =>
      { c with ch := c.ch.map fun h =>
                 { h with queue := h.queue.filter (fun e => e.own.uid != c.uid), spilled := h.spilled.filter fun e => e.own.uid != c.uid }
               cnt := { c.cnt with c := 0 } }).beginRetire i

/-- A saved instance that ends: its banks return (R180) and the launch counts it gone. -/
def State.dropSaved (s : State) (v : Saved) : State :=
  let s := { s with saved := s.saved.filter fun x => x.inst.uid != v.inst.uid }.withdraw v.inst.uid
  let s := match v.cluster with | some k => s.banksLeave k v.inst.uid | none => s
  let s := s.leavePair v.inst v.core.x.cause false
  s.modLaunch v.inst.graph v.inst.node fun l => { l with gone := l.gone + 1 }

/-- Length of the overlap of two ranges. -/
def overlap (a b : Nat × Nat) : Nat := min a.2 b.2 - max a.1 b.1

/-- Marks the undispatched instances of an index range as never to be dispatched; `count` says whether they end. -/
def Launch.killRange (l : Launch) (lo hi : Nat) : Launch :=
  let r := (max lo l.next, hi)
  let fresh := (r.2 - r.1) - (l.dead.map (overlap r)).foldl (· + ·) 0
  let redoIn := l.redo.filter fun f => decide (lo ≤ f.1) && decide (f.1 < hi)
  { l with
    dead := if r.1 < r.2 then r :: l.dead.filter fun d => !(decide (r.1 ≤ d.1) && decide (d.2 ≤ r.2)) else l.dead
    redo := l.redo.filter fun f => !(decide (lo ≤ f.1) && decide (f.1 < hi))
    gone := l.gone + fresh + (redoIn.map (·.2)).foldl (· + ·) 0 }

/-- Kills every instance of the index range `lo` to `hi` of a launch: on cores, saved, and not yet dispatched. -/
def State.killRange (s : State) (g n lo hi : Nat) : State :=
  let inR (i : Nat) : Bool := decide (lo ≤ i) && decide (i < hi)
  let s := (s.saved.filter fun v => v.inst.graph == g && v.inst.node == n && inR v.inst.idx).foldl State.dropSaved s
  let s := (List.range 256).foldl (fun s i => if (s.core i).runs g n && (s.core i).phase != .retiring && inR (s.core i).idx
    then s.killCore i else s) s
  (s.modLaunch g n fun l => l.killRange lo hi).reprio

/-- Kill-self at level L (R322): every instance of the level-L group of `idx` is killed and KILLED is set. -/
def State.killGroup (s : State) (g n l idx : Nat) : State :=
  match s.launch g n with
  | none => s
  | some la =>
    let sz := max 1 (la.lh.groupSize l)
    (s.killRange g n (idx / sz * sz) (idx / sz * sz + sz)).modLaunch g n fun x => { x with killed := true }

/-- Kills a whole launch under kill-self at level F. -/
def State.killLaunch (s : State) (g n : Nat) : State :=
  match s.launch g n with
  | none => s
  | some la => s.killGroup g n la.lh.nf 0

/-! ### Relaunch of a group (R324) -/

/-- Conditions 1 and 2 of R324 for level L; condition 3, a spare core, is `spare`. -/
def relaunchOk (h : Header) (l : Nat) (spare : Bool) : Bool :=
  h.restart l && spare && (List.range (h.nf + 1)).all fun k => decide (k ≤ l) || !(h.gang k || h.pair k)

/-- The ranges without what of them lies in `lo` to `hi`. -/
def outside (lo hi : Nat) (rs : List (Nat × Nat)) : List (Nat × Nat) :=
  rs.flatMap fun d => [(d.1, min d.2 lo), (max d.1 hi, d.2)].filter fun x => decide (x.1 < x.2)

/-- Every member of the level-L group is killed, and the group, members not yet dispatched included, is placed as one new unit from
the kernel's entry (R324). -/
def State.relaunch (s : State) (g n l idx : Nat) : State :=
  match s.launch g n with
  | none => s
  | some la =>
    let sz := max 1 (la.lh.groupSize l)
    let lo := idx / sz * sz
    let hi := lo + sz
    let inR (i : Nat) : Bool := decide (lo ≤ i) && decide (i < hi)
    let onCore := (List.range 256).filter fun i => (s.core i).runs g n && inR (s.core i).idx
    let held := s.saved.filter fun v => v.inst.graph == g && v.inst.node == n && inR v.inst.idx
    let waiting := ((la.redo.filter fun f => inR f.1).map (·.2)).foldl (· + ·) 0
    let late := (max lo la.next, hi)
    let fresh := (late.2 - late.1) - (la.dead.map (overlap late)).foldl (· + ·) 0
    -- members that had ended start again too, so they no longer count as gone
    let ended := sz - (onCore.length + held.length + waiting + fresh)
    let s := onCore.foldl (fun s i => s.modCore i fun c => { c with again := true }) s
    let s := onCore.foldl (fun s i => if (s.core i).phase = .retiring then s else s.killCore i) s
    let s := held.foldl (fun s v => (s.dropSaved v).modLaunch g n fun x => { x with gone := x.gone - 1 }) s
    (s.modLaunch g n fun x =>
      { x with gone := x.gone - ended, next := max x.next hi, dead := outside lo hi x.dead
               redo := sortBy (·.1) ((lo, sz) :: x.redo.filter fun f => !inR f.1) }).reprio

end Sys2Proof.Machine
end

