-- ==== Sys2Proof/Machine/Ops.lean ====
section
/-! DEFINITION. The operations every meaning shares: landings (R22, R83), taking a trap (R311 to R314), the containment ladder
(R322, R323), returning from a trap (R143, R317), and the counts of R315. -/

namespace Sys2Proof.Machine

/-- Every 32-bit lane whose mask bit is 1, as bits of a vector register (R148). -/
def laneMask (m : Word) : VReg :=
  (List.range 64).foldl (fun acc i => if bit m i then acc ||| (BitVec.ofNat 2048 0xFFFFFFFF <<< (32 * i)) else acc) 0

/-- The type word with OCNT replaced. -/
def setOcnt (ty : TypeWord) (n : Nat) : TypeWord := putBits ty 105 7 n

/-- CBASE keeps bits 55:4 (R233). -/
def cbaseMask (x : Word) : Word := x &&& 0x00FFFFFFFFFFFFF0

/-- A landing on the core's registers (R22): dead registers, s0, p0 and m0 take nothing (R39, R42). -/
def Core.land (c : Core) (l : Land) : Core :=
  match l with
  | .s r x => if r = 0 || (rotS c.r.rot).dead r then c else { c with r := { c.r with s := vset c.r.s r x } }
  | .v r x mask =>
    if (rotV c.r.rot).dead r then c
    else { c with r := { c.r with v := vset c.r.v r ((vget c.r.v r 0 &&& ~~~mask) ||| (x &&& mask)) } }
  | .t r x ty => { c with r := { c.r with t := vset c.r.t r x, ty := vset c.r.ty r ty } }
  | .trow r row x mask =>
    let old := c.r.readT r
    let keep := old &&& ~~~(mask.setWidth 65536 <<< (2048 * row))
    { c with r := { c.r with t := vset c.r.t r (keep ||| ((x &&& mask).setWidth 65536 <<< (2048 * row))) } }
  | .ty r x => { c with r := { c.r with ty := vset c.r.ty r x } }
  | .tzero r => { c with r := { c.r with t := vset c.r.t r 0, ty := vset c.r.ty r (setOcnt (c.r.readTy r) 0) } }
  | .p r x => if r = 0 then c else { c with r := { c.r with p := vset c.r.p r x } }
  | .m r x => if r = 0 then c else { c with r := { c.r with m := vset c.r.m r x } }
  | .b r x => { c with r := { c.r with b := vset c.r.b r x } }
  | .pad r x => { c with r := { c.r with pad := vset c.r.pad r x } }
  | .csr n x =>
    if n = 0x20 then { c with e := { c.e with fpflags := x.extractLsb' 0 6 } }
    else if n = 0x21 then { c with e := { c.e with clip := bit x 0 } }
    else if n = 0x40 then { c with cbase := cbaseMask x } else c
  | .cells _ => c
  | .nothing => c

/-- One result in flight takes effect: on the core, or on the banks of its cluster for a V1 commit (R165). -/
def State.landOne (s : State) (i : Nat) (l : Land) : State :=
  match l with
  | .cells xs => s.modCluster (clusterOf i) fun c => { c with sram := xs.foldl (fun m x => m.set x.1 x.2) c.sram }
  | l => s.modCore i fun c => c.land l

/-- The sticky bits a landing ORs in (R83, R275), after the values landing in the same cycle (R310). -/
def Core.sticky (c : Core) (f : Flight) : Core :=
  { c with e := { c.e with fpflags := c.e.fpflags ||| f.flags, clip := c.e.clip || f.clip } }

/-- Results due at or before the core's issue cycle, in landing order; of two due in one cycle the one that lands again after a return is the
last (log entry 78). -/
def Core.due (c : Core) : List Flight := sortBy Flight.due (c.flight.filter fun f => decide (f.due ≤ c.cycle))

/-- A V1 commit (R165), against a register landing. -/
def Land.isCommit : Land → Bool
  | .cells _ => true
  | _ => false

/-- Lands the due results of core i that satisfy `p`. -/
def State.landWhere (s : State) (i : Nat) (p : Land → Bool) : State :=
  let c := s.core i
  let due := c.due.filter fun f => p f.land
  let s := s.modCore i fun c => { c with flight := c.flight.filter fun f => !(decide (f.due ≤ c.cycle) && p f.land) }
  let s := due.foldl (fun s f => s.landOne i f.land) s
  s.modCore i fun c => due.foldl Core.sticky c

/-- Lands every due result of core i (R22, R311 step 1). -/
def State.landDue (s : State) (i : Nat) : State := s.landWhere i fun _ => true

/-- Register a landing writes, as the FILE and NUM of R310; none for system registers, commits and discarded writes. -/
def Land.reg : Land → Option (Nat × Nat)
  | .s r _ => some (0, r)
  | .v r _ _ => some (1, r)
  | .t r _ _ | .trow r _ _ _ | .ty r _ | .tzero r => some (2, r)
  | .p r _ => some (3, r)
  | .m r _ => some (4, r)
  | .b r _ => some (5, r)
  | .pad _ _ | .csr _ _ | .cells _ | .nothing => none

/-- Register identity of R310. -/
def regId (file num : Nat) : Word := word (file * 64 + num)

/-- Replay registers occupied: those held and those landing (R314, R317). -/
def Core.nq (c : Core) : Nat := c.replay.length + (c.flight.filter fun f => f.q.isSome).length

/-- Results in flight, replay registers included (R315). -/
def Core.inFlight (c : Core) : Nat := c.flight.length + c.replay.length

/-- Lowest replay register that is free. -/
def Core.freeQ (c : Core) : Nat :=
  ((List.range 17).find? fun q => !(c.replay.any fun x => x.q == q) && !(c.flight.any fun f => f.q == some q)).getD 16

/-- Moves one result in flight into a replay register (R315). -/
def Core.toReplay (c : Core) (f : Flight) : Core :=
  let q := f.q.getD c.freeQ
  let c := { c with flight := c.flight.erase f }
  { c with replay := c.replay ++ [{ q := q, rem := f.due - c.cycle, hnd := c.x.hnd, land := f.land, flags := f.flags
                                    clip := f.clip, xch := f.xch }] }

/-- Moves every result in flight into replay registers (R311 step 3, R319). -/
def Core.saveFlights (c : Core) : Core := c.flight.foldl Core.toReplay c

/-- The replay registers that land from the issue of the bundle that comes to issue (R317): those with HND 1 while a handler
runs, all of them otherwise. -/
def Core.relands (c : Core) : List Replay := if c.reland then c.replay.filter fun x => x.hnd || !c.x.hnd else []

/-- Re-lands those replay registers (R317). -/
def Core.relandNow (c : Core) : Core :=
  if c.reland then
    { c with
      reland := false
      replay := c.replay.filter fun x => !(x.hnd || !c.x.hnd)
      flight := c.flight ++ c.relands.map fun x =>
        { due := c.cycle + x.rem, land := x.land, flags := x.flags, clip := x.clip, xch := x.xch, q := some x.q } }
  else c

/-- The descriptor of a replay register (R315). A result whose destination R310 codes no register for has DEST 0 (log entry 53). -/
def Replay.descriptor (x : Replay) : Word :=
  let commit := x.land.isCommit
  let dest := match x.land.reg with | some (f, n) => f * 64 + n | none => 0
  let spa := match x.land with
    | .cells (c :: cs) => cs.foldl (fun m y => min m (y.1 % 2 ^ 22)) (c.1 % 2 ^ 22)
    | _ => 0
  word (2 ^ 63 + (if x.xch then 2 else b2n commit) * 2 ^ 61 + b2n x.hnd * 2 ^ 53 + x.flags.toNat * 2 ^ 47 + (x.rem % 64) * 2 ^ 41
    + dest * 2 ^ 32 + spa)

/-- The supervisor register that shows replay register `q` (R329): its descriptor, 0 when it is free. -/
def Core.qReg (c : Core) (q : Nat) : Word := match c.replay.find? fun x => x.q == q with | some x => x.descriptor | none => 0

/-- Fall-through of the code at a position (R89); one that is no legal code takes one position (log entry 77). -/
def fallOf (stream : List (BitVec 16)) (pos : Nat) : Nat := if stream[pos]? = some 0xFFFF then pos + 25 else pos + 1

/-- Return from a trap (R143, R314, R317): HND falls; the bundle at TRAPPC issues again, or with `skip` the one at its
fall-through; replay registers land from its issue. -/
def Core.tretTo (c : Core) (skip : Bool) : Core :=
  let pc := c.x.trappc.toNat
  { c with
    x := { c.x with hnd := false }
    phase := .run
    pos := if skip then fallOf c.stream pc else pc
    reland := true
    relIn := if skip then [] else c.relIn.filter fun r => !r.1 }

/-- The trapping bundle issues again (R313, R322). -/
def Core.reissue (c : Core) : Core := { c with phase := .run, reland := true }

/-- A system fault (R308). -/
def Cause.sys (k : Cause) : Bool := decide (0x11 ≤ k.code)

/-- CAUSE word (R308). -/
def Cause.word (k : Cause) : Word := Machine.word ((if k.sys then 256 else 0) + k.code)

/-- A cause that retired the physical core: a hard core fault, or an ECC fault in core state (R324, R375). -/
def Cause.hard (k : Cause) : Bool :=
  k.code == 0x15 || (k.code == 0x13 && (decide (fld k.synd0 7 0 ≤ 0x0F) || fld k.synd0 7 0 == 0x14))

/-- A spare core of the die is free to take this core's number (R324 condition 3). -/
def State.spareFor (s : State) (i : Nat) : Bool :=
  let others := (List.range 64).filter fun k => 64 * dieOf i + k != i && (s.core (64 * dieOf i + k)).spareDue
  decide (others.length < (s.die (dieOf i)).spareCores)

/-- The containment ladder from the levels still to be asked (R322); `tries` counts this trap's consecutive occurrences
(R323; log entry 67). -/
def State.ladder (s : State) (i : Nat) (inst : Inst) (k : Cause) (tries : Nat) : List Nat → State
  | [] => s.killGroup inst.graph inst.node inst.lh.nf inst.idx
  | l :: ls =>
    match inst.lh.policy l with
    | 0 => if k.code = 0x14 then s.modCore i Core.reissue else s.modCore i fun c => c.tretTo true
    | 1 =>
      if k.hard then
        if relaunchOk inst.lh l (s.spareFor i) then s.relaunch inst.graph inst.node l inst.idx
        else s.ladder i inst k tries ls
      else if tries ≤ 3 then s.modCore i fun c => { c.reissue with x := { c.x with rtry := c.x.rtry + 1 } }
      else s.ladder i inst k tries ls
    | 2 => s.killGroup inst.graph inst.node l inst.idx
    | _ => s.ladder i inst k tries ls

/-- Containment (R322): the fault climbs from level 0. -/
def State.contain (s : State) (i : Nat) (k : Cause) : State :=
  match (s.core i).inst with
  | none => s
  | some inst =>
    s.ladder i inst k (s.core i).x.run (List.range (inst.lh.nf + 1))

/-- The trap is in a row with the last one: at its position, with its CODE, no bundle retired between (R323). -/
def Core.again? (c : Core) (k : Cause) : Bool := c.x.run != 0 && c.x.rtryCode == k.code && c.x.rtryPos == c.pos

/-- CAUSE, SYND0 to SYND3 and TRAPPC of a trap at the core's position (R311 step 4), and its place in a row of traps (R323). -/
def Core.noteTrap (c : Core) (k : Cause) : Core :=
  { c with x := { c.x with cause := k.word, synd0 := k.synd0, synd1 := k.synd1, synd2 := k.synd2, synd3 := k.synd3
                           trappc := Machine.word c.pos, rtryCode := k.code, rtryPos := c.pos
                           run := if c.again? k then c.x.run + 1 else 1
                           rtry := if c.again? k then c.x.rtry else 0 } }

/-- A program trap while a handler runs is raised as a nested trap (R314). -/
def Cause.nest (k : Cause) : Cause :=
  { k with code := 0x17, synd3 := Machine.word (k.code * 256 + fld k.synd3 2 0) }

/-- Entry to the user handler (R313): HND is set, the first handler bundle issues at TVEC in the next issue cycle, so the M
occupancy counts down by one (R263); causes
still pending wait for the handler's return (R312). -/
def Core.enterHandler (c : Core) (tvec : Nat) : Core :=
  { c with
    x := { c.x with hnd := true }
    pos := tvec
    cycle := c.cycle + 1
    e := { c.e with occ := c.e.occ - 1 }
    asyncs := c.asyncs.map fun a => { a with deferred := true } }

/-- What a held `waitge` has judged and read is given up, with a read still on its way (R230). -/
def CoreMem.dropPolls (m : CoreMem) : CoreMem := { m with gate := [], poll := [], loads := m.loads.filter fun l => l.kind != .poll }

/-- The core stops what it was doing for its bundle. -/
def Core.clearWait (c : Core) : Core :=
  { c with hold := none, stall := none, held := 0, mem := { c.mem.dropPolls with want := [], walks := [], walked := [] } }

/-- The half is one that `inst` has supplied in exchange k. -/
def XchHalf.isOf (h : XchHalf) (inst : Inst) (idx k : Nat) : Bool :=
  h.graph == inst.graph && h.node == inst.node && h.idx == idx && h.num == k

/-- The half of exchange `num` that the instance on core i has supplied. -/
def State.ownHalf (s : State) (i num : Nat) : Option XchHalf :=
  match (s.core i).inst with
  | some x => s.link.find? fun h => h.isOf x x.idx num
  | none => none

/-- The half that this core has supplied is withdrawn, unless the partner's bundle has met it (R281, R326). -/
def State.withdrawHalf (s : State) (i : Nat) : State :=
  match (s.core i).inst with
  | none => s
  | some inst => { s with link := s.link.filter fun h => !(h.isOf inst inst.idx (s.core i).e.xnum && !h.taken) }

/-- The first exchange whose half the instance on core i has not supplied. -/
def State.nextHalf (s : State) (i : Nat) : Nat :=
  if (s.ownHalf i (s.core i).e.xnum).isSome then (s.core i).e.xnum + 1 else (s.core i).e.xnum

/-- A hard fault is taken: the halves that the instance has yet to supply fail its partner (R326 item 3). -/
def State.noteBroke (s : State) (i : Nat) (k : Cause) : State :=
  if k.code = 0x15 then s.modCore i fun c => { c with broke := some (c.broke.getD (s.nextHalf i)) } else s

/-- The translation covers the VA. -/
def Trans.covers (t : Trans) (va : Nat) : Bool := decide (t.va ≤ va) && decide (va < t.va + t.size)

/-- After a page fault of this KIND at a VA, for want of W (KIND 1, R193), the cluster's TLBs give up the translation that faulted: they hold only
translations that did not fault (R192). -/
def State.dropFaulted (s : State) (cl va kind : Nat) : State :=
  if kind = 1 then s.modCluster cl fun k => { k with tlb := k.tlb.filter fun t => !t.covers va } else s

/-- TAKES A TRAP on the bundle at core i's position (R311, R313, R314): the results in flight go to replay registers; the
trap registers are written; a program trap goes to the user handler or to containment, a page or spill fault to Ridge, any
other system fault to containment. A pair timeout or partner fault withdraws the half supplied (R281, R326). The caller has
landed what is due. -/
def State.takeTrap (s : State) (i : Nat) (k0 : Cause) : State :=
  let c := s.core i
  let k := if !k0.sys && c.x.hnd then k0.nest else k0
  let s := if k0.code = 0x0E ∨ k0.code = 0x0F then s.withdrawHalf i else s
  let s := s.setCore i { (c.saveFlights.noteTrap k).clearWait with wake := s.pcc + 1 }
  if !k.sys then
    match c.inst with
    | some inst => if inst.lh.tven then s.modCore i fun c => c.enterHandler inst.lh.tvec else s.contain i k
    | none => s
  else if k.code = 0x11 ∨ k.code = 0x12 then
    (if k.code = 0x11 then s.dropFaulted (clusterOf i) k.synd0.toNat (fld k.synd1 3 0) else s).modCore i fun c =>
      { c with phase := .service, serving := some k }
  else (s.noteBroke i k).contain i k

/-- The asynchronous cause to take next: the first to arrive, ties to the lower CODE (R312). -/
def Core.nextAsync (c : Core) : Option Async :=
  (c.asyncs.filter fun a => !(a.deferred && c.x.hnd)).foldl (fun best a =>
    match best with
    | none => some a
    | some b => if a.pcc < b.pcc ∨ (a.pcc = b.pcc ∧ a.cause.code < b.cause.code) then some a else best) none

/-- The write collision of a result that re-lands (R25, R317): with a result of the handler that lands in the same cycle, with
another that re-lands then, with a pending bit, or with an outstanding tile store. It is taken before any slot of the
bundle is judged (log entry 54). -/
def Core.relandClash (c : Core) : Option Cause :=
  c.relands.findSome? fun x => match x.land.reg with
    | none => none
    | some (f, n) =>
      let trap (s1 case : Nat) : Option Cause := some (bundleCause 0x06 (regId f n) (word s1) (word case))
      let pend := match f with | 0 => bit c.pendS n | 1 => bit c.pendV n | 2 => bit c.pendT n | _ => false
      if (c.flight.any fun z => z.land.reg == some (f, n) && z.due == c.cycle + x.rem) ||
         (c.relands.any fun y => y.q != x.q && y.land.reg == some (f, n) && y.rem == x.rem) then trap x.rem 0
      else if pend then trap 0 1
      else if f == 2 && c.mem.tsts.any (fun t => t.tile == n) then trap 0 3
      else none

end Sys2Proof.Machine
end

