-- ==== Sys2Proof/Machine/Issue.lean ====
section
/-! DEFINITION. A bundle comes to issue: its slots are judged in the order of R32, it waits, holds or stalls (R26, R27, R34),
or it retires and all its effects commit together (R31). Every slot operation is a `SlotOp`, judged against the state before
the bundle. -/

namespace Sys2Proof.Machine

/-- A half waiting to be exchanged by an `xch` (R280): the source and the destination tile register, and the source's data and type as
the half carries them. -/
structure PairReq where
  ta   : Nat
  td   : Nat
  data : TileData
  ty   : TypeWord

/-- The effects that the slots of a bundle have gathered so far; none is in the state before the bundle retires. -/
structure Bld where
  /-- Dimension variables as the next slot sees them (R44). -/
  dims   : Vector (Option (BitVec 32)) 16
  lands  : List Flight
  pends  : List (Nat × Nat)
  /-- Registers read and written, for R34. -/
  uses   : List (Nat × Nat)
  rl : Nat
  rs : Nat
  rc : Nat
  rt : Nat
  rr : Nat
  holds  : List HoldKind
  /-- Level of a `bar` in the bundle: a held bundle has reached it whatever else holds it (R20). -/
  bar    : Option Nat
  /-- 4 KiB pages whose translation misses (R27). -/
  miss   : List Nat
  /-- Distinct (bank, row) accesses and further accesses per bank (R166). -/
  rows   : List (Nat × Nat)
  extra  : List (Nat × Nat)
  grant  : Option Nat
  pair   : Option PairReq
  skip   : Option Nat
  tret   : Option Bool
  exit   : Bool
  mOcc   : Option Nat
  fp     : Nat
  /-- Releases to enter when the bundle first comes to issue with no cause (R226). -/
  early  : Option (State → State)
  /-- The entry of the release in C0 (R226). -/
  rel    : Option (State → State)
  /-- What a held `waitge` does while it holds (R230). -/
  pre    : State → State
  post   : State → State

/-- Nothing gathered yet. -/
def Bld.start (c : Core) : Bld :=
  { dims := c.r.d, lands := [], pends := [], uses := [], rl := 0, rs := 0, rc := 0, rt := 0, rr := 0, holds := [], bar := none, miss := []
    rows := [], extra := [], grant := none, pair := none, skip := none, tret := none, exit := false, mOcc := none, fp := 0
    early := none, rel := none, pre := id, post := id }

/-- What a slot is judged against: the state after the landings of its cycle, the issuing core, the bundle's fall-through,
the slot. -/
structure Ctx where
  s    : State
  i    : Nat
  fall : Nat
  slot : Slot

/-- The issuing core before the bundle. -/
def Ctx.c (x : Ctx) : Core := x.s.core x.i
/-- The running instance's header. -/
def Ctx.lh (x : Ctx) : Header := match x.c.inst with | some i => i.lh | none => default

/-- Judging a slot: effects gathered, or the cause that traps; what was read until then is kept (R34). -/
abbrev SlotM := ExceptT Cause (StateM Bld)

/-- Raises a cause of this slot. -/
def Ctx.fail {α : Type} (x : Ctx) (code : Nat) (s0 s1 s2 : Word) : SlotM α := throw (slotCause code x.slot s0 s1 s2)
/-- Raises an illegal-operation trap (R309). -/
def Ctx.illegal {α : Type} (x : Ctx) (s1 s2 : Word) : SlotM α := x.fail 0x02 0 s1 s2
/-- Illegal operation unless the condition holds. -/
def Ctx.need (x : Ctx) (ok : Bool) (s1 s2 : Word) : SlotM Unit := if ok then pure () else x.illegal s1 s2

/-- Notes that the bundle uses a register (R34). -/
def use (file num : Nat) : SlotM Unit := modify fun b => { b with uses := (file, num) :: b.uses }

/-- Early-read check of a physical register (R29). -/
def Ctx.early (x : Ctx) (file num : Nat) : SlotM Unit := do
  let pend := match file with
    | 0 => bit x.c.pendS num
    | 1 => bit x.c.pendV num
    | _ => bit x.c.pendT num
  if pend then x.fail 0x05 (regId file num) 0 0 else use file num

/-- Reads a scalar register by name (R22, R29, R41). -/
def Ctx.rS (x : Ctx) (n : Nat) : SlotM Word := do
  x.early 0 ((rotS x.c.r.rot).phys n)
  pure (x.c.r.readS n)

/-- Reads a vector register by name. -/
def Ctx.rV (x : Ctx) (n : Nat) : SlotM VReg := do
  x.early 1 ((rotV x.c.r.rot).phys n)
  pure (x.c.r.readV n)

/-- Reads the type word of a tile. -/
def Ctx.rTy (x : Ctx) (n : Nat) : SlotM TypeWord := do
  x.early 2 n
  pure (x.c.r.readTy n)

/-- Reads a tile's data. -/
def Ctx.rT (x : Ctx) (n : Nat) : SlotM TileData := do
  x.early 2 n
  pure (x.c.r.readT n)

/-- Reads a predicate by name. -/
def Ctx.rP (x : Ctx) (n : Nat) : SlotM Bool := do
  use 3 (physP x.c.r.rot n)
  pure (x.c.r.readP n)

/-- Reads a mask register. -/
def Ctx.rM (x : Ctx) (n : Nat) : SlotM Word := do
  use 4 n
  pure (x.c.r.readM n)

/-- The write-collision trap (R25, R309). -/
def Ctx.collision {α : Type} (x : Ctx) (file num : Nat) (s1 : Nat) (case : Nat) : SlotM α :=
  x.fail 0x06 (regId file num) (word s1) (word case)

/-- Pending or source of an outstanding `tst` (R25 items 1 and 3). -/
def Ctx.busy (x : Ctx) (b : Bld) (file num : Nat) : Option Nat :=
  let pend := match file with
    | 0 => bit x.c.pendS num
    | 1 => bit x.c.pendV num
    | 2 => bit x.c.pendT num
    | _ => false
  if pend || b.pends.contains (file, num) then some 1
  else if file == 2 && x.c.mem.tsts.any fun t => t.tile == num then some 3 else none

/-- Starts a result that lands at c + max(lat, 1) (R22), with the collision check of R25. -/
def Ctx.land (x : Ctx) (lat : Nat) (l : Land) (flags : BitVec 6 := 0) (clip : Bool := false) (xch : Bool := false) :
    SlotM Unit := do
  let b ← get
  let due := x.c.cycle + max lat 1
  match l.reg with
  | some (f, n) =>
    use f n
    match (x.c.flight ++ b.lands).find? fun z => z.land.reg == some (f, n) && z.due == due with
    | some z => x.collision f n (z.due - x.c.cycle) 0
    | none =>
      match x.busy b f n with
      | some k => x.collision f n 0 k
      | none => pure ()
  | none => pure ()
  modify fun b => { b with lands := b.lands ++ [{ due := due, land := l, flags := flags, clip := clip, xch := xch, q := none }] }

/-- A discarded write keeps only its flags (R39, R83). -/
def Ctx.dropped (x : Ctx) (lat : Nat) (flags : BitVec 6) : SlotM Unit :=
  if flags = 0 then pure () else x.land lat .nothing flags

/-- Lands a scalar result by register name. -/
def Ctx.wS (x : Ctx) (n : Nat) (v : Word) (lat : Nat) (flags : BitVec 6 := 0) : SlotM Unit :=
  let g := rotS x.c.r.rot
  let ph := g.phys n
  if ph = 0 || g.dead ph then x.dropped lat flags else x.land lat (.s ph v) flags

/-- Lands the lanes of a vector result that `mask` selects, bit by bit (R148). -/
def Ctx.wV (x : Ctx) (n : Nat) (v mask : VReg) (lat : Nat) (flags : BitVec 6 := 0) : SlotM Unit :=
  let g := rotV x.c.r.rot
  let ph := g.phys n
  if g.dead ph then x.dropped lat flags else x.land lat (.v ph v mask) flags

/-- Lands a tile with its type word. -/
def Ctx.wT (x : Ctx) (n : Nat) (d : TileData) (ty : TypeWord) (lat : Nat) (flags : BitVec 6 := 0) (clip : Bool := false) :
    SlotM Unit := x.land lat (.t n d ty) flags clip

/-- Lands a predicate by name; p0 takes nothing (R39). -/
def Ctx.wP (x : Ctx) (n : Nat) (v : Bool) (lat : Nat) : SlotM Unit :=
  let ph := physP x.c.r.rot n
  if ph = 0 then pure () else x.land lat (.p ph v)

/-- Lands a mask; m0 takes nothing (R39). -/
def Ctx.wM (x : Ctx) (n : Nat) (v : Word) (lat : Nat) (flags : BitVec 6 := 0) : SlotM Unit :=
  if n = 0 then x.dropped lat flags else x.land lat (.m n v) flags

/-- Starts a variable-latency write: sets the pending bit at retire, with the collision check of R25. Gives the physical
register, or none where the write is discarded. -/
def Ctx.pend (x : Ctx) (file num : Nat) (discard : Bool) : SlotM (Option Nat) := do
  if discard then return none
  use file num
  let b ← get
  match (x.c.flight ++ b.lands).find? fun z => z.land.reg == some (file, num) with
  | some z => x.collision file num (z.due - x.c.cycle) 2
  | none =>
    match x.busy b file num with
    | some k => x.collision file num 0 k
    | none =>
      modify fun b => { b with pends := (file, num) :: b.pends }
      pure (some num)

/-- Pending scalar destination by name. -/
def Ctx.pendS (x : Ctx) (n : Nat) : SlotM (Option Nat) :=
  let g := rotS x.c.r.rot
  let ph := g.phys n
  x.pend 0 ph (ph == 0 || g.dead ph)

/-- Pending vector destination by name. -/
def Ctx.pendV (x : Ctx) (n : Nat) : SlotM (Option Nat) :=
  let g := rotV x.c.r.rot
  let ph := g.phys n
  x.pend 1 ph (g.dead ph)

/-- Runs a typing rule on the dimension variables as this slot sees them (R44, R51). -/
def Ctx.typing {α : Type} (x : Ctx) (m : TyM α) : SlotM α := do
  let b ← get
  match m.run b.dims with
  | .ok (r, d) => do
    set { b with dims := d }
    pure r
  | .error e => x.fail e.code e.synd0 e.synd1 e.synd2

/-- What the core's counters have lost so far in PCC cycle `pcc`. -/
def Core.lost (c : Core) (pcc : Nat) : Drops := if c.drops.at_ = pcc then c.drops else { (default : Drops) with at_ := pcc }

/-- Counter-overflow trap (R28, R227): `val` at issue plus the bundle's raises above the limit. What a counter has lost in
the same PCC cycle is in `val`, since a lowering in that cycle prevents no overflow (R35). -/
def Ctx.overflow (x : Ctx) (which val raise limit : Nat) : SlotM Unit :=
  if limit < val + raise then x.fail 0x09 (word which) (word val) 0 else pure ()

/-- Raises L by one. -/
def Ctx.raiseL (x : Ctx) : SlotM Unit := do
  modify fun b => { b with rl := b.rl + 1 }
  x.overflow 0 (x.c.cnt.l + (x.c.lost x.s.pcc).l) (← get).rl 63
/-- Raises S by one. -/
def Ctx.raiseS (x : Ctx) : SlotM Unit := do
  modify fun b => { b with rs := b.rs + 1 }
  x.overflow 1 (x.c.cnt.s + (x.c.lost x.s.pcc).s) (← get).rs 63
/-- Raises C by one. -/
def Ctx.raiseC (x : Ctx) : SlotM Unit := do
  modify fun b => { b with rc := b.rc + 1 }
  x.overflow 2 (x.c.cnt.c + (x.c.lost x.s.pcc).c) (← get).rc 63
/-- Raises T by one. -/
def Ctx.raiseT (x : Ctx) : SlotM Unit := do
  modify fun b => { b with rt := b.rt + 1 }
  x.overflow 3 (x.c.cnt.t + (x.c.lost x.s.pcc).t) (← get).rt 63
/-- Counts one more outstanding release. -/
def Ctx.raiseR (x : Ctx) : SlotM Unit := do
  modify fun b => { b with rr := b.rr + 1 }
  x.overflow 4 (x.c.mem.rels.length + (x.c.lost x.s.pcc).r) (← get).rr 16

/-- An effect on the package at retire, after those of earlier slots. -/
def atRetire (f : State → State) : SlotM Unit := modify fun b => { b with post := fun s => f (b.post s) }
/-- An effect on the issuing core at retire. -/
def Ctx.coreAtRetire (x : Ctx) (f : Core → Core) : SlotM Unit := atRetire fun s => s.modCore x.i f
/-- The bundle holds (R27). -/
def holdOn (k : HoldKind) : SlotM Unit := modify fun b => { b with holds := b.holds ++ [k] }
/-- The bundle holds unless the condition is met. -/
def holdUnless (ok : Bool) (k : HoldKind) : SlotM Unit := if ok then pure () else holdOn k

/-- An operation of one slot: its prefix, whether its encoding is legal (R101), whether a tree beside it is illegal, and its
judging. -/
structure SlotOp where
  hdr    : Hdr
  wf     : Bool
  noTree : Bool
  run    : Ctx → SlotM Unit

/-- A slot operation of the instruction `i`. -/
def mkOp (i : Instr) (h : Hdr) (run : Ctx → SlotM Unit) (noTree : Bool := false) : SlotOp :=
  { hdr := h, wf := i.wf, noTree := noTree, run := run }

/-- What the sequencer knows of a bundle besides its slots. `code` is an illegal code (R101). -/
structure Head where
  code  : Option Nat
  bad   : Bool
  drain : Bool
  tests : List Test
  fall  : Nat

/-- Evaluates the tree on current predicates (R88): the leaf, with its target and whether it is a call. -/
def evalTree (r : Regs) : List Test → Nat → Option (Nat × Test)
  | [], _ => none
  | t :: ts, k => if r.readP t.pred.toNat != (t.sense == 1) then some (k, t) else evalTree r ts (k + 1)

/-- The path tag lets the slot have effect under the leaf taken (R90). -/
def tagOn (tag leaf : Nat) : Bool := tag == 0 || (decide (tag ≤ 5) && tag == leaf + 1) || (tag == 6 && decide (leaf < 4))

/-- Judges slots in order until one has a cause (R32, R91). An unmet `wait` or `bar` holds the bundle before any later slot issues (R145,
R146; log entry 58). -/
def runSlots (x : Ctx) (leaf ntests : Nat) : List SlotOp → Bld → Bld × Option Cause
  | [], b => (b, none)
  | op :: ops, b =>
    let x := { x with slot := op.hdr.slot }
    if !op.wf || (op.noTree && ntests != 0) then (b, some (slotCause 0x02 op.hdr.slot 0 0 0))
    else
      let b := { b with uses := (3, physP x.c.r.rot op.hdr.guard.toNat) :: b.uses }
      if x.c.r.readP op.hdr.guard.toNat && tagOn op.hdr.tag.toNat leaf then
        match (op.run x).run.run b with
        | (.ok _, b) => if op.hdr.slot = .S ∧ !b.holds.isEmpty then (b, none) else runSlots x leaf ntests ops b
        | (.error k, b) => ({ b with uses := (runSlots x leaf ntests ops b).1.uses }, some k)
      else runSlots x leaf ntests ops b

/-- Extra cycles of bank conflicts (R26, R166): the largest n_b less 1. -/
def Bld.conflict (b : Bld) : Nat :=
  let banks := (b.rows.map (·.1) ++ b.extra.map (·.1)).eraseDups
  (banks.map fun k =>
    (b.rows.eraseDups.filter fun r => r.1 == k).length + ((b.extra.filter fun e => e.1 == k).map (·.2)).foldl (· + ·) 0).foldl max 1 - 1

/-- One issue cycle passes without a bundle: countdowns run (R24, R34). -/
def Core.passCycle (c : Core) : Core := { c with cycle := c.cycle + 1, e := { c.e with occ := c.e.occ - 1 } }

/-- PCC cycles for which the bundle has been held by `wait`, `bar`, `waitge` or `acq`, a hold before a save included (R321; log entry 68). -/
def Core.heldFor (c : Core) (pcc : Nat) : Nat :=
  match c.hold with
  | some (k, t) => if k.watched then c.held + (pcc - t) else c.held
  | none => c.held

/-- The save request is honoured here: the core waits for its save (R33, R319). The bundle stays held until the save is performed
(R321). -/
def Core.beginSave (c : Core) : Core :=
  { c with phase := .saving, stall := none, mem := { c.mem.dropPolls with want := [] } }

/-- What a hold is noted as: a bundle whose `bar` is complete stays at that barrier, whatever else holds it (R20). -/
def holdNote (k : HoldKind) (bar : Option Nat) : HoldKind := match bar with | some l => .bar l | none => k

/-- The bundle is held for this PCC cycle (R27). The watchdog measures from the start of a hold that it watches (R321). -/
def Core.holdCycle (c : Core) (k : HoldKind) (bar : Option Nat) (pcc : Nat) : Core :=
  { c with
    holds := c.holds + 1
    stall := none
    hold := some (holdNote k bar, if !k.watched then pcc + 1 else match c.hold with
      | some (k', t) => if k'.watched then t else pcc
      | none => pcc) }

/-- The core is stalled for this PCC cycle (R26); what held its bundle before is over. -/
def Core.stallCycle (c : Core) (k : StallKind) (bar : Option Nat) (pcc : Nat) : Core :=
  { c with
    stalls := c.stalls + 1
    hold := bar.map fun l => (.bar l, pcc + 1)
    held := 0
    stall := match c.stall with | some (k', t) => some (k, if k' = k then t else pcc) | none => some (k, pcc) }

/-- A grant of the class is in force (R286). -/
def Grant.valid (g : Grant) (cls pcc : Nat) : Bool := g.cls == some cls && decide (pcc < g.gend)

/-- Puts a request at the tail of the die's queue, replacing one that is pending (R285, R305). -/
def State.requestGrant (s : State) (i cls log : Nat) : State :=
  let s := s.modCore i fun c => { c with grant := { c.grant with pend := some (cls, log) } }
  s.modDie (dieOf i) fun d => { d with queue := (d.queue.filter fun q => q.core != i) ++ [{ core := i, pcc := s.pcc }] }

/-- A stalled M operation requests its class with LOG 16 unless such a request is pending (R286). -/
def State.stallRequest (s : State) (i cls : Nat) : State :=
  match (s.core i).grant.pend with
  | some (k, _) => if k = cls then s else s.requestGrant i cls 16
  | none => s.requestGrant i cls 16

end Sys2Proof.Machine
end

