-- ==== Sys2Proof/Machine/Bundle.lean ====
section
/-! DEFINITION. What becomes of a bundle once its slots are judged: waits, holds, stalls (R26, R27, R34), the pair link (R280), the
retire with the next position (R31, R129), and the whole issue of a bundle on one core. -/

namespace Sys2Proof.Machine

/-- Adds register bits to the pending masks of a core (R29). -/
def Core.setPend (c : Core) (r : Nat × Nat) : Core :=
  match r.1 with
  | 0 => { c with pendS := c.pendS ||| ((1 : Word) <<< r.2) }
  | 1 => { c with pendV := c.pendV ||| ((1 : Word) <<< r.2) }
  | _ => { c with pendT := c.pendT ||| ((1 : BitVec 16) <<< r.2) }

/-- Clears a pending bit (R28). -/
def Core.clearPend (c : Core) (r : Nat × Nat) : Core :=
  match r.1 with
  | 0 => { c with pendS := c.pendS &&& ~~~((1 : Word) <<< r.2) }
  | 1 => { c with pendV := c.pendV &&& ~~~((1 : Word) <<< r.2) }
  | _ => { c with pendT := c.pendT &&& ~~~((1 : BitVec 16) <<< r.2) }

/-- Closes loops whose END is the fall-through, innermost first (R129): the stack and the next position. -/
def closeLoops (fall : Nat) : List LoopEntry → List LoopEntry × Nat
  | [] => ([], fall)
  | e :: es =>
    if e.stop.toNat = fall then
      if 1 < e.count.toNat then ({ e with count := e.count - 1 } :: es, e.start.toNat)
      else closeLoops fall es
    else (e :: es, fall)

/-- The next position after a bundle, with the loop stack and the bubbles it costs (R24, R129, R143). R129 has no case for a `tret`, which
leaves the loop stack as it is (log entry 59). -/
def Core.advance (c : Core) (b : Bld) (taken : Option Nat) (fall : Nat) : Core :=
  match taken, b.skip, b.tret with
  | some t, _, _ => { c with pos := t, bubbles := 2 }
  | none, some e, _ => { c with pos := e, bubbles := 2 }
  | none, none, some skip => { c.tretTo skip with bubbles := 2 }
  | none, none, none =>
    let l := closeLoops fall c.r.loops
    { c with pos := l.2, r := { c.r with loops := l.1 } }

/-- The core's own part of a retire (R31): counters, pending bits, results started, bindings. RTRY and the row of traps clear with the
retire of the bundle that trapped (R323). -/
def Core.commit (c : Core) (b : Bld) : Core :=
  let c := b.pends.foldl Core.setPend c
  { c with
    cnt := { l := c.cnt.l + b.rl, s := c.cnt.s + b.rs, c := c.cnt.c + b.rc, t := c.cnt.t + b.rt }
    flight := c.flight ++ b.lands
    r := { c.r with d := b.dims }
    x := if c.x.rtryPos = c.pos then { c.x with rtry := 0, run := 0 } else c.x
    hold := none, stall := none, held := 0
    mem := { c.mem with want := [], walks := [], walked := [], poll := [], gate := [] } }

/-- The core moves past the retired bundle: position, issue cycle, M occupancy (R263), conflict stall (R26), the count of
heavy bundles (R306). -/
def Core.pass (c : Core) (b : Bld) (taken : Option Nat) (fall pcc : Nat) : Core :=
  let relIn := c.relIn.filter (· != (c.x.hnd, c.pos))
  let c := { c with relIn := relIn }.advance b taken fall
  { c with
    cycle := c.cycle + 1
    e := { c.e with occ := match b.mOcc with | some n => n - 1 | none => c.e.occ - 1 }
    wake := pcc + 1
    stallEnd := if b.conflict = 0 then none else some (pcc + 1 + b.conflict)
    stalls := c.stalls + word b.conflict
    heavy := if decide (2 ≤ b.fp) && !(c.grant.cls.isSome && decide (pcc < c.grant.gend)) then c.heavy + 1 else c.heavy }

/-- V1 commits in flight are performed before the core is freed (R170). -/
def State.performCommits (s : State) (i : Nat) : State :=
  (sortBy Flight.due (s.core i).flight).foldl (fun s f =>
    match f.land with | .cells _ => s.landOne i f.land | _ => s) s

/-- The bundle retires: every effect commits together (R31). -/
def State.retire (s : State) (i : Nat) (b : Bld) (taken : Option Nat) (fall : Nat) : State :=
  let s := s.modCore i fun c => c.commit b
  let s := b.post s
  let s := s.modCore i fun c => c.pass b taken fall s.pcc
  if b.exit then (s.performCommits i).beginRetire i else s

/-! ### Pair exchange (R280, R281, R326) -/

/-- The core of the partner instance, where it is: on its core, or as saved (R16, R326). -/
def State.partnerAt (s : State) (i : Nat) : Option Core :=
  match (s.core i).inst with
  | none => none
  | some inst =>
    let p := s.core (partnerOf i)
    if p.runs inst.graph inst.node && p.idx == partnerIdx inst.idx then some p
    else (s.saved.find? fun v => v.inst.graph == inst.graph && v.inst.node == inst.node && v.inst.idx == partnerIdx inst.idx).map (·.core)

/-- The partner instance has not left (R326). -/
def State.partnerHere (s : State) (i : Nat) : Bool := match s.partnerAt i with | some p => p.phase != .retiring | none => false

/-- The partner's half of exchange k, if it has been supplied and neither met nor withdrawn. -/
def State.partnerHalf (s : State) (i k : Nat) : Option XchHalf :=
  match (s.core i).inst with
  | some inst => s.link.find? fun h => h.isOf inst (partnerIdx inst.idx) k && !h.taken
  | none => none

/-- The partner was killed, retired or took a hard fault before it supplied half k (R326 item 3). -/
def State.partnerLost (s : State) (i k : Nat) : Bool :=
  (match s.partnerAt i with | some p => (match p.broke with | some n => decide (n ≤ k) | none => false) | none => false) ||
  ((s.partnerHalf i k).isNone && !s.partnerHere i)

/-- The partner's CAUSE (R309): of the instance where it is, or as it left. -/
def State.partnerCause (s : State) (i : Nat) : Word :=
  match s.partnerAt i, (s.core i).inst with
  | some p, _ => p.x.cause
  | none, some inst =>
    match s.launch inst.graph inst.node with
    | some la => (assoc la.left (partnerIdx inst.idx)).getD (s.core (partnerOf i)).lastCause
    | none => (s.core (partnerOf i)).lastCause
  | none, none => 0

/-- Supplies this core's half, unless it already has (R280). -/
def State.supply (s : State) (i : Nat) (q : PairReq) : State :=
  match (s.core i).inst with
  | none => s
  | some inst =>
    if (s.ownHalf i (s.core i).e.xnum).isSome then s
    else { s with link := s.link ++ [{ graph := inst.graph, node := inst.node, idx := inst.idx, num := (s.core i).e.xnum
                                       data := q.data, ty := q.ty, taken := false }] }

/-- This core's bundle has met the partner's half of exchange k. Once both bundles have met, the two halves leave the link. -/
def State.meetHalf (s : State) (i k : Nat) : State :=
  match (s.core i).inst with
  | none => s
  | some inst =>
    let other (h : XchHalf) : Bool := h.isOf inst (partnerIdx inst.idx) k
    if s.link.any fun h => h.isOf inst inst.idx k && h.taken then
      { s with link := s.link.filter fun h => !(h.isOf inst inst.idx k || other h) }
    else { s with link := s.link.map fun h => if other h then { h with taken := true } else h }

/-- Both halves agree on every field (R280): own type as A, the partner's as B with REF 2; a storage fault names the destination (R56). -/
def pairTypes (d : Dims) (ta td : Nat) (own other : TypeWord) : Except TyFault Unit :=
  let b : Origin := { opnd := 1, ref := 2, treg := 0, win := 0 }
  let go : TyM Unit := atDest (tileOpnd 3 td) do
    checkWord (tileOpnd 0 ta) own
    checkWord b other
    unifyAll (tileOpnd 0 ta) own b other
  match go.run d with
  | .ok _ => .ok ()
  | .error e => .error e

/-- The partner's half goes into the landing that the `xch` reserved, and the exchange number rises (R280). -/
def State.exchange (s : State) (i : Nat) (b : Bld) (h : XchHalf) : State × Bld :=
  let lands := b.lands.map fun f => match f.xch, f.land with
    | true, .t r _ _ => { f with land := .t r h.data h.ty }
    | _, _ => f
  ((s.meetHalf i (s.core i).e.xnum).modCore i fun c => { c with e := { c.e with xnum := c.e.xnum + 1 } }, { b with lands := lands })

/-- The shape fault of an `xch` whose half does not agree with its partner's, with the state in which it is taken (R280): both
members meet it, and the halves go once both have. -/
def State.pairCause (s : State) (i : Nat) (b : Bld) (q : PairReq) : Option (State × Cause) :=
  let k := (s.core i).e.xnum
  match s.partnerHalf i k with
  | none => none
  | some other =>
    match pairTypes b.dims q.ta q.td q.ty other.ty with
    | .ok _ => none
    | .error e => some ((s.supply i q).meetHalf i k, slotCause e.code .X e.synd0 e.synd1 e.synd2)

/-! ### The issue of a bundle -/

/-- The call link of a taken call test lands in b15 at c+1 (R88). -/
def linkLand (x : Ctx) (b : Bld) : Bld × Option Cause :=
  match (x.land 1 (.b 15 (BitVec.ofNat 32 x.fall))).run.run b with
  | (.ok _, b) => (b, none)
  | (.error k, b) => (b, some { k with synd3 := 0 })

/-- The bundle waits in interlocked mode (R34). -/
def ilkWaits (c : Core) (b : Bld) : Bool :=
  c.flight.any fun f => match f.land.reg with | some r => decide (r.1 ≤ 4) && b.uses.contains r | none => false

/-- A core that is held or stalled for this PCC cycle acts again in the next one. -/
def Core.nextPcc (c : Core) (pcc : Nat) : Core := { c with wake := pcc + 1 }

/-- The bundle is held, unless a pre-emption request is honoured there (R33). -/
def State.holdBundle (s : State) (i : Nat) (k : HoldKind) (bar : Option Nat) : State :=
  s.modCore i fun c => if c.preempt.isSome then c.beginSave.nextPcc s.pcc else (c.holdCycle k bar s.pcc).nextPcc s.pcc

/-- The bundle is held on TLB misses (R192): the walks it waits for are noted. -/
def State.holdWalks (s : State) (i : Nat) (b : Bld) : State :=
  (s.modCore i fun c => { c with mem := { c.mem with want := b.miss.eraseDups, gate := [] } }).holdBundle i .tlb b.bar

/-- A `bar` that completes releases every member held at it in this PCC cycle (R20): members that have already held in the
cycle come to issue again, and the cycle does not count as held. -/
def State.releaseBar (s : State) (i l : Nat) : State :=
  match (s.core i).inst with
  | none => s
  | some inst =>
    { s with cores := s.cores.mapIdx fun k c =>
        match c.inst, c.hold with
        | some other, some (.bar l', _) =>
          if k ≠ i ∧ l' = l ∧ other.graph = inst.graph ∧ other.node = inst.node ∧ inst.lh.sameGroup l other.idx inst.idx ∧
              s.pcc < c.wake ∧ c.phase = .run
          then { c with wake := s.pcc, holds := c.holds - 1 } else c
        | _, _ => c }

/-- The core waits for its save at this bundle: a half it has supplied is withdrawn (R281 item 3). -/
def State.saveHere (s : State) (i : Nat) : State := (s.withdrawHalf i).modCore i fun c => c.beginSave.nextPcc s.pcc

/-- A pre-emption request is honoured before the bundle (R33): at a drain point, or at the limit of 65,536 issue cycles. A
bundle that comes out of a stall at a drain point issues first (R281 item 4, R307). -/
def Core.saveDue (c : Core) (drain : Bool) : Bool :=
  match c.preempt with | some r => (drain && c.stall.isNone) || decide (65536 ≤ c.cycle - r) | none => false

/-- A bundle in which nothing has a cause and that waits for no translation: it is saved, held or stalled, or it retires. -/
def State.proceed (s : State) (i : Nat) (h : Head) (b : Bld) (taken : Option Nat) : State :=
  let c := s.core i
  if c.saveDue h.drain then s.saveHere i
  else
    let s := match b.early with
      | some f => if c.relIn.contains (c.x.hnd, c.pos) then s else (f s).modCore i fun d => { d with relIn := (c.x.hnd, c.pos) :: d.relIn }
      | none => s
    match b.holds with
    | k :: _ => (b.pre s).holdBundle i ((b.holds.find? HoldKind.watched).getD k) b.bar
    | [] =>
      let s := match b.pair with | some q => s.supply i q | none => s
      match (match b.grant with | some g => if c.grant.valid g s.pcc then none else some g | none => none) with
      | some g =>
        if c.preempt.isSome then s.saveHere i
        else (s.stallRequest i g).modCore i fun c => (c.stallCycle .grant b.bar s.pcc).nextPcc s.pcc
      | none =>
        match b.pair with
        | none => s.retire i b taken h.fall
        | some _ =>
          match s.partnerHalf i c.e.xnum with
          | some other =>
            let r := s.exchange i b other
            r.1.retire i r.2 taken h.fall
          | none =>
            if c.preempt.isSome then s.saveHere i
            else s.modCore i fun c => (c.stallCycle .pair b.bar s.pcc).nextPcc s.pcc

/-- What happens to a bundle in which no slot found a cause by itself: it waits for translations; what its `xch` meets on the
pair link may trap it; the flight limit is judged last (R32, R315). -/
def State.settle (s : State) (i : Nat) (h : Head) (b : Bld) (taken : Option Nat) : State :=
  let c := s.core i
  if !b.miss.isEmpty then s.holdWalks i b
  else match (match b.pair with | some q => s.pairCause i b q | none => none) with
  | some (t, k) => t.takeTrap i k
  | none =>
    if 16 < c.inFlight + b.lands.length then s.takeTrap i (bundleCause 0x10 0 (word c.inFlight) 0)
    else s.proceed i h b taken

/-- The bundle reads the storage array that a unit code of its core names (R189, R375): register files by use, the SRAM
bank it accesses, its code and the rest of the core's arrays always. -/
def unitRead (b : Bld) (c : BitVec 32) : Bool :=
  let kind := fld c 7 0
  let idx := fld c 15 8
  if kind = 1 then b.uses.any fun r => r.1 == 0
  else if kind = 2 then b.uses.any fun r => r.1 == 1
  else if kind = 3 then b.uses.contains (2, idx)
  else if kind = 4 then b.uses.any fun r => decide (3 ≤ r.1)
  else if kind = 0x10 then (b.rows.any fun r => r.1 == idx) || b.extra.any fun e => e.1 == idx
  else kind == 5 || kind == 6 || kind == 8 || kind == 0x0F || kind == 0x14

/-- Errors in the arrays that the bundle reads on core i. A bank belongs to its cluster, whichever core its code charges. -/
def State.unitErrs (s : State) (i : Nat) (b : Bld) : List SoftErr :=
  if s.errs.isEmpty then []
  else s.errs.filter fun e => match e.place with
    | .unit c => (fld c 31 16 == i || (fld c 7 0 == 0x10 && clusterOf (fld c 31 16) == clusterOf i)) && unitRead b c
    | .home _ _ => false

/-- An uncorrectable error met by the bundle is a precise ECC trap (R189). It has retired the physical core where the array
is the core's own (R324), so a spare is due. -/
def State.eccTrap (s : State) (i : Nat) (e : SoftErr) : State :=
  let code : Word := match e.place with
    | .unit c => (if fld c 7 0 = 0x10 then unitCode i (fld c 15 8) 0x10 else c).setWidth 64
    | .home _ _ => 0
  let k := bundleCause 0x13 code 0 0
  let s := { s with errs := s.errs.erase e, errCount := { s.errCount with double := s.errCount.double + 1 } }
  (s.modCore i fun c => { c with spareDue := c.spareDue || k.hard }).takeTrap i k

/-- What the tree and the slots of a bundle add up to, or the first cause among them, in the order of R32. -/
def State.judgeSlots (s : State) (i : Nat) (h : Head) (ops : List SlotOp) : Bld × Option Cause :=
  let c := s.core i
  let leaf := evalTree c.r h.tests 0
  let x : Ctx := { s := s, i := i, fall := h.fall, slot := .S }
  let b0 := { Bld.start c with uses := h.tests.map fun t => (3, physP c.r.rot t.pred.toNat) }
  let b1 := match leaf with | some (_, t) => if t.kind = 1 then linkLand x b0 else (b0, none) | none => (b0, none)
  match b1.2 with
  | some k => (b1.1, some k)
  | none => runSlots x (match leaf with | some t => t.1 | none => 4) h.tests.length ops b1.1

/-- A bundle comes to issue on core i, whose due results have landed: a bubble passes (R24); an asynchronous cause is taken
first (R312), then a collision of what re-lands (R317); an uncorrectable error in an array that the bundle reads comes before
the causes of its slots and before an interlock wait (log entry 26); the bundle is judged and settled. -/
def State.issueOn (s : State) (i : Nat) (h : Head) (ops : List SlotOp) : State :=
  let c := s.core i
  if 0 < c.bubbles then s.modCore i fun c => { c.passCycle.nextPcc s.pcc with bubbles := c.bubbles - 1 }
  else match c.nextAsync with
  | some a => (s.modCore i fun c => { c with asyncs := c.asyncs.erase a }).takeTrap i a.cause
  | none =>
  match c.relandClash with
  | some k => s.takeTrap i k
  | none =>
    let s := s.modCore i Core.relandNow
    let c := s.core i
    match h.code with
    | some code => s.takeTrap i (bundleCause 0x01 (word code) 0 0)
    | none =>
      if h.bad then s.takeTrap i (bundleCause 0x02 0 0 0)
      else
        let taken := (evalTree c.r h.tests 0).map fun t => (c.r.readB t.2.tgt.toNat).toNat
        let r := s.judgeSlots i h ops
        let errs := s.unitErrs i r.1
        let s := (errs.filter fun e => e.bits == 1).foldl State.correctOne s
        match errs.find? fun e => decide (2 ≤ e.bits) with
        | some e => s.eccTrap i e
        | none =>
        if (match c.inst with | some inst => inst.lh.ilk | none => false) && ilkWaits c r.1 then
          s.modCore i fun c => { (c.passCycle.stallCycle .ilk r.1.bar s.pcc).nextPcc s.pcc with stall := none }
        else match r.2 with
        | some k => if r.1.miss.isEmpty then s.takeTrap i k else s.holdWalks i r.1
        | none => s.settle i h r.1 taken

/-- The core can issue: it runs an instance and is not stalled past this PCC cycle. -/
def Core.canIssue (c : Core) (pcc : Nat) : Bool := c.phase == .run && c.inst.isSome && c.stallEnd.isNone && decide (c.wake ≤ pcc)

/-- THE ISSUE OF A BUNDLE on the current core. -/
def issueBundle (h : Head) (ops : List SlotOp) (s : State) : Host.Outcome State Fault Refusal :=
  if !s.powered then .fault .noPower
  else if (s.core s.cur).canIssue s.pcc then .next ((s.landDue s.cur).issueOn s.cur h ops)
  else .refused (.notEnabled "BUNDLE")

/-- Head of a bundle at the current core's position without tree or drain bit. -/
def State.plainHead (s : State) : Head :=
  { code := none, bad := false, drain := false, tests := [], fall := fallOf (s.core s.cur).stream (s.core s.cur).pos }

/-- The issue of a bundle that holds one slot operation and nothing else. -/
def issueOne (op : SlotOp) (s : State) : Host.Outcome State Fault Refusal := issueBundle s.plainHead [op] s

end Sys2Proof.Machine
end

