-- ==== Sys2Proof/Machine/Translate.lean ====
section
/-! DEFINITION. Translation (R190 to R193), the SRAM window (R175), and the homes of the bytes an access touches. -/

namespace Sys2Proof.Machine

/-- The kinds of access, as the ACCESS field codes them (R193). -/
inductive Access where
  | read | write | atomic
  deriving DecidableEq, Repr

/-- The ACCESS code. -/
def Access.code : Access → Nat
  | .read => 0 | .write => 1 | .atomic => 2

/-- The access needs W. -/
def Access.writes (a : Access) : Bool := a != .read

/-! ### Page tables (R190, R191) -/

/-- The entry of a table that a VA indexes at a level (R190). -/
def State.pte (s : State) (level va table : Nat) : Word :=
  let idx := va >>> (12 + 9 * level) % (if level = 4 then 256 else 512)
  word (s.readNat (table + 8 * idx) 8)

/-- PA bits 39:12 of an entry. -/
def pteFrame (e : Word) : Nat := fld e 39 12 * 4096

/-- Size of the page a leaf maps (R190). -/
def leafSize (level : Nat) (e : Word) : Nat :=
  2 ^ (12 + 9 * level) * (if bit e 3 then 16 else 1)

/-- The malformed entries of R191. -/
def malformed (domain level : Nat) (e : Word) : Bool :=
  let ptr := bit e 1
  fld e 48 40 != 0 || fld e 11 4 != 0 ||
  (ptr && level == 0) || (!ptr && decide (3 ≤ level)) ||
  (ptr && (bit e 63 || fld e 62 49 != 0 || bit e 2 || bit e 3)) ||
  (bit e 3 && level == 2) ||
  (!ptr && pteFrame e % leafSize level e != 0) ||
  (if bit e 63 then decide (domain ≤ fld e 62 49) else fld e 62 49 != 0)

/-- What a walk finds wrong with the entry read at a level, in the order of R193. -/
def pteFault (domain level : Nat) (e : Word) : Option WalkFault :=
  let f (k : Nat) : Option WalkFault := some { kind := k, level := level, entry := e }
  if !bit e 0 then f 0
  else if malformed domain level e then f 3
  else if !bit e 63 && decide (Config.localLimit ≤ pteFrame e) then f 4
  else none

/-- The translation a leaf gives. -/
def leafTrans (va level : Nat) (e : Word) : Trans :=
  let sz := leafSize level e
  { va := va / sz * sz, size := sz, acc := if bit e 63 then some (fld e 62 49) else none, pa := pteFrame e
    write := bit e 2, entry := e, level := level }

/-- A walk from a level down (R190). -/
def State.walkFrom (s : State) (va : Nat) : Nat → Nat → Trans ⊕ WalkFault
  | 0, table =>
    let e := s.pte 0 va table
    match pteFault s.domain 0 e with
    | some f => .inr f
    | none => .inl (leafTrans va 0 e)
  | l + 1, table =>
    let e := s.pte (l + 1) va table
    match pteFault s.domain (l + 1) e with
    | some f => .inr f
    | none => if bit e 1 then s.walkFrom va l (pteFrame e) else .inl (leafTrans va (l + 1) e)

/-- The bytes of the table entries that a walk from a level down reads (R189, R190). -/
def State.walkFromReads (s : State) (va : Nat) : Nat → Nat → List Nat
  | 0, table => (List.range 8).map fun j => table + 8 * (va >>> 12 % 512) + j
  | l + 1, table =>
    let e := s.pte (l + 1) va table
    ((List.range 8).map fun j => table + 8 * (va >>> (12 + 9 * (l + 1)) % (if l + 1 = 4 then 256 else 512)) + j) ++
      if (pteFault s.domain (l + 1) e).isNone && bit e 1 then s.walkFromReads va l (pteFrame e) else []

/-- The page-table root of a partition (R190). -/
def State.root (s : State) (part : Nat) : Nat := match s.part part with | some p => p.root | none => 0

/-- A walk of a partition's table. -/
def State.walk (s : State) (part va : Nat) : Trans ⊕ WalkFault := s.walkFrom va 4 (s.root part)

/-- The bytes of the table entries that a walk of a partition's table reads. -/
def State.walkReads (s : State) (part va : Nat) : List Nat := s.walkFromReads va 4 (s.root part)

/-! ### Looking a page up -/

/-- What an access to a 4 KiB page finds. -/
inductive PageRes where
  | ok (key : Nat)
  | miss
  | fault (f : WalkFault)
  deriving DecidableEq, Repr

/-- Home key of a VA under a translation. -/
def Trans.key (t : Trans) (va : Nat) : Nat :=
  match t.acc with | none => t.pa + (va - t.va) | some a => remoteKey a (t.pa + (va - t.va))

/-- The permission check at the leaf, the last cause of R193. -/
def Trans.use (t : Trans) (a : Access) (va : Nat) : PageRes :=
  if a.writes && !t.write then .fault { kind := 1, level := t.level, entry := t.entry } else .ok (t.key va)

/-- The causes of R193 before any walk, and the SRAM window (R175): none where the page is to be translated. -/
def State.noWalk (s : State) (cl page : Nat) : Option PageRes :=
  let va := 4096 * page
  if Config.vaLimit ≤ va then some (.fault { kind := 2, level := 7, entry := 0 })
  else if Config.windowBase ≤ va then
    let b := (s.cluster cl).bank ((va - Config.windowBase) / 65536)
    some (if b.mode == .spad && b.ready then .ok (sramKey cl (va - Config.windowBase)) else .fault { kind := 5, level := 7, entry := 0 })
  else none

/-- A page as an issuing bundle finds it: in the walks made for it, else in the cluster's TLBs (R192). -/
def State.page (s : State) (i : Nat) (a : Access) (page : Nat) : PageRes :=
  let m := (s.core i).mem
  match s.noWalk (clusterOf i) page with
  | some r => r
  | none =>
    match (m.walked ++ (s.cluster (clusterOf i)).tlb).find? fun t => t.covers (4096 * page) with
    | some t => t.use a (4096 * page)
    | none => match assoc m.walks page with | some (some f) => .fault f | _ => .miss

/-- A page as a copy channel or Ridge finds it: in the cluster's TLBs, else by a walk at once (R194). -/
def State.pageNow (s : State) (part cl : Nat) (a : Access) (page : Nat) : PageRes :=
  match s.noWalk cl page with
  | some r => r
  | none =>
    match (s.cluster cl).tlb.find? fun t => t.covers (4096 * page) with
    | some t => t.use a (4096 * page)
    | none => match s.walk part (4096 * page) with | .inl t => t.use a (4096 * page) | .inr f => .fault f

/-- The causes of R193 before any walk, or a translation that the cluster's TLBs hold: such a page is looked up without a walk. -/
def State.walkless (s : State) (cl page : Nat) : Bool :=
  (s.noWalk cl page).isSome || (s.cluster cl).tlb.any fun t => t.covers (4096 * page)

/-! ### Spans -/

/-- Adds a touched page, keeping the lowest VA of a page already there. -/
def addPage (l : List (Nat × Nat)) (p : Nat × Nat) : List (Nat × Nat) :=
  if l.any fun q => q.2 == p.2 then l.map fun q => if q.2 == p.2 then (min q.1 p.1, q.2) else q else l ++ [p]

/-- The pages an access touches, by ascending lowest VA. -/
def touched (ranges : List (Nat × Nat)) : List (Nat × Nat) :=
  sortBy (·.1) ((ranges.flatMap rangePages).foldl addPage [])

/-- Joins a range to the ones before it where it continues or repeats the last. -/
def addRange (l : List (Nat × Nat)) (r : Nat × Nat) : List (Nat × Nat) :=
  match l with
  | (a, n) :: t => if a ≤ r.1 ∧ r.1 ≤ a + n then (a, max n (r.1 + r.2 - a)) :: t else r :: l
  | [] => [r]

/-- Ranges with neighbours joined. -/
def joinRanges (rs : List (Nat × Nat)) : List (Nat × Nat) := (rs.foldl addRange []).reverse

/-- Table entries that a copy channel's walks for these ranges read, where some error is to be met in them (R189). -/
def State.copyWalks (s : State) (part cl : Nat) (ranges : List (Nat × Nat)) : List Nat :=
  if s.errs.isEmpty then []
  else (touched ranges).flatMap fun p => if s.walkless cl p.2 then [] else s.walkReads part (4096 * p.2)

/-- Some byte of the span lies on another accelerator. -/
def Span.remote (sp : Span) : Bool := sp.pages.any fun p => isRemote p.2

/-- SYND1 of a page fault (R193). -/
def pageSynd (a : Access) (f : WalkFault) : Word := word (a.code <<< 8 ||| f.level <<< 4 ||| f.kind)

/-- Every page of an access looked up: the span, the pages that miss, the lowest fault. -/
def spanOf (look : Nat → PageRes) (ranges : List (Nat × Nat)) : Span × List Nat × Option (Nat × WalkFault) :=
  let ps := touched ranges
  let rs := ps.map fun p => (p, look p.2)
  ({ ranges := ranges, pages := rs.filterMap fun r => match r.2 with | .ok k => some (r.1.2, k) | _ => none },
   rs.filterMap fun r => match r.2 with | .miss => some r.1.2 | _ => none,
   (rs.filterMap fun r => match r.2 with | .fault f => some (r.1.1, f) | _ => none).head?)

/-- Translation at issue (R212): misses hold the bundle, a fault at the lowest VA is precise. -/
def Ctx.translate (x : Ctx) (a : Access) (ranges : List (Nat × Nat)) : SlotM Span := do
  let r := spanOf (x.s.page x.i a) ranges
  modify fun b => { b with miss := b.miss ++ r.2.1 }
  match r.2.2 with
  | some (va, f) => if r.2.1.isEmpty then x.fail 0x11 (word va) (pageSynd a f) f.entry else pure r.1
  | none => pure r.1

/-- The walks of core i's held bundle read their tables: single-bit errors are corrected; an uncorrectable one is charged to the instance as one in
returning data is, and that walk finds nothing (R189; log entry 73). Gives the pages whose walks succeed. -/
def State.readTables (s : State) (i part : Nat) (pages : List Nat) : State × List Nat :=
  if s.errs.isEmpty then (s, pages)
  else pages.foldl (fun (a : State × List Nat) p =>
    let r := a.1.meetErrs (a.1.errsBy (some i) false (a.1.walkReads part (4096 * p)))
    match r.2 with
    | some e => (r.1.postAsync (s.core i).uid (eccCause i e (4096 * p)), a.2)
    | none => (r.1, a.2 ++ [p])) (s, [])

/-- The walks of the held bundle complete (R192): translations enter the cluster's TLBs, faults are kept for the bundle. -/
def State.walksDone (s : State) (i : Nat) (evict : List Nat) : State :=
  let c := s.core i
  let part := match c.inst with | some x => x.part | none => 0
  let q := s.readTables i part c.mem.want
  let s := q.1
  let rs := q.2.map fun p => (p, s.walk part (4096 * p))
  let ok := rs.filterMap fun r => match r.2 with | .inl t => some t | .inr _ => none
  let bad := rs.filterMap fun r => match r.2 with | .inr f => some (r.1, some f) | .inl _ => none
  let s := s.modCore i fun c => { c with mem := { c.mem with want := [], walked := c.mem.walked ++ ok, walks := c.mem.walks ++ bad } }
  s.modCluster (clusterOf i) fun k => { k with tlb := ok ++ k.tlb.filter fun t => !(evict.contains t.va) && !(ok.contains t) }

/-- Meaning of TLB_WALK_COMPLETE (R192): `evict` names the pages whose translations the new ones displace. -/
def execTlbWalkComplete (core : Nat) (evict : List Nat) (s : State) : Host.Outcome State Fault Refusal :=
  if s.powered && !(s.core core).mem.want.isEmpty && decide (core < 256) then .next (s.walksDone core evict)
  else .refused (.notEnabled "TLB_WALK_COMPLETE")

end Sys2Proof.Machine
end

