-- ==== Sys2Proof/Machine/L1.lean ====
section
/-! DEFINITION. The core path beyond issue: L1 (R181, R204), stores performed in it, what goes out to other accelerators (R207,
R333, R334), reading bytes for returning data, single and uncorrectable errors (R189). -/

namespace Sys2Proof.Machine

/-! ### Fabric requests of this package (R333) -/

/-- The tenant of a partition. -/
def State.tenant (s : State) (part : Nat) : Nat := match s.part part with | some p => p.tenant | none => 0

/-- A port that carries flits (R331, R332): its mode is set and at least two lanes run. -/
def Port.up (p : Port) : Bool := p.mode != 0 && decide (2 ≤ p.lanes)

/-- The port by which flits to an accelerator leave: the lowest of the route's mask that is up (R335, R369). -/
def State.routePort (s : State) (acc : Nat) : Option Nat :=
  match assoc s.routes acc with
  | some mask => (List.range 48).find? fun p => mask.testBit p && (s.port p).up
  | none => none

/-- A port in native mode (R331): mode 1; mode 2 is UALink 1.0. -/
def Port.native (p : Port) : Bool := p.mode == 1

/-- Counts of a tenant at a port (R339, R368). -/
def Port.countsOf (p : Port) (ten : Nat) : PortCount :=
  (p.counts.find? fun c => c.tenant == ten).getD { tenant := ten, refused := 0, errors := 0, outFlits := 0, inFlits := 0 }

/-- Changes a tenant's counts at a port. -/
def Port.count (p : Port) (ten : Nat) (f : PortCount → PortCount) : Port :=
  { p with counts := f (p.countsOf ten) :: p.counts.filter fun c => c.tenant != ten }

/-- A request flit of an agent of this package (R333). -/
def State.mkFlit (s : State) (ten agent epoch acc cls vch pa len : Nat) (payload : List Byte) : Flit :=
  { dst := acc, src := s.accNum, ten := ten, ktag := (assoc s.outKeys ten).getD 0, cls := cls, tyw := false, agent := agent
    epoch := epoch % 256, len := len, vch := vch, pa := pa % 2 ^ 40, payload := payload }

/-- Queues a flit at a port, as the flit of request `id` of this package, 0 for none. -/
def State.queueFlit (s : State) (p id : Nat) (f : Flit) : State := s.modPort p fun q => { q with outq := q.outq ++ [(id, f.onWire)] }

/-- The flit asks for something: a read, a write, an atomic, a typed send, a stream (R334). -/
def flIsRequest (f : Flit) : Bool := [0, 1, 2, 9, 10].contains f.cls

/-- A refusal as its events name it: the code of R338, and the accelerator whose access is refused. -/
def refusal (code acc : Nat) : Nat := code + 16 * acc

/-- An error response of one of the package's routers to a request of the package itself (R338). -/
def State.bounce (s : State) (id code : Nat) (f : Flit) : State :=
  let x := (f.agent, id, refusal code f.dst)
  if flIsRequest f && !s.bounced.contains x then { s with bounced := s.bounced ++ [x] } else s

/-- Sends a flit on the route to its destination. A request is refused at its first router with code 5 where DST lies outside the
domain (R335), with code 9 where no route is up (R332). -/
def State.sendFlit (s : State) (id : Nat) (f : Flit) : State :=
  if s.domain ≤ f.dst then s.bounce id 5 f
  else match s.routePort f.dst with
    | some p => s.queueFlit p id f
    | none => s.bounce id 9 f

/-- PA on its accelerator of a remote key. -/
def keyPa (key : Nat) : Nat := key % 2 ^ 52

/-- Sends one request whose answer is awaited (R334), and notes it. -/
def State.request (s : State) (own : Owner) (agent epoch slot group : Nat) (copy : Bool) (va key access cls len : Nat)
    (pl : List Byte) (merge : Option Merge := none) : State :=
  let acc := keyAcc key
  let port := s.routePort acc
  let q : RemReq := { id := s.serial, group := group, own := own, agent := agent, epoch := epoch, port := port
                      native := match port with | some p => (s.port p).native | none => true
                      va := va, acc := acc, key := key, access := access, slot := slot, copy := copy, refused := false
                      merge := merge, placed := false }
  { s with serial := s.serial + 1, remote := s.remote ++ [q] }.sendFlit q.id
    (s.mkFlit (s.tenant own.part) agent epoch acc cls 0 (keyPa key) len pl)

/-- Parts of at most 240 bytes, one at least (R333). -/
def flitParts (b : List Byte) : List (List Byte) :=
  (List.range (max 1 ((b.length + 239) / 240))).map fun k => (b.drop (240 * k)).take 240

/-- Bytes of remote keys grouped by 128-byte line: (first key of the line, bytes). -/
def remoteLines (cells : List Host.Cell) : List (Nat × List Host.Cell) :=
  ((cells.map fun c => c.1 / 128).eraseDups).map fun l => (128 * l, cells.filter fun c => c.1 / 128 == l)

/-- Writes within one line joined by byte: a later one over the bits that an earlier one wrote (R225). -/
def joinBits (ws : List (Nat × Byte × Byte)) : List (Nat × Byte × Byte) :=
  ws.foldl (fun l w =>
    if l.any fun x => x.1 == w.1 then
      l.map fun x => if x.1 == w.1 then (x.1, (x.2.1 &&& ~~~w.2.2) ||| (w.2.1 &&& w.2.2), x.2.2 ||| w.2.2) else x
    else l ++ [w]) []

/-- Payload of a write within one line (R334): the byte mask, then the line's bytes up to the last one written. -/
def writePayload (base : Nat) (cells : List Host.Cell) : List Byte :=
  let mask := cells.foldl (fun m c => m ||| 1 <<< (c.1 - base)) 0
  let last := cells.foldl (fun m c => max m (c.1 - base + 1)) 0
  toBytes 16 mask ++ (List.range last).map fun j => ((cells.find? fun c => c.1 == base + j).map (·.2)).getD 0

/-- Payload of an Atomic request (R334). -/
def atomicPayload (op size : Nat) (record cas : Bool) (operand expected : Nat) : List Byte :=
  toBytes 8 (op ||| size <<< 4 ||| b2n record <<< 14 ||| b2n cas <<< 15) ++ toBytes 8 operand ++
  (if record || cas then toBytes 8 expected else [])

/-- One request of an instruction or command that writes remote bytes: its key, its payload, the bytes it writes, and what it merges. -/
structure FarWrite where
  key   : Nat
  pl    : List Byte
  keys  : List Nat
  merge : Option Merge

/-- The exchange that merges bits into the 8 bytes at a key, for the value it expects there (R218, R334). -/
def Merge.payload (m : Merge) : List Byte := atomicPayload 0 1 false true ((m.expect &&& (2 ^ 64 - 1 - m.mask)) ||| m.val) m.expect

/-- Bits that writes within one aligned 8-byte word set: which, and their values. -/
def mergeBits (ws : List (Nat × Byte × Byte)) : Merge :=
  ws.foldl (fun m w =>
    let sh := 8 * (w.1 % 8)
    { m with mask := m.mask ||| w.2.2.toNat <<< sh, val := m.val ||| (w.2.1 &&& w.2.2).toNat <<< sh }) { mask := 0, val := 0, expect := 0 }

/-- The requests that write remote bytes: for each line a Write of its whole bytes; the bytes of an aligned 8-byte word of which some byte is
written only in part are merged at the home slice (R225) by an exchange of the word, repeated until it finds what it expects, so that no read
sees the word half written (R197; log entry 21). -/
def farWrites (ws : List (Nat × Byte × Byte)) : List FarWrite :=
  (((ws.map fun w => w.1 / 128).eraseDups).map fun l =>
    let bytes := joinBits (ws.filter fun w => w.1 / 128 == l)
    let words := ((bytes.filter fun w => w.2.2 != 0xFF).map fun w => w.1 / 8).eraseDups
    let whole := (bytes.filter fun w => !words.contains (w.1 / 8)).map fun w => ((w.1, w.2.1) : Host.Cell)
    (if whole.isEmpty then [] else [{ key := 128 * l, pl := writePayload (128 * l) whole, keys := whole.map (·.1), merge := none }]) ++
    words.map fun k =>
      let mine := bytes.filter fun w => w.1 / 8 == k
      let m := mergeBits mine
      { key := 8 * k, pl := m.payload, keys := mine.map (·.1), merge := some m }).flatten

/-- Sends the writes of remote bytes of one instruction or command and notes each request as awaiting its response. `va` gives
the VA of a key. -/
def State.sendWrites (s : State) (own : Owner) (agent epoch slot : Nat) (copy : Bool) (group : Nat) (va : Nat → Nat)
    (ws : List (Nat × Byte × Byte)) : State :=
  (farWrites ws).foldl (fun s w =>
    s.request own agent epoch slot group copy (w.keys.foldl (fun m k => min m (va k)) (2 ^ 64)) w.key 1 (if w.merge.isSome then 2 else 1)
      w.pl.length w.pl w.merge) s

/-- Writes sent, by epoch and port. -/
abbrev SentCounts := List ((Nat × Nat) × Nat)

/-- One more write of an epoch sent by a port (R336). -/
def SentCounts.add (l : SentCounts) (k : Nat × Nat) : SentCounts :=
  match l.find? fun x => x.1 == k with
  | some x => (k, x.2 + 1) :: l.filter fun y => y.1 != k
  | none => (k, 1) :: l

/-- Counts the Write requests of an agent's epoch that leave by native ports (R336); one that its first router refuses leaves by none. -/
def State.countSent (s : State) (i epoch : Nat) (ws : List (Nat × Byte × Byte)) : State :=
  ((farWrites ws).filter fun w => w.merge.isNone && decide (keyAcc w.key < s.domain)).foldl (fun s w =>
    match s.routePort (keyAcc w.key) with
    | some p =>
      if (s.port p).native then
        s.modCore i fun c => { c with mem := { c.mem with sent := SentCounts.add c.mem.sent (epoch % 256, p) } } else s
    | none => s) s

/-- The reads of remote bytes: for each line touched, the lowest byte and how many from there (R334). -/
def farReads (keys : List Nat) : List (Nat × Nat) :=
  (remoteLines (keys.map fun k => (k, 0))).map fun l =>
    let lo := l.2.foldl (fun m c => min m c.1) (l.1 + 128)
    let hi := l.2.foldl (fun m c => max m (c.1 + 1)) l.1
    (lo, hi - lo)

/-- Sends the reads of remote bytes of request `id` (R334). -/
def State.sendReads (s : State) (id part agent epoch : Nat) (keys : List Nat) : State :=
  (farReads keys).foldl (fun s r => s.sendFlit id (s.mkFlit (s.tenant part) agent epoch (keyAcc r.1) 0 0 (keyPa r.1) r.2 [])) s

/-- Ridge or Yelm asks for remote bytes, and awaits them. -/
def State.askReads (s : State) (own : Owner) (agent group va : Nat) (keys : List Nat) : State :=
  (farReads keys).foldl (fun s r => s.request own agent 0 0 group false va r.1 0 0 r.2 []) s

/-! ### L1 contents -/

/-- Puts a byte into the clean sector that holds its place, if L1 holds it. -/
def setClean (l : List (Nat × List Byte)) (key : Nat) (x : Byte) : List (Nat × List Byte) :=
  assocMod l (key / 32) fun b => b.set (key % 32) x

/-- A written byte joins L1's dirty bytes (R181). -/
def mergeDirty (l : List DirtyByte) (d : DirtyByte) : List DirtyByte :=
  if l.any fun e => e.key == d.key then
    l.map fun e => if e.key == d.key then
      { e with val := (e.val &&& ~~~d.mask) ||| (d.val &&& d.mask), mask := e.mask ||| d.mask, obj := d.obj, cmp := d.cmp } else e
  else d :: l

/-! ### Write-back and stores -/

/-- L1 writes back its dirty bytes that satisfy `p`; sectors it also holds clean take them. -/
def State.writeBack (s : State) (i : Nat) (p : DirtyByte → Bool) : State :=
  let ds := (s.core i).mem.dirty.filter p
  let s := s.sendDirty i ds
  s.modCore i fun c =>
    { c with mem := { c.mem with
        dirty := c.mem.dirty.filter fun d => !p d
        clean := ds.foldl (fun l d => setClean l d.key (s.readHome d.key)) c.mem.clean } }

/-- L1 drops every clean sector, and will keep nothing that a load asked for before brings (R202 to R204, R206). -/
def CoreMem.dropClean (m : CoreMem) : CoreMem :=
  { m with clean := [], far := [], loads := m.loads.map fun l => { l with keep := false }, tlds := m.tlds.map fun l => { l with keep := false } }

/-! ### Room in L1 (R181) -/

/-- Set of a line (R181): 256 sets. -/
def l1Set (line : Nat) : Nat := line % 256

/-- The lines that L1 holds in a set. -/
def CoreMem.linesOf (m : CoreMem) (set : Nat) : List Nat :=
  let held : List Nat := m.dirty.map (·.key / 128) ++ m.clean.map (·.1 / 4) ++ m.far.map (·.key / 128)
  (held.filter fun l => l1Set l == set).eraseDups

/-- L1 gives up a line: dirty bytes are written back, and the line is dropped (R181). -/
def State.evictLine (s : State) (i line : Nat) : State :=
  (s.writeBack i fun d => d.key / 128 == line).modCore i fun c =>
    { c with mem := { c.mem with
        clean := c.mem.clean.filter fun x => x.1 / 4 != line
        far := c.mem.far.filter fun x => x.key / 128 != line } }

/-- Room for a line: where its set holds 12 others, one of them goes; which, the spec leaves open (log entry 51). -/
def State.l1Room (s : State) (i line : Nat) : State :=
  let ls := (s.core i).mem.linesOf (l1Set line)
  if ls.contains line || decide (ls.length < 12) then s
  else { s.evictLine i (ls[Config.l1Victim s.serial % ls.length]?.getD 0) with serial := s.serial + 1 }

/-- The sectors that a read fills (R181), those read from a home of this package. -/
def State.l1Fill (s : State) (i : Nat) (stale : Bool) (keys : List Nat) : State :=
  let secs := ((keys.filter fun k => decide (k < 2 ^ 52) || (isSram k && decide (k < noKey))).map (· / 32)).eraseDups
  secs.foldl (fun s n =>
    if stale && (assoc (s.core i).mem.clean n).isSome then s
    else
      let s := s.l1Room i (n / 4)
      let fresh := (List.range 32).map fun j => s.readHome (32 * n + j)
      s.modCore i fun c => { c with mem := { c.mem with clean := assocSet c.mem.clean n fresh } }) s

/-- The aligned unit around a key, of at most `cap` bytes, that lies whole among the keys. -/
def farUnit (cap : Nat) (keys : List Nat) (k : Nat) : Nat :=
  ([8, 4, 2].find? fun u => decide (u ≤ cap) && (List.range u).all fun j => keys.contains (k / u * u + j)).getD 1

/-- Bytes of a remote page that one access of unit `cap` brings join what L1 holds (R181, R197). -/
def State.l1Far (s : State) (i cap : Nat) (cells : List Host.Cell) : State :=
  let keys := cells.map (·.1)
  cells.foldl (fun s x => (s.l1Room i (x.1 / 128)).modCore i fun c =>
    { c with mem := { c.mem with far := { key := x.1, val := x.2, unit := farUnit cap keys x.1 } :: c.mem.far.filter fun y => y.key != x.1 } }) s

/-- L1 drops bytes of remote pages. -/
def CoreMem.dropFar (m : CoreMem) (keys : List Nat) : CoreMem := { m with far := m.far.filter fun x => !keys.contains x.key }

/-! ### Order on one byte (R198) -/

/-- The load is an atomic. -/
def LoadKind.atomic : LoadKind → Bool
  | .amo _ _ _ | .cas _ _ _ => true
  | _ => false

/-- An older outstanding atomic or tile store touches the bytes. -/
def CoreMem.olderWriter (m : CoreMem) (id : Nat) (rs : List (Nat × Nat)) : Bool :=
  m.loads.any (fun l => l.kind.atomic && decide (l.id < id) && meets l.span.keyRanges rs) ||
  m.tsts.any fun t => decide (t.id < id) && meets t.span.keyRanges rs

/-- An older outstanding store touches the bytes. -/
def CoreMem.olderStore (m : CoreMem) (id : Nat) (rs : List (Nat × Nat)) : Bool :=
  m.stores.any fun t => decide (t.id < id) && meets (t.bytes.map fun d => (d.key, d.key + 1)) rs

/-- An older outstanding load still reads the bytes. -/
def CoreMem.olderLoad (m : CoreMem) (id : Nat) (rs : List (Nat × Nat)) : Bool :=
  m.loads.any (fun l => decide (l.id < id) && l.kind != .poll && meets (openRanges l.span l.fwd) rs) ||
  m.tlds.any fun l => decide (l.id < id) && meets (openRanges l.span l.fwd) rs

/-- Before a younger write to these bytes is performed, every older outstanding load takes their present values, and L1 will not
keep what an older load of them still brings. -/
def State.captureOlder (s : State) (i id : Nat) (rs : List (Nat × Nat)) : State :=
  s.modCore i fun c =>
    { c with mem := { c.mem with
        loads := c.mem.loads.map fun l =>
          if l.id < id ∧ !l.kind.atomic ∧ meets l.span.keyRanges rs then
            { l with fwd := s.bindNow i l.unit l.span l.fwd rs, keep := false } else l
        tlds := c.mem.tlds.map fun l =>
          if l.id < id ∧ meets l.span.keyRanges rs then { l with fwd := s.bindNow i 4 l.span l.fwd rs, keep := false } else l } }

/-- The bytes of an access for which `val` has a value in their whole unit of `u` bytes (R197). -/
def Span.wholeUnits (sp : Span) (u : Nat) (val : Nat → Option Byte) : List Host.Cell :=
  sp.keys.eraseDups.filterMap fun k =>
    if (List.range u).all fun j => let q := k / u * u + j; !meets sp.keyRanges [(q, q + 1)] || (val q).isSome then
      (val k).map fun x => (k, x) else none

/-- Every older outstanding load that a write to these bytes would bind can take its value now, or has asked for it: nothing older than the load
still writes the unit it takes (R197, R198). -/
def CoreMem.captureReady (m : CoreMem) (id : Nat) (rs : List (Nat × Nat)) : Bool :=
  let free (n u : Nat) (sp : Span) (fwd : List Host.Cell) : Bool :=
    let open_ := (openRanges sp fwd).filter fun r => meets [r] (widen u rs)
    !m.olderWriter n open_ && !m.olderStore n open_
  m.loads.all (fun l => !(decide (l.id < id) && !l.kind.atomic && meets l.span.keyRanges rs) || (l.asked && free l.id l.unit l.span l.fwd)) &&
  m.tlds.all fun l => !(decide (l.id < id) && meets l.span.keyRanges rs) || (l.asked && free l.id 4 l.span l.fwd)

/-- A merge of the instance's own earlier writes is still to be performed on these bytes of another accelerator (R198, R225). -/
def State.merging (s : State) (uid : Nat) (rs : List (Nat × Nat)) : Bool :=
  s.remote.any fun q => q.own.uid == uid && !q.copy && !q.refused && q.merge.isSome && meets [(q.key, q.key + 8)] rs

/-- Values that a load which starts now has at once: those that older outstanding stores forward (R198, R231), and those of remote
bytes that L1 holds (R181), in units that one access brought (R197) and no older load is still to read (R205). -/
def CoreMem.forward (m : CoreMem) (u : Nat) (span : Span) : List Host.Cell :=
  let free (k : Nat) : Bool := !m.olderWriter (2 ^ 64) [(k, k + 1)]
  let stored : List Host.Cell :=
    if m.stores.isEmpty then []
    else
      let pend := m.stores.reverse.flatMap fun t => t.bytes
      span.wholeUnits u fun k => if free k then (pend.find? fun d => d.key == k).map (·.val) else none
  let held : List Host.Cell :=
    if m.far.isEmpty then []
    else span.wholeUnits u fun k =>
      if isRemote k && free k && !m.olderStore (2 ^ 64) [(k, k + 1)] && !m.olderLoad (2 ^ 64) [(k, k + 1)] then
        (m.far.find? fun x => x.key == k && decide (u ≤ x.unit)).map (·.val)
      else none
  stored ++ held.filter fun x => !(stored.any fun y => y.1 == x.1)

/-- Writes of an access of unit `cap` performed in L1 by core i (R215, R225): local bytes become dirty, a line at a time; remote ones are written
through at once, in the epoch in which the instruction issued (R207), and L1 keeps those that are written whole. -/
def State.performWrites (s : State) (i cap slot id epoch : Nat) (va : Nat → Nat) (ds : List DirtyByte) : State :=
  let far := (ds.filter fun d => isRemote d.key).map fun d => (d.key, d.val, d.mask)
  let near := ds.filter fun d => !isRemote d.key && decide (d.key < noKey)
  let s := if far.isEmpty then s else
    let s := (s.countSent i epoch far).sendWrites ((s.core i).owner i) i epoch slot false id va far
    let bytes := joinBits far
    let merged := (farWrites far).flatMap fun w => if w.merge.isSome then w.keys else []
    (s.modCore i fun c => { c with mem := c.mem.dropFar merged }).l1Far i cap
      ((bytes.filter fun w => !merged.contains w.1).map fun w => (w.1, w.2.1))
  ((near.map fun d => d.key / 128).eraseDups).foldl (fun s l =>
    (s.l1Room i l).modCore i fun c =>
      { c with mem := { c.mem with dirty := (near.filter fun d => d.key / 128 == l).foldl mergeDirty c.mem.dirty } }) s

end Sys2Proof.Machine
end

