-- ==== Sys2Proof/Machine/MemSlot.lean ====
section
/-! DEFINITION. The C slots' memory operations as they issue (R211 to R230): loads, stores, atomics, tile loads and stores,
synchronisation, `waitge`. What happens when their data moves is in MemEvents. -/

namespace Sys2Proof.Machine

/-- VA of a CI access (R212). -/
def Ctx.vaCI (x : Ctx) (o : CI) : SlotM Nat := do
  let a ← x.rS o.rb.toNat
  pure (a + sx o.imm).toNat

/-- The object that an access without a window is bound to (R196). -/
def Header.objAt (h : Header) (va : Nat) : Option Nat :=
  (h.regions.find? fun r => decide (r.base ≤ va) && decide (va < r.base + r.size)).map (·.obj)

/-- Changes the memory side of a core. -/
def State.modMem (s : State) (i : Nat) (f : CoreMem → CoreMem) : State := s.modCore i fun c => { c with mem := f c.mem }

/-- The next serial number is used up. -/
def State.bump (s : State) : State := { s with serial := s.serial + 1 }

/-- What an atomic does at issue to L1 (R217): dirty bytes of the word, with the aligned 8 bytes around it (R197), go to the home,
and its line is invalidated. -/
def State.expelWord (s : State) (i : Nat) (keys : List Nat) : State :=
  (s.writeBack i fun d => keys.any fun k => k / 8 == d.key / 8).modMem i fun m =>
    { m with clean := m.clean.filter fun x => !(keys.any fun k => k / 128 == x.1 / 4)
             far := m.far.filter fun x => !(keys.any fun k => k / 128 == x.key / 128) }

/-- Keys of an access that are still to be read on another accelerator, in order: those the outside supplies bytes for. -/
def farKeys (span : Span) (fwd : List Host.Cell) : List Nat :=
  (span.keys.filter fun k => isRemote k && !(fwd.any fun c => c.1 == k))

/-- The request that an outstanding load sends to another accelerator (R213, R334). -/
def State.sendLoad (s : State) (i : Nat) (l : LoadOp) : State :=
  let c := s.core i
  let part := (c.owner i).part
  let far := farKeys l.span l.fwd
  match far with
  | [] => s
  | k :: _ =>
    let size := if l.n = 8 then 1 else 0
    let atom (op : Nat) (cas : Bool) (v e : Word) : State :=
      let pl := atomicPayload op size false cas v.toNat e.toNat
      s.sendFlit l.id (s.mkFlit (s.tenant part) i c.mem.epoch (keyAcc k) 2 0 (keyPa k) pl.length pl)
    match l.kind with
    | .amo _ op v => atom op false v 0
    | .cas _ e v => atom 0 true v e
    | _ => s.sendReads l.id part i c.mem.epoch far

/-- Nothing older of the core on remote bytes has still to leave (R198): no store or tile store to be performed, no request to be
sent. -/
def CoreMem.mayAsk (m : CoreMem) (id : Nat) (rs : List (Nat × Nat)) : Bool :=
  !m.olderStore id rs && !(m.tsts.any fun t => decide (t.id < id) && meets t.span.keyRanges rs) &&
  !(m.loads.any fun l => !l.asked && decide (l.id < id) && meets l.span.keyRanges rs) &&
  !(m.tlds.any fun l => !l.asked && decide (l.id < id) && meets l.span.keyRanges rs)

/-- The requests of outstanding loads and tile loads that may leave do, in program order (R198). -/
def State.askDue (s : State) (i : Nat) : State :=
  let m := (s.core i).mem
  let merging (sp : Span) (s : State) : Bool := s.merging (s.core i).uid sp.keyRanges
  let ids := sortBy id (((m.loads.filter fun l => !l.asked).map (·.id)) ++ (m.tlds.filter fun l => !l.asked).map (·.id))
  ids.foldl (fun s n =>
    let m := (s.core i).mem
    let s := match m.loads.find? fun l => l.id == n with
      | some l =>
        if m.mayAsk n l.span.keyRanges && !merging l.span s then
          (s.sendLoad i l).modMem i fun m => { m with loads := m.loads.map fun x => if x.id = n then { x with asked := true } else x }
        else s
      | none => s
    match m.tlds.find? fun l => l.id == n with
    | some l =>
      if m.mayAsk n l.span.keyRanges && !merging l.span s then
        (s.sendReads n ((s.core i).owner i).part i m.epoch (farKeys l.span l.fwd)).modMem i fun m =>
          { m with tlds := m.tlds.map fun x => if x.id = n then { x with asked := true } else x }
      else s
    | none => s) s

/-- The launch header of the core's instance. -/
def Core.lh (c : Core) : Header := match c.inst with | some x => x.lh | none => default

/-- An access that returns data starts (R214). -/
def State.startLoad (s : State) (i slot va n : Nat) (kind : LoadKind) (sp : Span) : State :=
  let s := if kind.atomic then s.expelWord i sp.keys else s
  let l : LoadOp := { id := s.serial, slot := slot, va := va, n := n, kind := kind, span := sp, fwd := [], obj := (s.core i).lh.objAt va
                      asked := !sp.remote, keep := true }
  let l := if kind.atomic || kind == .poll then l else { l with fwd := (s.core i).mem.forward l.unit sp }
  (((s.modMem i fun m => { m with loads := m.loads ++ [l] }).bump).askDue i)

/-- A load or atomic of `n` bytes at `va`: translation, counter, destination, start (R211). -/
def Ctx.load (x : Ctx) (a : Access) (va n : Nat) (dest : SlotM (Option Nat)) (kind : Option Nat → LoadKind) : SlotM Unit := do
  let sp ← x.translate a [(va, n)]
  x.raiseL
  let r ← dest
  atRetire fun s => s.startLoad x.i x.slot.code va n (kind r) sp

/-- The bytes of a store as L1 takes them, bound to the object of the access (R196). -/
def storeBytes (sp : Span) (va : Nat) (bytes : List Byte) (obj : Option Nat) (ser : Nat) (cmp : Bool) : List DirtyByte :=
  bytes.zipIdx.map fun b => { key := sp.key ((va + b.2) % 2 ^ 64), val := b.1, mask := 0xFF, obj := obj, ser := ser, cmp := cmp }

/-- A store starts (R215). -/
def State.startStore (s : State) (i slot va : Nat) (bytes : List Byte) (sp : Span) : State :=
  let c := s.core i
  let t : StoreOp := { id := s.serial, slot := slot, va := va, epoch := c.mem.epoch
                       bytes := storeBytes sp va bytes (c.lh.objAt va) s.serial false }
  (s.modMem i fun m => { m with stores := m.stores ++ [t] }).bump

/-- A store of bytes at `va`. -/
def Ctx.store (x : Ctx) (va : Nat) (bytes : List Byte) : SlotM Unit := do
  let sp ← x.translate .write [(va, bytes.length)]
  x.raiseS
  atRetire fun s => s.startStore x.i x.slot.code va bytes sp

/-! ### Scalar and vector loads and stores (R214 to R216) -/

/-- A scalar load. -/
def loadS (i : Instr) (n : Nat) (h : Hdr) (o : CI) : SlotOp :=
  mkOp i h fun x => do
    let va ← x.vaCI o
    x.load .read va n (x.pendS o.rd.toNat) .scalar

/-- A scalar store. -/
def storeS (i : Instr) (n : Nat) (h : Hdr) (o : CI) : SlotOp :=
  mkOp i h fun x => do
    let va ← x.vaCI o
    let v ← x.rS o.rd.toNat
    x.store va (toBytes n v.toNat)

/-- `ld`. -/
def ldOp (h : Hdr) (o : CI) : SlotOp := loadS (.ld h o) 8 h o
/-- `ld.w`. -/
def ldWOp (h : Hdr) (o : CI) : SlotOp := loadS (.ldW h o) 4 h o
/-- `ld.h`. -/
def ldHOp (h : Hdr) (o : CI) : SlotOp := loadS (.ldH h o) 2 h o
/-- `ld.b`. -/
def ldBOp (h : Hdr) (o : CI) : SlotOp := loadS (.ldB h o) 1 h o
/-- `st`. -/
def stOp (h : Hdr) (o : CI) : SlotOp := storeS (.st h o) 8 h o
/-- `st.w`. -/
def stWOp (h : Hdr) (o : CI) : SlotOp := storeS (.stW h o) 4 h o
/-- `st.h`. -/
def stHOp (h : Hdr) (o : CI) : SlotOp := storeS (.stH h o) 2 h o
/-- `st.b`. -/
def stBOp (h : Hdr) (o : CI) : SlotOp := storeS (.stB h o) 1 h o

/-- `vldm` (R216). -/
def vldmOp (h : Hdr) (o : CI) : SlotOp :=
  mkOp (.vldm h o) h fun x => do
    let va ← x.vaCI o
    x.need (va % 4 == 0) (word va) 0
    x.load .read va 256 (x.pendV o.rd.toNat) .vector

/-- `vstm` (R216). -/
def vstmOp (h : Hdr) (o : CI) : SlotOp :=
  mkOp (.vstm h o) h fun x => do
    let va ← x.vaCI o
    let v ← x.rV o.rd.toNat
    x.need (va % 4 == 0) (word va) 0
    x.store va (toBytes 256 v.toNat)

/-! ### Global atomics (R217, R218) -/

/-- Width in bits of an atomic. -/
def caWidth (o : CA) : Nat := if o.size = 0 then 32 else 64

/-- `amo`. -/
def amoOp (h : Hdr) (o : CA) : SlotOp :=
  mkOp (.amo h o) h fun x => do
    let va ← x.rS o.rb.toNat
    let v ← x.rS o.rc.toNat
    let w := caWidth o
    x.need (va.toNat % (w / 8) == 0) va 0
    x.load .atomic va.toNat (w / 8) (x.pendS o.rd.toNat) fun r => .amo r o.aop.toNat (word (v.toNat % 2 ^ w))

/-- `cas`: RB is read before RC and RD (log entry 63). -/
def casOp (h : Hdr) (o : CA) : SlotOp :=
  mkOp (.cas h o) h fun x => do
    let va ← x.rS o.rb.toNat
    let v ← x.rS o.rc.toNat
    let e ← x.rS o.rd.toNat
    let w := caWidth o
    x.need (va.toNat % (w / 8) == 0) va 0
    x.load .atomic va.toNat (w / 8) (x.pendS o.rd.toNat) fun r =>
      .cas r (word (e.toNat % 2 ^ w)) (word (v.toNat % 2 ^ w))

/-! ### Boxes in memory (R219 to R222) -/

/-- The byte ranges that a box reaches (R212): elements, scale indices, outlier slot. -/
def boxRanges (w : WindowWord) (box : TypeWord) (ext org : List Nat) : List (Nat × Nat) :=
  let es := (boxItems w box ext org).map fun e => (e.va, (e.bits + 7) / 8)
  let ss := (boxScales w box ext org).map fun n => (n.2.1, 1)
  joinRanges es ++ joinRanges ss ++ if winEsc w then [(winSlot w org, 512)] else []

/-- Origin coordinates of RX and RY (R219). -/
def originOf (a b : Word) : List Nat := [fld a 31 0, fld a 63 32, fld b 31 0, fld b 63 32]

/-- The window a slot names, with checks 1 and 2 of R219. -/
def Ctx.window (x : Ctx) (win : Nat) (org : List Nat) : SlotM WindowWord := do
  let w := match x.c.inst with | some i => i.windows[win]?.getD 0 | none => 0
  x.need (winValid w) 0 0
  match windowCheck w org with
  | some k => x.illegal (word win) (word k)
  | none => pure w

/-- The typing rule of a tile access (R60, R223, R225): the clipped box, unified with the tile's word where one is given. Of a
load the box type is also the derived word, charged to the destination tile `dest` (R51 step 5, R56). -/
def boxTyping (w : WindowWord) (win : Nat) (org : List Nat) (tile : Option (Origin × TypeWord)) (dest : Option Nat) :
    TyM (TypeWord × List Nat) :=
  atDest (match dest with | some t => tileOpnd 3 t | none => boxOpnd win) do
    let be ← boxAt w win true org
    match tile with
    | some (o, cur) => do
      checkWord (boxOpnd win) be.1
      checkWord o cur
      unifyAll (boxOpnd win) be.1 o cur
    | none => pure ()
    match dest with
    | some t => do
      let _ ← checkDerived (tileOpnd 3 t) be.1
    | none => pure ()
    pure be

/-- A tile load starts: it is outstanding, and reads of its bytes on other accelerators go out (R223). -/
def State.startTld (s : State) (i : Nat) (l : TldOp) : State :=
  ((s.modMem i fun m => { m with tlds := m.tlds ++ [l] }).bump).askDue i

/-- A tile store starts (R225). -/
def State.startTst (s : State) (i : Nat) (l : TstOp) : State := (s.modMem i fun m => { m with tsts := m.tsts ++ [l] }).bump

/-- `tld` (R223). -/
def tldOp (h : Hdr) (o : CW) : SlotOp :=
  mkOp (.tld h o) h fun x => do
    let a ← x.rS o.rx.toNat
    let b ← if o.ry = 0 then pure 0 else x.rS o.ry.toNat
    let t := o.tt.toNat
    let chk := bit o.mod 0
    let cur ← if chk then x.rTy t else pure 0
    let win := o.win.toNat
    let org := originOf a b
    let w ← x.window win org
    let r ← x.typing (boxTyping w win org (if chk then some (tileOpnd 3 t, cur) else none) (some t))
    let sp ← x.translate .read (boxRanges w r.1 r.2 org)
    x.raiseT
    let _ ← x.pend 2 t false
    atRetire fun s => s.startTld x.i
      { id := s.serial, slot := x.slot.code, tile := t, win := win, desc := w, box := r.1, ext := r.2, org := org, span := sp
        fwd := (s.core x.i).mem.forward 4 sp, asked := !sp.remote, keep := true }

/-- `tst` (R225). -/
def tstOp (h : Hdr) (o : CW) : SlotOp :=
  mkOp (.tst h o) h fun x => do
    let a ← x.rS o.rx.toNat
    let b ← if o.ry = 0 then pure 0 else x.rS o.ry.toNat
    let t := o.tt.toNat
    let cur ← x.rTy t
    let win := o.win.toNat
    let org := originOf a b
    let w ← x.window win org
    let r ← x.typing (boxTyping w win org (some (tileOpnd 1 t, cur)) none)
    let sp ← x.translate .write (boxRanges w r.1 r.2 org)
    x.raiseT
    atRetire fun s => s.startTst x.i
      { id := s.serial, slot := x.slot.code, tile := t, win := win, desc := w, box := r.1, ext := r.2, org := org, span := sp
        data := x.c.r.readT t, ocnt := tyOcnt cur, epoch := (s.core x.i).mem.epoch }

/-! ### Synchronisation (R226 to R229) -/

/-- The control node as an agent (R195), beside the agents that R333 numbers. -/
def hostAgent : Nat := 261

/-- Agent `b` lies within the scope of operation `a` (R199): agents by accelerator and the numbers of R333, an instance and its copy channels by
the instance. -/
def inScope (a b : SyncEvent) : Bool :=
  let die (x : Nat) : Nat := if x < 256 then x / 64 else x - 256
  match a.scope with
  | 0 => a.acc == b.acc && a.uid == b.uid && decide (a.agent < 256) && decide (b.agent < 256)
  | 1 => a.acc == b.acc && decide (a.agent < 256) && decide (b.agent < 256) && a.agent / 4 == b.agent / 4
  | 2 => a.acc == b.acc && decide (a.agent < 260) && decide (b.agent < 260) && die a.agent == die b.agent
  | 3 => a.acc == b.acc && b.agent != hostAgent
  | 4 => b.agent != hostAgent
  | _ => true

/-- Two operations name one object (R196): one partition's, or at domain and system scope one tenant's. -/
def SyncEvent.sameObj (a b : SyncEvent) : Bool :=
  a.tenant == b.tenant &&
  (match a.kind, b.kind with
   | .release o, .acquire p => o == p
   | .add k, .waitge l => k == l
   | _, _ => false) &&
  ((a.acc == b.acc && a.part == b.part) || (decide (4 ≤ a.scope) && decide (4 ≤ b.scope)))

/-- The operations synchronise (R199): each agent lies within the other's scope. A later access of the second is then ordered after the writes
that the first publishes; where they do not synchronise nothing orders them, and either value may be read (R208), so no step asks. -/
def SyncEvent.syncs (a b : SyncEvent) : Bool := a.sameObj b && inScope a b && inScope b a

/-- A place taken in the synchronisation order (R200). -/
def State.takePlace (s : State) (e : SyncEvent) : State := { s with sync := s.sync ++ [e] }

/-- An operation of an instance on core `agent`, or of its copy channels, in the synchronisation order. -/
def State.event (s : State) (own : Owner) (agent scope : Nat) (k : SyncKind) : SyncEvent :=
  { acc := s.accNum, agent := agent, uid := own.uid, tenant := s.tenant own.part, part := own.part, scope := scope, kind := k }

/-- The scope of a completion add (R206): package, or domain where the counter lies elsewhere. -/
def addScope (key : Nat) : Nat := if isRemote key then 4 else 3

/-- The outstanding releases behind which no store of their epoch has still to be performed send their markers, one for each native
port that carried some of the epoch's writes (R207, R336). -/
def State.closeEpochs (s : State) (i : Nat) : State :=
  (s.core i).mem.rels.foldl (fun s r =>
    let m := (s.core i).mem
    let waits := (m.stores.any fun t => decide (t.id < r.id) && t.bytes.any fun d => isRemote d.key) ||
      m.tsts.any fun t => decide (t.id < r.id) && t.span.remote
    match r.epoch with
    | none => s
    | some e =>
      if r.marked || waits then s
      else
        let mine := m.sent.filter fun x => x.1.1 == e
        let own := (s.core i).owner i
        let s := mine.foldl (fun s x =>
          let p := x.1.2
          let dst := ((s.routes.find? fun q => s.routePort q.1 == some p).map (·.1)).getD 0
          s.queueFlit p 0 (s.mkFlit (s.tenant own.part) i e dst 7 0 0 4 (toBytes 4 x.2))) s
        s.modMem i fun m =>
          { m with
            sent := m.sent.filter fun x => x.1.1 != e
            rels := m.rels.map fun q => if q.id = r.id then { q with marked := true, routes := mine.map fun x => (x.1.2, x.2) } else q }) s

/-- A release enters the agent's program order (R201). At domain or system scope it closes the epoch (R207). -/
def State.enterRelease (s : State) (i obj scope : Nat) : State :=
  let far := decide (4 ≤ scope)
  let m := (s.core i).mem
  let r : RelOp := { id := s.serial, obj := obj, scope := scope, epoch := if far then some (m.epoch % 256) else none
                     agent := i, marked := !far, routes := [] }
  (((s.modMem i fun m => { m with rels := m.rels ++ [r], epoch := if far then m.epoch + 1 else m.epoch }).bump).closeEpochs i)

/-- `rel`. -/
def relOp (h : Hdr) (o : CF) : SlotOp :=
  mkOp (.rel h o) h fun x => do
    if x.c.relIn.contains (x.c.x.hnd, x.c.pos) && x.slot == .C0 then pure ()
    else
      x.raiseR
      let f := fun s => State.enterRelease s x.i o.obj.toNat o.scope.toNat
      if x.slot = .C0 then modify fun b => { b with rel := some f }
      atRetire f

/-- An `acq` or `fence` in C1 enters the release of C0 ahead of it, and waits for it (R226). -/
def enterC0 : SlotM Bool := do
  let b ← get
  match b.rel with
  | some f => do
    modify fun b => { b with early := some f }
    pure true
  | none => pure false

/-- `acq` (R202): holds until every earlier release has taken its place, then takes its own and drops what L1 holds clean. -/
def acqOp (h : Hdr) (o : CF) : SlotOp :=
  mkOp (.acq h o) h fun x => do
    let entered ← enterC0
    holdUnless (!entered && x.c.mem.rels.isEmpty) .acq
    atRetire fun s => (s.modMem x.i CoreMem.dropClean).takePlace
      (s.event (x.c.owner x.i) x.i o.scope.toNat (.acquire o.obj.toNat))

/-- `xfence` (R203): writes complete on path a are in place for path b; L1 keeps no line from before where b is the core
path. -/
def xfenceOp (h : Hdr) (o : CF) : SlotOp :=
  mkOp (.xfence h o) h fun x => do
    let a := o.pa.toNat
    let b := o.pb.toNat
    if a = b then pure ()
    else if b = 0 then atRetire fun s => s.modMem x.i CoreMem.dropClean
    else if a = 0 ∨ 4 ≤ a then atRetire fun s => s.writeBack x.i fun _ => true
    else pure ()

/-- Core-path writes of an instance to other accelerators that await their responses. -/
def State.unacked (s : State) (uid : Nat) : Bool := s.remote.any fun r => r.own.uid == uid && !r.copy && !r.refused && r.access == 1

/-- Every core-path write of core i has been performed at a scope (R204). -/
def State.writesDone (s : State) (i scope : Nat) : Bool :=
  let m := (s.core i).mem
  m.stores.isEmpty && m.tsts.isEmpty && !(m.loads.any fun l => l.kind.atomic) && (scope == 0 || (m.dirty.isEmpty && !s.unacked (s.core i).uid))

/-- `fence` (R204, R229). -/
def fenceOp (h : Hdr) (o : CF) : SlotOp :=
  mkOp (.fence h o) h fun x => do
    let entered ← enterC0
    holdUnless (!entered && x.c.mem.rels.isEmpty && x.s.writesDone x.i o.scope.toNat) .fence
    atRetire fun s => s.modMem x.i CoreMem.dropClean

/-! ### waitge (R230) -/

/-- The counter at eight local home bytes, with the agent's own dirty bytes over them. -/
def State.counterAt (s : State) (i : Nat) (keys : List Nat) : Nat := ofBytes (keys.map fun k => s.l1Read i false k)

/-- A held `waitge` on a remote counter reads it again (R230). -/
def State.pollRemote (s : State) (i slot va : Nat) (sp : Span) : State :=
  if (s.core i).mem.loads.any fun l => l.kind == .poll && l.slot == slot then s
  else (s.modMem i fun m => { m with poll := m.poll.filter fun p => p.1 != slot }).startLoad i slot va 8 .poll sp

/-- Record steps of this package on a remote counter whose responses are still on the way take their places now (R200): a satisfied `waitge`
may have counted them (log entry 74). -/
def State.placeAdds (s : State) (key : Nat) : State :=
  let mine (r : RemReq) : Bool := r.access == 2 && !r.copy && !r.placed && !r.refused && r.key == key
  let s := (s.remote.filter mine).foldl (fun s r => s.takePlace (s.event r.own r.agent 4 (.add r.key))) s
  { s with remote := s.remote.map fun r => if mine r then { r with placed := true } else r }

/-- SYND1 of a tenant-key refusal (R213). -/
def keySynd (acc access : Nat) : Word := word (access <<< 16 ||| acc % 16384)

/-- Address, target and translation of a `waitge` are judged when its bundle first comes to issue (R230 check 2). -/
def Ctx.gate (x : Ctx) (va : Nat) : SlotM Span := do
  match assoc x.c.mem.gate x.slot.code with
  | some sp => pure sp
  | none => do
    x.need (va % 8 == 0) (word va) 0
    x.translate .read [(va, 8)]

/-- A `waitge` reads its local counter, with what the agent itself has written to it put in place first. An uncorrectable error in it is
charged as that of returning data is, and the `waitge` stays held (R189; log entry 73). -/
def State.readCounter (s : State) (i va : Nat) (keys : List Nat) : State :=
  let r := s.checkL1 i keys
  match r.2 with
  | some e => r.1.postAsync (s.core i).uid (eccCause i e va)
  | none => r.1.writeBack i fun d => keys.any fun k => k == d.key

/-- `waitge`: it takes its place after every release that the agent entered before (R200). A `rel` in C0 of its own bundle enters the agent's
program order at retire, for R226 gives the earlier entry to `acq` and `fence` alone, and the `waitge` does not wait for it (log entry 74). -/
def waitgeOp (h : Hdr) (o : CI) : SlotOp :=
  mkOp (.waitge h o) h fun x => do
    let va ← x.vaCI o
    let want ← x.rS o.rd.toNat
    let sp ← x.gate va
    let m := x.c.mem
    let released := m.rels.isEmpty
    let older := m.olderWriter (2 ^ 64) sp.keyRanges || m.olderStore (2 ^ 64) sp.keyRanges
    let keys := sp.keys
    let slot := x.slot.code
    modify fun b => { b with pre := fun s => (b.pre s).modMem x.i fun m => { m with gate := assocSet m.gate slot sp } }
    let seen := fun s : State => ((s.modMem x.i CoreMem.dropClean).placeAdds (keys.headD 0)).takePlace
      (s.event (x.c.owner x.i) x.i 5 (.waitge (keys.headD 0)))
    if sp.remote then
      match assoc m.poll slot with
      | some (.inr _) => x.fail 0x0D (word va) (keySynd (keyAcc (keys.headD 0)) 0) 0
      | some (.inl v) =>
        if want ≤ v && released then atRetire seen
        else do
          holdOn .waitge
          if want ≤ v then pure ()
          else modify fun b => { b with pre := fun s => (b.pre s).pollRemote x.i slot va sp }
      | none => do
        holdOn .waitge
        modify fun b => { b with pre := fun s => (b.pre s).pollRemote x.i slot va sp }
    else
      let bad := (x.s.errsBy (some x.i) true keys).any fun e => decide (2 ≤ e.bits)
      let put := fun s : State => s.readCounter x.i va keys
      modify fun b => { b with pre := fun s => put (b.pre s) }
      holdUnless (released && !older && !bad && decide (want.toNat ≤ x.s.counterAt x.i keys)) .waitge
      atRetire fun s => seen (put s)

/-! ### Meanings of single operations: a bundle that holds the operation and nothing else -/

/-- Meaning of LD. -/
def execLd (h : Hdr) (o : CI) (s : State) : Host.Outcome State Fault Refusal := issueOne (ldOp h o) s
/-- Meaning of LD_W. -/
def execLdW (h : Hdr) (o : CI) (s : State) : Host.Outcome State Fault Refusal := issueOne (ldWOp h o) s
/-- Meaning of LD_H. -/
def execLdH (h : Hdr) (o : CI) (s : State) : Host.Outcome State Fault Refusal := issueOne (ldHOp h o) s
/-- Meaning of LD_B. -/
def execLdB (h : Hdr) (o : CI) (s : State) : Host.Outcome State Fault Refusal := issueOne (ldBOp h o) s
/-- Meaning of ST. -/
def execSt (h : Hdr) (o : CI) (s : State) : Host.Outcome State Fault Refusal := issueOne (stOp h o) s
/-- Meaning of ST_W. -/
def execStW (h : Hdr) (o : CI) (s : State) : Host.Outcome State Fault Refusal := issueOne (stWOp h o) s
/-- Meaning of ST_H. -/
def execStH (h : Hdr) (o : CI) (s : State) : Host.Outcome State Fault Refusal := issueOne (stHOp h o) s
/-- Meaning of ST_B. -/
def execStB (h : Hdr) (o : CI) (s : State) : Host.Outcome State Fault Refusal := issueOne (stBOp h o) s
/-- Meaning of VLDM. -/
def execVldm (h : Hdr) (o : CI) (s : State) : Host.Outcome State Fault Refusal := issueOne (vldmOp h o) s
/-- Meaning of VSTM. -/
def execVstm (h : Hdr) (o : CI) (s : State) : Host.Outcome State Fault Refusal := issueOne (vstmOp h o) s
/-- Meaning of AMO. -/
def execAmo (h : Hdr) (o : CA) (s : State) : Host.Outcome State Fault Refusal := issueOne (amoOp h o) s
/-- Meaning of CAS. -/
def execCas (h : Hdr) (o : CA) (s : State) : Host.Outcome State Fault Refusal := issueOne (casOp h o) s
/-- Meaning of TLD. -/
def execTld (h : Hdr) (o : CW) (s : State) : Host.Outcome State Fault Refusal := issueOne (tldOp h o) s
/-- Meaning of TST. -/
def execTst (h : Hdr) (o : CW) (s : State) : Host.Outcome State Fault Refusal := issueOne (tstOp h o) s
/-- Meaning of REL. -/
def execRel (h : Hdr) (o : CF) (s : State) : Host.Outcome State Fault Refusal := issueOne (relOp h o) s
/-- Meaning of ACQ. -/
def execAcq (h : Hdr) (o : CF) (s : State) : Host.Outcome State Fault Refusal := issueOne (acqOp h o) s
/-- Meaning of XFENCE. -/
def execXfence (h : Hdr) (o : CF) (s : State) : Host.Outcome State Fault Refusal := issueOne (xfenceOp h o) s
/-- Meaning of FENCE. -/
def execFence (h : Hdr) (o : CF) (s : State) : Host.Outcome State Fault Refusal := issueOne (fenceOp h o) s
/-- Meaning of WAITGE. -/
def execWaitge (h : Hdr) (o : CI) (s : State) : Host.Outcome State Fault Refusal := issueOne (waitgeOp h o) s

end Sys2Proof.Machine
end

