-- ==== Sys2Proof/Machine/Copy.lean ====
section
/-! DEFINITION. The copy commands as they issue (R232 to R254): their checks and the push. -/

namespace Sys2Proof.Machine

/-- A failed check of R234: the value of the register at fault and its operand index. -/
def Ctx.opnd (x : Ctx) (ok : Bool) (v : Word) (k : Nat) : SlotM Unit := x.need ok v (word k)

/-- Bits 63:56 of a VA operand are 0 (R244). -/
def vaBits (a : Word) : Bool := fld a 63 56 == 0

/-- The address lies in the SRAM window (R175). -/
def inWindow (a : Word) : Bool := decide (Config.windowBase ≤ a.toNat) && decide (a.toNat < Config.vaLimit)

/-- The control register's own checks (R232, R234 check 1). -/
def Ctx.ctlCheck (x : Ctx) (d : Word) : SlotM Unit :=
  x.opnd (fld d 2 0 == 0 && (bit d 3 || (fld d 23 16 == 0 && fld d 15 4 == 0))) d 3

/-- The absolute time A of a TIME field at a push (R236). -/
def absTime (pcc time : Nat) : Int :=
  if time = 0 then 0
  else
    let base : Int := (pcc : Int) - (pcc % 2 ^ 40 : Nat) + time
    if base < (pcc : Int) - 2 ^ 39 then base + 2 ^ 40
    else if (pcc : Int) + 2 ^ 39 ≤ base then base - 2 ^ 40 else base

/-- The channel of a C slot (R232). -/
def chanOf (slot : Slot) : Nat := if slot = .C1 then 1 else 0

/-- Changes a channel of a core. -/
def Core.modCh (c : Core) (k : Nat) (f : Channel → Channel) : Core := { c with ch := vset c.ch k (f (vget c.ch k default)) }

/-- VA of the next spill-ring slot of a channel (R235). -/
def Core.ringVa (c : Core) (k : Nat) : Nat := ((vget c.spr k 0).toNat + 64 * ((vget c.ch k default).ring % 64)) % 2 ^ 64

/-- A push retires (R235): on chip while there is room, else into the ring slot, whose 64 bytes the model leaves free. -/
def State.pushCopy (s : State) (i k : Nat) (e : CopyEntry) (ring : Option Span) : State :=
  match ring with
  | none => s.modCore i fun c => c.modCh k fun h => { h with queue := h.queue ++ [e] }
  | some sp =>
    let cells := sp.keys.zipIdx.map fun z => (z.1, Config.spillByte s.serial z.2)
    let s := (s.writeHomes cells).bump
    s.modCore i fun c => c.modCh k fun h => { h with spilled := h.spilled ++ [e], ring := h.ring + 1 }

/-- What every copy command does once its own checks have passed: the spill slot's translation, C, the push (R211, R235). -/
def Ctx.push (x : Ctx) (kind : CopyKind) (o : CR) (ra rb rc rd : Word) (win : Nat := 0) (desc : WindowWord := 0)
    (ext org : List Nat := []) (box : TypeWord := 0) : SlotM Unit := do
  let k := chanOf x.slot
  let h := vget x.c.ch k default
  let spills := decide (16 ≤ h.queue.length) || !h.spilled.isEmpty
  let sp ← if spills then do
      let va := x.c.ringVa k
      let r := spanOf (x.s.page x.i .write) [(va, 64)]
      modify fun b => { b with miss := b.miss ++ r.2.1 }
      match r.2.2 with
      | some (a, f) => if r.2.1.isEmpty then x.fail 0x12 (word a) (pageSynd .write f) f.entry else pure (some r.1)
      | none => pure (some r.1)
    else pure none
  x.raiseC
  let own := x.c.owner x.i
  let record := (x.c.cbase.toNat + 16 * fld rd 15 4) % 2 ^ 64
  atRetire fun s => s.pushCopy x.i k
    { own := own, kind := kind, ra := ra, rb := rb, rc := rc, mod := o.mod, desc := desc, win := win, ext := ext, org := org, box := box
      at_ := absTime s.pcc (fld rd 63 24), add := word (fld rd 23 16), cen := bit rd 3, record := record } sp

/-- The four registers of a copy command. -/
def Ctx.crRegs (x : Ctx) (o : CR) : SlotM (Word × Word × Word × Word) := do
  let a ← x.rS o.ra.toNat
  let b ← x.rS o.rb.toNat
  let c ← x.rS o.rc.toNat
  let d ← x.rS o.rd.toNat
  pure (a, b, c, d)

/-- `copy` (R244). -/
def copyOp (h : Hdr) (o : CR) : SlotOp :=
  mkOp (.copy h o) h fun x => do
    let (a, b, c, d) ← x.crRegs o
    x.ctlCheck d
    x.opnd (vaBits a) a 0
    x.opnd (vaBits b) b 1
    x.opnd (fld c 63 32 == 0) c 2
    x.opnd (!bit o.mod 0 || inWindow a) a 0
    x.push .copy o a b c d

/-- `copy2d` (R245). -/
def copy2dOp (h : Hdr) (o : CR) : SlotOp :=
  mkOp (.copy2d h o) h fun x => do
    let (a, b, c, d) ← x.crRegs o
    x.ctlCheck d
    x.opnd (vaBits a) a 0
    x.opnd (vaBits b) b 1
    x.opnd (fld c 23 12 != 0) c 2
    x.opnd (fld c 11 0 != 0) c 2
    x.opnd (fld a 1 0 == 0) a 0
    x.opnd (fld b 1 0 == 0) b 1
    x.opnd (!bit o.mod 0 || inWindow a) a 0
    x.push .copy2d o a b c d

/-- Checks of `gath` and `scat` (R244). -/
def Ctx.rowChecks (x : Ctx) (a b c : Word) (ord : Bool) : SlotM Unit := do
  x.opnd (vaBits b) b 1
  x.opnd (vaBits c) c 2
  x.opnd (fld a 63 56 != 0) a 0
  x.opnd (fld a 6 0 == 0) a 0
  x.opnd (fld b 6 0 == 0) b 1
  x.opnd (fld c 2 0 == 0) c 2
  x.opnd (!ord || inWindow (a &&& 0x00FFFFFFFFFFFFFF)) a 0

/-- `gath` (R246). -/
def gathOp (h : Hdr) (o : CR) : SlotOp :=
  mkOp (.gath h o) h fun x => do
    let (a, b, c, d) ← x.crRegs o
    x.ctlCheck d
    x.rowChecks a b c (bit o.mod 0)
    x.push .gath o a b c d

/-- `scat` (R246). -/
def scatOp (h : Hdr) (o : CR) : SlotOp :=
  mkOp (.scat h o) h fun x => do
    let (a, b, c, d) ← x.crRegs o
    x.ctlCheck d
    x.rowChecks a b c false
    x.push .scat o a b c d

/-- Element size of `cred` by ET (R247). -/
def credSize (et : Nat) : Nat := if et = 2 then 2 else 4

/-- `cred` (R247). -/
def credOp (h : Hdr) (o : CR) : SlotOp :=
  mkOp (.cred h o) h fun x => do
    let (a, b, c, d) ← x.crRegs o
    x.ctlCheck d
    x.opnd (vaBits a) a 0
    x.opnd (vaBits b) b 1
    let et := fld c 38 36
    let op := fld c 34 32
    let z := credSize et
    x.opnd (fld c 63 39 == 0 && (et == 0 || et == 2 || et == 4) && (!bit c 35 || (et == 4 && op == 0)) && decide (op ≤ 2) &&
      fld c 31 0 % z == 0) c 2
    x.opnd (a.toNat % z == 0) a 0
    x.opnd (b.toNat % z == 0) b 1
    x.push .cred o a b c d

/-- Every bank that a ring and its release word touch is in scratchpad mode and READY (R249). -/
def ringOk (s : State) (i base slots : Nat) : Bool :=
  let last := base + 1024 * slots + 3
  decide (last < 2 ^ 22) && (List.range (last / 65536 + 1 - base / 65536)).all fun k =>
    let b := (s.cluster (clusterOf i)).bank (base / 65536 + k)
    b.mode == .spad && b.ready

/-- `cexp` (R248, R249). -/
def cexpOp (h : Hdr) (o : CR) : SlotOp :=
  mkOp (.cexp h o) h fun x => do
    let (a, b, c, d) ← x.crRegs o
    x.ctlCheck d
    let ring := bit o.mod 0
    x.opnd (if ring then fld a 63 30 == 0 && fld a 23 22 == 0 else vaBits a) a 0
    x.opnd (vaBits b) b 1
    x.opnd (fld b 4 0 == 0) b 1
    if ring then do
      x.opnd (fld a 29 24 != 0) a 0
      x.opnd (fld a 9 0 == 0) a 0
      x.opnd (ringOk x.s x.i (fld a 21 0) (fld a 29 24)) a 0
    else x.opnd (fld a 6 0 == 0) a 0
    x.push .cexp o a b c d

/-- The box of a window operand of `copyw` or `get` (R250): no binding is made. -/
def Ctx.copyBox (x : Ctx) (win : Nat) (org : List Nat) : SlotM (WindowWord × TypeWord × List Nat) := do
  let w ← x.window win org
  let r ← x.typing (do
    let be ← boxAt w win false org
    checkWord (boxOpnd win) be.1
    pure be)
  pure (w, r.1, r.2)

/-- Origin of a window operand of `copyw` and `get` (R250). -/
def copyOrg (xy z : Word) : List Nat := [fld xy 31 0, fld xy 63 32, fld z 63 32, 0]

/-- `copyw.ld` and `copyw.st` (R250); the SRAM-window check of `.ord` comes after the reserved bits (log entry 80). -/
def copyw (i : Instr) (kind : CopyKind) (h : Hdr) (o : CR) : SlotOp :=
  mkOp i h fun x => do
    let (a, b, c, d) ← x.crRegs o
    x.ctlCheck d
    x.opnd (vaBits a) a 0
    x.opnd (fld a 7 0 == 0) a 0
    x.opnd (fld c 31 8 == 0) c 2
    x.opnd (!bit o.mod 1 || inWindow a) a 0
    let org := copyOrg b c
    let (w, box, ext) ← x.copyBox (fld c 7 0) org
    x.push kind o a b c d (fld c 7 0) w ext org box

/-- `copyw.ld`. -/
def copywLdOp (h : Hdr) (o : CR) : SlotOp := copyw (.copywLd h o) .copywLd h o
/-- `copyw.st`. -/
def copywStOp (h : Hdr) (o : CR) : SlotOp := copyw (.copywSt h o) .copywSt h o

/-- The type word a send carries (R61): variables become constants. -/
def carryType (d : Dims) (t : Nat) (ty : TypeWord) : Except TyFault TypeWord :=
  match (List.range 4).find? fun k => match extVal d (tyExt ty k) with | some v => decide (4095 < v) | none => true with
  | some k =>
    let m := extMark d (tyExt ty k)
    .error (shape (tileOpnd 0 t) k 2 (if (extVal d (tyExt ty k)).isSome then 4095 else m) m)
  | none => .ok ((List.range 4).foldl (fun w k => putBits w (16 * k) 16 ((extVal d (tyExt ty k)).getD 0)) ty)

/-- `put` (R251). -/
def putOp (h : Hdr) (o : CR) : SlotOp :=
  mkOp (.put h o) h fun x => do
    let (a, b, c, d) ← x.crRegs o
    let t := fld c 3 0
    let ty ← x.rTy t
    x.ctlCheck d
    x.opnd (fld a 63 32 == 0 && fld a 15 14 == 0) a 0
    x.opnd (vaBits b) b 1
    x.opnd (fld b 7 0 == 0) b 1
    x.opnd (fld c 63 4 == 0) c 2
    if tyValid ty then pure () else
      let f := shape (tileOpnd 0 t) 0 0 1 0
      x.fail f.code f.synd0 f.synd1 f.synd2
    match carryType (← get).dims t ty with
    | .ok w => x.push .put o a b c d (box := w)
    | .error f => x.fail f.code f.synd0 f.synd1 f.synd2

/-- `get` (R251). -/
def getOp (h : Hdr) (o : CR) : SlotOp :=
  mkOp (.get h o) h fun x => do
    let (a, b, c, d) ← x.crRegs o
    x.ctlCheck d
    x.opnd (fld b 31 8 == 0) b 1
    x.opnd (fld c 63 32 == 0 && fld c 15 14 == 0) c 2
    let org := copyOrg a b
    let (w, box, ext) ← x.copyBox (fld b 7 0) org
    x.push .get o a b c d (fld b 7 0) w ext org box

/-- `ssend` (R253). -/
def ssendOp (h : Hdr) (o : CR) : SlotOp :=
  mkOp (.ssend h o) h fun x => do
    let (a, b, c, d) ← x.crRegs o
    x.ctlCheck d
    x.opnd (vaBits a) a 0
    x.opnd (vaBits b) b 1
    x.opnd (fld b 2 0 == 0) b 1
    x.opnd (fld c 55 50 == 0 && fld c 31 24 == 0) c 2
    x.push .ssend o a b c d

/-- `cadd` (R254). With RA ≠ 0 the counter gains the register instead of ADD. -/
def caddOp (h : Hdr) (o : CR) : SlotOp :=
  mkOp (.cadd h o) h fun x => do
    let (a, b, c, d) ← x.crRegs o
    x.ctlCheck d
    x.opnd (bit d 3 && (o.ra == 0 || fld d 23 16 == 0)) d 3
    x.push .cadd o a b c d

/-- What the completion step of an entry adds to its counter (R238, R254). -/
def CopyEntry.addend (e : CopyEntry) : Word := if e.kind = .cadd then e.add + e.ra else e.add

/-! ### Meanings of single operations: a bundle that holds the operation and nothing else -/

/-- Meaning of COPY. -/
def execCopy (h : Hdr) (o : CR) (s : State) : Host.Outcome State Fault Refusal := issueOne (copyOp h o) s
/-- Meaning of COPY2D. -/
def execCopy2d (h : Hdr) (o : CR) (s : State) : Host.Outcome State Fault Refusal := issueOne (copy2dOp h o) s
/-- Meaning of GATH. -/
def execGath (h : Hdr) (o : CR) (s : State) : Host.Outcome State Fault Refusal := issueOne (gathOp h o) s
/-- Meaning of SCAT. -/
def execScat (h : Hdr) (o : CR) (s : State) : Host.Outcome State Fault Refusal := issueOne (scatOp h o) s
/-- Meaning of CRED. -/
def execCred (h : Hdr) (o : CR) (s : State) : Host.Outcome State Fault Refusal := issueOne (credOp h o) s
/-- Meaning of CEXP. -/
def execCexp (h : Hdr) (o : CR) (s : State) : Host.Outcome State Fault Refusal := issueOne (cexpOp h o) s
/-- Meaning of COPYW_LD. -/
def execCopywLd (h : Hdr) (o : CR) (s : State) : Host.Outcome State Fault Refusal := issueOne (copywLdOp h o) s
/-- Meaning of COPYW_ST. -/
def execCopywSt (h : Hdr) (o : CR) (s : State) : Host.Outcome State Fault Refusal := issueOne (copywStOp h o) s
/-- Meaning of PUT. -/
def execPut (h : Hdr) (o : CR) (s : State) : Host.Outcome State Fault Refusal := issueOne (putOp h o) s
/-- Meaning of GET. -/
def execGet (h : Hdr) (o : CR) (s : State) : Host.Outcome State Fault Refusal := issueOne (getOp h o) s
/-- Meaning of SSEND. -/
def execSsend (h : Hdr) (o : CR) (s : State) : Host.Outcome State Fault Refusal := issueOne (ssendOp h o) s
/-- Meaning of CADD. -/
def execCadd (h : Hdr) (o : CR) (s : State) : Host.Outcome State Fault Refusal := issueOne (caddOp h o) s

end Sys2Proof.Machine
end

