-- ==== Sys2Proof/Machine/Flags.lean ====
section
/-! DEFINITION. Numbers and flags (R62 to R84): the floating formats, exact values, rounding, exact sums, the IEEE operations and
special functions, conversion to integers, saturation, codebook weights. -/

namespace Sys2Proof.Machine

/-- Flags of FPFLAGS (R82). -/
abbrev Flags := BitVec 6
/-- SAT. -/
def flagSat : Flags := 0x20
/-- NV. -/
def flagNV : Flags := 0x10
/-- DZ. -/
def flagDZ : Flags := 0x08
/-- OF. -/
def flagOF : Flags := 0x04
/-- UF. -/
def flagUF : Flags := 0x02
/-- NX. -/
def flagNX : Flags := 0x01
/-- A flag when a condition holds. -/
def flagIf (c : Bool) (f : Flags) : Flags := if c then f else 0

/-- Rounding modes (R67). -/
inductive RMode where
  | rne | rtz | rup | rdn
  deriving DecidableEq, Repr

/-- The mode of an RM field. -/
def rmode (rm : Nat) : RMode := match rm with | 0 => .rne | 1 => .rtz | 2 => .rup | _ => .rdn

/-- A floating format (R62): widths, bias, largest finite value as mantissa and exponent, whether it has infinities,
whether its NaNs can signal, and its canonical NaN. -/
structure FFmt where
  w     : Nat
  fb    : Nat
  bias  : Nat
  maxM  : Nat
  maxQ  : Int
  inf   : Bool
  sig   : Bool
  nan   : Nat
  deriving DecidableEq, Repr

/-- FP64. -/
def fp64 : FFmt := { w := 64, fb := 52, bias := 1023, maxM := 2 ^ 53 - 1, maxQ := 971, inf := true, sig := true, nan := 0x7FF8000000000000 }
/-- FP32. -/
def fp32 : FFmt := { w := 32, fb := 23, bias := 127, maxM := 2 ^ 24 - 1, maxQ := 104, inf := true, sig := true, nan := 0x7FC00000 }
/-- FP16. -/
def fp16 : FFmt := { w := 16, fb := 10, bias := 15, maxM := 2 ^ 11 - 1, maxQ := 5, inf := true, sig := true, nan := 0x7E00 }
/-- BF16. -/
def bf16 : FFmt := { w := 16, fb := 7, bias := 127, maxM := 2 ^ 8 - 1, maxQ := 120, inf := true, sig := true, nan := 0x7FC0 }
/-- FP8 E4M3. -/
def e4m3 : FFmt := { w := 8, fb := 3, bias := 7, maxM := 14, maxQ := 5, inf := false, sig := false, nan := 0x7F }
/-- FP8 E5M2. -/
def e5m2 : FFmt := { w := 8, fb := 2, bias := 15, maxM := 7, maxQ := 13, inf := true, sig := false, nan := 0x7E }
/-- FP4 E2M1, which has no NaN: a NaN becomes +0 (R68). -/
def fp4 : FFmt := { w := 4, fb := 1, bias := 1, maxM := 3, maxQ := 1, inf := false, sig := false, nan := 0 }

/-- The floating format of an FMT code (R47), none for integers and the codebook. -/
def ffmtOf (fmt : Nat) : Option FFmt :=
  match fmt with
  | 1 => some fp64 | 2 => some fp32 | 3 => some fp16 | 4 => some bf16 | 5 => some e4m3 | 6 => some e5m2 | 7 => some fp4 | _ => none

/-- The floating format of an ET code (R147). -/
def ffmtEt (et : Nat) : FFmt := match et with | 0 => fp32 | 1 => fp64 | 2 => bf16 | _ => fp16

/-- An exact value: a NaN, which `sig` marks as raising NV; an infinity; or (−1)^neg × mant × 2^exp. -/
inductive Num where
  | nan (sig : Bool)
  | inf (neg : Bool)
  | fin (neg : Bool) (mant : Nat) (exp : Int)
  deriving DecidableEq, Repr

/-- An integer as an exact value. -/
def Num.ofInt (x : Int) : Num := .fin (decide (x < 0)) x.natAbs 0
/-- The number is a NaN. -/
def Num.isNan : Num → Bool | .nan _ => true | _ => false
/-- NV is raised by taking this input. -/
def Num.raises : Num → Bool | .nan s => s | _ => false
/-- The sign. -/
def Num.neg? : Num → Bool | .nan _ => false | .inf s => s | .fin s _ _ => s
/-- The number is a zero. -/
def Num.isZero : Num → Bool | .fin _ 0 _ => true | _ => false
/-- The sign inverted. -/
def Num.negate : Num → Num | .nan s => .nan s | .inf s => .inf (!s) | .fin s m e => .fin (!s) m e
/-- The magnitude. -/
def Num.abs : Num → Num | .nan s => .nan s | .inf _ => .inf false | .fin _ m e => .fin false m e

/-- Value of a code (R62, R63). -/
def FFmt.decode (f : FFmt) (code : Nat) : Num :=
  let s := code.testBit (f.w - 1)
  let eb := f.w - 1 - f.fb
  let ex := code / 2 ^ f.fb % 2 ^ eb
  let fr := code % 2 ^ f.fb
  if f.inf && ex == 2 ^ eb - 1 then
    if fr = 0 then .inf s else .nan (f.sig && !fr.testBit (f.fb - 1))
  else if f.nan != 0 && !f.inf && code % 2 ^ (f.w - 1) == 2 ^ (f.w - 1) - 1 then .nan false
  else if ex = 0 then .fin s fr (1 - (f.bias : Int) - f.fb)
  else .fin s (fr + 2 ^ f.fb) ((ex : Int) - f.bias - f.fb)

/-! ### Rounding (R67, R68) -/

/-- Rounds mant × 2^−k to an integer: the result and whether it is inexact. -/
def roundShift (m : RMode) (neg : Bool) (mant : Nat) (k : Int) : Nat × Bool :=
  if k ≤ 0 then (mant * 2 ^ (-k).toNat, false)
  else
    let d := 2 ^ k.toNat
    let q := mant / d
    let r := mant % d
    let up := match m with
      | .rne => decide (d < 2 * r) || (decide (d = 2 * r) && q % 2 == 1)
      | .rtz => false
      | .rup => !neg && r != 0
      | .rdn => neg && r != 0
    (if up then q + 1 else q, r != 0)

/-- Sign bit of a code. -/
def FFmt.sign (f : FFmt) (neg : Bool) : Nat := if neg then 2 ^ (f.w - 1) else 0
/-- Code of a finite magnitude m × 2^q with q at the format's granularity there. -/
def FFmt.pack (f : FFmt) (neg : Bool) (m : Nat) (q : Int) : Nat :=
  f.sign neg + (if m < 2 ^ f.fb then m else (q + f.fb + f.bias).toNat * 2 ^ f.fb + (m - 2 ^ f.fb))
/-- Code of the largest finite value. -/
def FFmt.maxCode (f : FFmt) (neg : Bool) : Nat := f.pack neg f.maxM f.maxQ
/-- Code of an infinity. -/
def FFmt.infCode (f : FFmt) (neg : Bool) : Nat := f.sign neg + (2 ^ (f.w - 1 - f.fb) - 1) * 2 ^ f.fb

/-- The result of an overflow (R68). -/
def FFmt.overflow (f : FFmt) (m : RMode) (neg : Bool) : Nat :=
  if !f.inf then f.maxCode neg
  else match m with
    | .rne => f.infCode neg
    | .rtz => f.maxCode neg
    | .rup => if neg then f.maxCode neg else f.infCode neg
    | .rdn => if neg then f.infCode neg else f.maxCode neg

/-- A finite magnitude rounded with an unbounded exponent exceeds the largest finite value. -/
def FFmt.above (f : FFmt) (m : Nat) (q : Int) : Bool :=
  if q ≤ f.maxQ then decide (f.maxM * 2 ^ (f.maxQ - q).toNat < m) else decide (f.maxM < m * 2 ^ (q - f.maxQ).toNat)

/-- `round` of R84 to a floating format: the code and the flags. -/
def FFmt.round (f : FFmt) (m : RMode) (x : Num) : Nat × Flags :=
  match x with
  | .nan s => (f.nan, flagIf (s || !f.inf) flagNV)
  | .inf s => if f.inf then (f.infCode s, 0) else (f.maxCode s, flagNV)
  | .fin s 0 _ => (f.sign s, 0)
  | .fin s mant e =>
    -- granularity of the value's binade, with the exponent unbounded and as the format has it
    let q : Int := e + (mant.log2 : Int) - f.fb
    let qmin : Int := 1 - (f.bias : Int) - f.fb
    let u := roundShift m s mant (q - e)
    if f.above u.1 q then (f.overflow m s, flagOF ||| flagNX)
    else
      let tiny := decide (q < qmin) && decide (u.1 < 2 ^ (f.fb + 1) ∨ q + 1 < qmin)
      let q' := max q qmin
      let r := roundShift m s mant (q' - e)
      (f.pack s r.1 q', flagIf (tiny && r.2) flagUF ||| flagIf r.2 flagNX)

/-- Float to integer of `w` bits (R68): the value, the flags, and whether it was out of range. -/
def Num.toInt (w : Nat) (m : RMode) (x : Num) : Int × Flags :=
  let hi : Int := 2 ^ (w - 1) - 1
  let lo : Int := -2 ^ (w - 1)
  match x with
  | .nan _ => (0, flagNV)
  | .inf s => (if s then lo else hi, flagNV)
  | .fin s mant e =>
    let r := roundShift m s mant (-e)
    let v : Int := if s then -(r.1 : Int) else r.1
    if hi < v then (hi, flagNV) else if v < lo then (lo, flagNV) else (v, flagIf r.2 flagNX)

/-! ### Exact arithmetic (R76, R79) -/

/-- Exact product; 0 × ∞ raises NV. -/
def Num.mul : Num → Num → Num
  | .nan s, y => .nan (s || y.raises)
  | x, .nan s => .nan (s || x.raises)
  | .inf s, .inf t => .inf (s != t)
  | .inf s, .fin t m _ => if m = 0 then .nan true else .inf (s != t)
  | .fin s m _, .inf t => if m = 0 then .nan true else .inf (s != t)
  | .fin s m e, .fin t n g => .fin (s != t) (m * n) (e + g)

/-- Sum of finite terms as an integer times 2^exp. -/
def finSum : List Num → Int × Int
  | [] => (0, 0)
  | .fin s m e :: r =>
    let a := finSum r
    let v : Int := if s then -(m : Int) else m
    if m = 0 then a
    else if a.1 = 0 then (v, e)
    else if e ≤ a.2 then (v + a.1 * 2 ^ (a.2 - e).toNat, e) else (v * 2 ^ (e - a.2).toNat + a.1, a.2)
  | _ :: r => finSum r

/-- `exact_sum` (R79); `zneg` is the sign of a zero sum. -/
def sumWith (terms : List Num) (zneg : Bool) : Num :=
  let pos := terms.any fun t => t == .inf false
  let neg := terms.any fun t => t == .inf true
  if terms.any Num.isNan || (pos && neg) then .nan (terms.any Num.raises || (pos && neg))
  else if pos then .inf false
  else if neg then .inf true
  else
    let a := finSum terms
    if a.1 = 0 then .fin zneg 0 0 else .fin (decide (a.1 < 0)) a.1.natAbs a.2

/-- `exact_sum` of R79: a zero sum is −0 when every term is −0, or under RDN when some term is not zero. -/
def exactSum (m : RMode) (terms : List Num) : Num :=
  let allNegZero := terms.all fun t => t.isZero && t.neg?
  sumWith terms (allNegZero || (m == .rdn && terms.any fun t => !t.isZero))

/-- The sum of an IEEE addition (R151): a zero sum of terms that do not share their sign is −0 under RDN, +0 otherwise. -/
def ieeeSum (m : RMode) (terms : List Num) : Num :=
  let allNeg := terms.all fun t => t.isZero && t.neg?
  let allPos := terms.all fun t => t.isZero && !t.neg?
  sumWith terms (allNeg || (m == .rdn && !allPos))

/-! ### Division, roots, exponential and logarithm (R80) -/

/-- Largest r with r × r ≤ x, for x below 4^n. -/
def isqrt (x : Nat) : Nat → Nat → Nat
  | 0, r => r
  | n + 1, r => if (r + 2 ^ n) * (r + 2 ^ n) ≤ x then isqrt x n (r + 2 ^ n) else isqrt x n r

/-- A value known from below to many more bits than any format holds: one more bit says that something is missing. -/
def sticky (neg : Bool) (m : Nat) (exact : Bool) (e : Int) : Num := .fin neg (2 * m + b2n (!exact)) (e - 1)

/-- Quotient and its flags apart from rounding. -/
def Num.div (x y : Num) : Num × Flags :=
  match x, y with
  | .nan s, y => (.nan (s || y.raises), 0)
  | x, .nan s => (.nan (s || x.raises), 0)
  | .inf _, .inf _ => (.nan true, 0)
  | .inf s, .fin t _ _ => (.inf (s != t), 0)
  | .fin s _ _, .inf t => (.fin (s != t) 0 0, 0)
  | .fin s m e, .fin t n g =>
    if n = 0 then if m = 0 then (.nan true, 0) else (.inf (s != t), flagDZ)
    else
      let k := 128 + n.log2
      let a := m * 2 ^ k
      (sticky (s != t) (a / n) (a % n == 0) (e - g - k), 0)

/-- A finite value with an even exponent. -/
def evenExp (m : Nat) (e : Int) : Nat × Int := if e % 2 = 0 then (m, e) else (2 * m, e - 1)

/-- Square root. -/
def Num.sqrt (x : Num) : Num :=
  match x with
  | .nan s => .nan s
  | .inf s => if s then .nan true else .inf false
  | .fin s m e =>
    if m = 0 then .fin s 0 0
    else if s then .nan true
    else
      let a := evenExp m e
      let b := a.1 * 2 ^ 256
      let r := isqrt b (b.log2 / 2 + 1) 0
      sticky false r (r * r == b) (a.2 / 2 - 128)

/-- Reciprocal square root (R80). -/
def Num.rsqrt (x : Num) : Num × Flags :=
  match x with
  | .nan s => (.nan s, 0)
  | .inf s => (if s then .nan true else .fin false 0 0, 0)
  | .fin s m e =>
    if m = 0 then (.inf s, flagDZ)
    else if s then (.nan true, 0)
    else
      let a := evenExp m e
      let b := 2 ^ 400 / a.1
      let r := isqrt b (b.log2 / 2 + 1) 0
      (sticky false r (r * r * a.1 == 2 ^ 400) (-(a.2 / 2) - 200), 0)

/-- 2^(f / 2^n) in units of 2^−256, from below: the roots 2^(2^−i) are multiplied where the bits of f are 1. -/
def expFrac (f n : Nat) : Nat → Nat → Nat → Nat
  | 0, _, acc => acc
  | fuel + 1, root, acc =>
    -- `root` is 2^(2^−i) for the bit i below the point that comes next
    let i := 256 - fuel
    let acc := if decide (i ≤ n) && f.testBit (n - i) then acc * root / 2 ^ 256 else acc
    expFrac f n fuel (isqrt (root * 2 ^ 256) 258 0) acc

/-- Exponential to base 2 (R80). -/
def Num.exp2 (x : Num) : Num :=
  match x with
  | .nan s => .nan s
  | .inf s => if s then .fin false 0 0 else .inf false
  | .fin s m e =>
    if m = 0 then .fin false 1 0
    else if 13 ≤ (m.log2 : Int) + e then sticky false 1 false (if s then -8192 else 8192)
    else
      -- x as a whole number of 2^−n
      let n := (-e).toNat
      let v : Int := (if s then -(m : Int) else m) * 2 ^ (e + n).toNat
      let k := v / 2 ^ n
      let f := (v % 2 ^ n).toNat
      if f = 0 then .fin false 1 k
      else sticky false (expFrac f n 256 (isqrt (2 * 2 ^ 512) 258 0) (2 ^ 256)) false (k - 256)

/-- Bits below the point of log2 of y / 2^800, for y from 2^800 up to 2^801, by repeated squaring. -/
def logFrac : Nat → Nat → Nat → Nat
  | 0, _, acc => acc
  | n + 1, y, acc =>
    let z := y * y / 2 ^ 800
    if 2 ^ 801 ≤ z then logFrac n (z / 2) (2 * acc + 1) else logFrac n z (2 * acc)

/-- Logarithm to base 2 (R80). -/
def Num.log2 (x : Num) : Num × Flags :=
  match x with
  | .nan s => (.nan s, 0)
  | .inf s => (if s then .nan true else .inf false, 0)
  | .fin s m e =>
    if m = 0 then (.inf true, flagDZ)
    else if s then (.nan true, 0)
    else
      let k : Int := e + (m.log2 : Int)
      if m = 2 ^ m.log2 then (Num.ofInt k, 0)
      else
        let l := logFrac 256 (m * 2 ^ 800 / 2 ^ m.log2) 0
        let v : Int := k * 2 ^ 256 + l
        if 0 ≤ v then (sticky false v.toNat false (-256), 0) else (sticky true ((-v).toNat - 1) false (-256), 0)

/-! ### Order (R81, R155) -/

/-- Position of a code among the codes of its format, −0 and +0 together. -/
def FFmt.key (f : FFmt) (code : Nat) : Int :=
  let m : Nat := code % 2 ^ (f.w - 1)
  if code.testBit (f.w - 1) then -(m : Int) else m

/-- Position with −0 below +0. -/
def FFmt.keyZ (f : FFmt) (code : Nat) : Int := if code.testBit (f.w - 1) then f.key code - 1 else f.key code

/-- `fmin` and `fmax` (R81). -/
def FFmt.minmax (f : FFmt) (isMax : Bool) (a b : Nat) : Nat × Flags :=
  let x := f.decode a
  let y := f.decode b
  if x.isNan || y.isNan then (f.nan, flagIf (x.raises || y.raises) flagNV)
  else if isMax then (if f.keyZ a < f.keyZ b then b else a, 0) else (if f.keyZ b < f.keyZ a then b else a, 0)

/-- An IEEE operation on codes: decode, compute exactly, round. -/
def FFmt.add (f : FFmt) (m : RMode) (a b : Nat) : Nat × Flags := f.round m (ieeeSum m [f.decode a, f.decode b])

/-- The sum of two codes by R79, rounded once. -/
def FFmt.sum (f : FFmt) (m : RMode) (a b : Nat) : Nat × Flags := f.round m (exactSum m [f.decode a, f.decode b])

/-! ### Integers (R64) -/

/-- Two's-complement reading of the low `w` bits. -/
def sgn (w x : Nat) : Int := let y := x % 2 ^ w; if y.testBit (w - 1) then (y : Int) - 2 ^ w else y
/-- `wrap`: the low `w` bits of an integer. -/
def wrap (w : Nat) (x : Int) : Nat := (x % 2 ^ w).toNat
/-- Clamps to the signed range of `n` bits; the flag says whether that changed it. -/
def clampS (n : Nat) (x : Int) : Int × Bool :=
  let hi : Int := 2 ^ (n - 1) - 1
  let lo : Int := -2 ^ (n - 1)
  if hi < x then (hi, true) else if x < lo then (lo, true) else (x, false)
/-- An integer result, clamped under `.sat`. -/
def intRes (w : Nat) (sat : Bool) (x : Int) : Nat × Flags :=
  if sat then
    let c := clampS w x
    (wrap w c.1, flagIf c.2 flagSat)
  else (wrap w x, 0)

/-! ### Codebook weights (R65) -/

/-- Weight k of a codebook index under a table: sign and twice the magnitude. -/
def cbWeight (tbl : Vector (BitVec 16) 256) (index k : Nat) : Num :=
  let row := vget tbl (index / 256 % 256) 0
  let c := (row.toNat >>> (2 * k)) % 4
  let sgnBit (i : Nat) : Bool := index.testBit (i + 1)
  let s := if k < 7 then sgnBit k else (List.range 7).foldl (fun a i => a != sgnBit i) false
  let m := if index.testBit 0 then 2 * c else 2 * c + 1
  if m = 0 then .fin false 0 0 else .fin s m (-1)

end Sys2Proof.Machine
end

