-- ==== Sys2Proof/Machine/MemEvents.lean ====
section
/-! DEFINITION. Core-path accesses after issue: returning data (R28, R214 to R218, R223, R224), stores performed (R215, R225),
releases that take their place (R201), write-back (R229), responses from the fabric (R213, R341). -/

namespace Sys2Proof.Machine

/-- A counter of class L falls, and a retiring instance may leave (R19, R28). -/
def State.fallL (s : State) (i : Nat) : State := (s.modCore i fun c => { c with cnt := { c.cnt with l := c.cnt.l - 1 }, drops := { c.lost s.pcc with l := (c.lost s.pcc).l + 1 } }).retireCheck i
/-- S falls. -/
def State.fallS (s : State) (i : Nat) : State := (s.modCore i fun c => { c with cnt := { c.cnt with s := c.cnt.s - 1 }, drops := { c.lost s.pcc with s := (c.lost s.pcc).s + 1 } }).retireCheck i
/-- T falls. -/
def State.fallT (s : State) (i : Nat) : State := (s.modCore i fun c => { c with cnt := { c.cnt with t := c.cnt.t - 1 }, drops := { c.lost s.pcc with t := (c.lost s.pcc).t + 1 } }).retireCheck i

/-- Keys of an access that are read from a home in this package: home memory, or a bank of the cluster. -/
def nearKeys (span : Span) (fwd : List Host.Cell) : List Nat :=
  (span.keys.filter fun k => !isRemote k && decide (k < noKey) && !(fwd.any fun c => c.1 == k))

/-- The bytes of an access by key: forwarded, supplied by the fabric, or read through L1. -/
def State.gather (s : State) (i : Nat) (stale : Bool) (span : Span) (fwd : List Host.Cell) (remote : List Byte) : Nat → Byte :=
  let far := (farKeys span fwd).zip remote
  fun k => match fwd.find? fun c => c.1 == k with
    | some c => c.2
    | none => match far.find? fun c => c.1 == k with
      | some c => c.2
      | none => s.l1Read i stale k

/-- The register a load writes. -/
def LoadKind.dest : LoadKind → Option (Nat × Nat)
  | .scalar r | .amo r _ _ | .cas r _ _ => r.map fun n => (0, n)
  | .vector r => r.map fun n => (1, n)
  | .poll => none

/-- Returned data is written and the pending bit clears (R214). -/
def Core.loadWrite (c : Core) (k : LoadKind) (x : Nat) : Core :=
  match k.dest with
  | some (0, r) => (c.land (.s r (word x))).clearPend (0, r)
  | some (_, r) => (c.land (.v r (BitVec.ofNat 2048 x) (BitVec.allOnes 2048))).clearPend (1, r)
  | none => c

/-- A load or atomic may return: its request has left, nothing older on its bytes is outstanding (R198), and the fabric has supplied
what lies elsewhere. -/
def CoreMem.loadReady (m : CoreMem) (l : LoadOp) (remote : List Byte) : Bool :=
  let rs := openRanges l.span l.fwd
  l.asked && remote.length == (farKeys l.span l.fwd).length &&
  (l.kind == .poll || (!m.olderWriter l.id rs && !m.olderStore l.id rs && (l.kind.atomic || !m.olderLoad l.id rs)))

/-- Home bytes whose errors an access meets: an atomic on a compressed line reads the whole of it (R188, R189). -/
def State.metKeys (s : State) (atomic : Bool) (near : List Nat) : List Nat :=
  near ++ if atomic then ((near.map (· / 128)).eraseDups.filter fun l => s.tag l != 7).flatMap lineKeys else []

/-- The core has read a word that tells of a grid's end, so L1 gives up what it holds clean; a word of another accelerator may always be one
(R209; log entry 71). -/
def State.readNews (s : State) (i : Nat) (keys : List Nat) : State :=
  if keys.any isRemote || (!s.news.isEmpty && keys.any fun k => s.news.contains (k / 8)) then s.modMem i CoreMem.dropClean else s

/-- Data returns for a load or atomic. -/
def State.loadReturn (s : State) (i : Nat) (l : LoadOp) (stale : Bool) (remote : List Byte) : State :=
  let drop := fun s : State => (s.modMem i fun m => { m with loads := m.loads.filter fun x => x.id != l.id }).askDue i
  let s := if l.kind.atomic then (s.captureOlder i l.id l.span.keyRanges).expelWord i l.span.keys else s
  let near := nearKeys l.span l.fwd
  let r := if stale && !l.kind.atomic then s.meetErrs (s.errsBy (some i) true []) else s.checkL1 i (s.metKeys l.kind.atomic near)
  match r.2 with
  | some e => ((drop r.1).postAsync (s.core i).uid (eccCause i e l.va)).fallL i
  | none =>
    let s := r.1
    let stale := stale && !l.kind.atomic
    let get := s.gather i stale l.span l.fwd remote
    let x := ofBytes (l.span.keys.map get)
    match l.kind with
    | .poll => (drop s).modMem i fun m => { m with poll := assocSet m.poll l.slot (.inl (word x)) }
    | k =>
      let far := farKeys l.span l.fwd
      let s := s.readNews i (near ++ far)
      let s := if k.atomic then s else s.l1Fill i stale l.span.keys
      let s := if k.atomic || !l.keep then s else s.l1Far i l.unit (far.zip remote)
      let s := match k.newValue l.n x with
        | some y =>
          let cells := l.span.keys.zip (toBytes l.n y)
          s.writeHomes (cells.filter fun c => !isRemote c.1 && !(l.fwd.any fun f => f.1 == c.1))
        | none => s
      ((drop s).modCore i fun c => c.loadWrite k x).fallL i

/-- The tenant-key refusal of an access (R213). -/
def keyCause (va acc access slot : Nat) : Cause :=
  { code := 0x0D, synd0 := word va, synd1 := keySynd acc access, synd2 := 0, synd3 := word slot }

/-- Once no write of the group awaits a response, a refusal of some becomes one trap that names the lowest VA refused. -/
def State.closeGroup (s : State) (group : Nat) : State :=
  let mine := s.remote.filter fun r => r.group == group
  if mine.any fun r => !r.refused then s
  else
    let s := { s with remote := s.remote.filter fun r => r.group != group }
    match mine with
    | [] => s
    | r :: rest =>
      let low := rest.foldl (fun b q => if q.va < b.va then q else b) r
      s.postAsync low.own.uid (keyCause low.va low.acc low.access low.slot)

/-- A merge into a word of another accelerator is answered with what the word held (R225, R334; log entry 21): it is performed if that is what it
expected, and what waited for it goes out; else it goes again. -/
def State.mergeReturn (s : State) (r : RemReq) (m : Merge) (old : Nat) : State :=
  if old = m.expect then
    let s := { s with remote := s.remote.filter fun q => q.id != r.id }
    match (List.range 256).find? fun i => (s.core i).inst.isSome && (s.core i).uid == r.own.uid with
    | some i => (s.closeGroup r.group).askDue i
    | none => s.closeGroup r.group
  else
    let n := { m with expect := old }
    State.sendFlit { s with remote := s.remote.map fun (q : RemReq) => if q.id = r.id then { q with merge := some n } else q } r.id
      (s.mkFlit (s.tenant r.own.part) r.agent r.epoch r.acc 2 0 (keyPa r.key) n.payload.length n.payload)

/-- The merge of a write of agent `agent` that request `id` carries. -/
def State.mergeOf (s : State) (agent id : Nat) : Option (RemReq × Merge) :=
  s.remote.findSome? fun r => if r.id == id && r.agent == agent && !r.refused then r.merge.map fun m => (r, m) else none

/-- Meaning of LOAD_DATA_RETURN. `stale` says that a clean line of L1 supplies what it holds; `remote` is what the fabric
returned for bytes on other accelerators. -/
def execLoadDataReturn (core id : Nat) (stale : Bool) (remote : List Byte) (s : State) : Host.Outcome State Fault Refusal :=
  let m := (s.core core).mem
  match m.loads.find? fun l => l.id == id with
  | some l => if s.powered ∧ core < 256 ∧ m.loadReady l remote then .next (s.loadReturn core l stale remote)
              else .refused (.notEnabled "LOAD_DATA_RETURN")
  | none =>
    match s.mergeOf core id with
    | some (r, m) => if s.powered ∧ remote.length = 8 then .next (s.mergeReturn r m (ofBytes remote)) else .refused (.notEnabled "LOAD_DATA_RETURN")
    | none => .refused (.notEnabled "LOAD_DATA_RETURN")

/-- The unit of a store (R197): the whole access where it is aligned, a lane of `vstm`. -/
def StoreOp.unit (t : StoreOp) : Nat :=
  let n := t.bytes.length
  if n = 256 then 4 else if t.va % n = 0 then n else 1

/-- An outstanding write has been performed: what waited behind it on its bytes or in its epoch goes out (R198, R207). -/
def State.writeLeft (s : State) (i : Nat) : State := (s.askDue i).closeEpochs i

/-- VA of a key of a store's bytes. -/
def storeVa (va : Nat) (keys : List Nat) (key : Nat) : Nat := va + (keys.idxOf? key).getD 0

/-- Meaning of STORE_PERFORMED (R215): the oldest outstanding store of the core is performed in L1. -/
def execStorePerformed (core : Nat) (s : State) : Host.Outcome State Fault Refusal :=
  let m := (s.core core).mem
  match m.stores with
  | [] => .refused (.notEnabled "STORE_PERFORMED")
  | t :: rest =>
    let rs := t.bytes.map fun d => (d.key, d.key + 1)
    if s.powered ∧ core < 256 ∧ !m.olderWriter t.id rs ∧ m.captureReady t.id rs ∧ !s.merging (s.core core).uid rs then
      let s := s.captureOlder core t.id rs
      let s := s.performWrites core t.unit t.slot t.id t.epoch (storeVa t.va (t.bytes.map (·.key))) t.bytes
      .next ((s.modMem core fun m => { m with stores := rest }).writeLeft core |>.fallS core)
    else .refused (.notEnabled "STORE_PERFORMED")

/-! ### Tile loads and stores (R223 to R225) -/

/-- VAs that a tile load consumes once its escape count is known. -/
def tldUses (l : TldOp) (n : Nat) : List (Nat × Nat) :=
  ((boxItems l.desc l.box l.ext l.org).map fun e => (e.va, (e.bits + 7) / 8)) ++
  ((boxScales l.desc l.box l.ext l.org).map fun x => (x.2.1, 1)) ++
  (if winEsc l.desc then [(winSlot l.desc l.org, 8 * min n 64)] else [])

/-- A tile load may arrive (R198). -/
def CoreMem.tldReady (m : CoreMem) (l : TldOp) (remote : List Byte) : Bool :=
  let rs := openRanges l.span l.fwd
  l.asked && remote.length == (farKeys l.span l.fwd).length && !m.olderWriter l.id rs && !m.olderStore l.id rs && !m.olderLoad l.id rs

/-- The data of a tile load arrives. -/
def State.tldArrive (s : State) (i : Nat) (l : TldOp) (stale : Bool) (remote : List Byte) : State :=
  let uid := (s.core i).uid
  let drop := fun s : State => (s.modMem i fun m => { m with tlds := m.tlds.filter fun x => x.id != l.id }).askDue i
  let by_ := s.gather i stale l.span l.fwd remote
  let get (va : Nat) : Byte := by_ (l.span.key va)
  let r := boxTile l.desc l.box l.ext l.org get
  let used := ({ ranges := tldUses l r.2, pages := l.span.pages } : Span)
  let q := if stale then s.meetErrs (s.errsBy (some i) true []) else s.checkL1 i (nearKeys used l.fwd)
  match q.2 with
  | some e => ((drop q.1).postAsync uid (eccCause i e ((l.span.ranges.headD (0, 0)).1))).fallT i
  | none =>
    let s := (q.1.readNews i (nearKeys used l.fwd ++ farKeys l.span l.fwd)).l1Fill i stale used.keys
    let s := if l.keep then s.l1Far i 4 ((farKeys l.span l.fwd).zip remote) else s
    let s := drop s
    if 64 < r.2 then
      ((s.modCore i fun c => c.clearPend (2, l.tile)).postAsync uid
        { code := 0x0A, synd0 := 0, synd1 := word r.2, synd2 := word l.win, synd3 := word l.slot }).fallT i
    else
      (s.modCore i fun c => (c.land (.t l.tile r.1 (setOcnt l.box r.2))).clearPend (2, l.tile)).fallT i

/-- Meaning of TILE_LOAD_ARRIVAL. -/
def execTileLoadArrival (core id : Nat) (stale : Bool) (remote : List Byte) (s : State) : Host.Outcome State Fault Refusal :=
  let m := (s.core core).mem
  match m.tlds.find? fun l => l.id == id with
  | some l => if s.powered ∧ core < 256 ∧ m.tldReady l remote then .next (s.tldArrive core l stale remote)
              else .refused (.notEnabled "TILE_LOAD_ARRIVAL")
  | none => .refused (.notEnabled "TILE_LOAD_ARRIVAL")

/-- Meaning of TST_SOURCE_READ (R225, R28): the tile has been read and its box is written in L1. -/
def execTstSourceRead (core id : Nat) (s : State) : Host.Outcome State Fault Refusal :=
  let c := s.core core
  match c.mem.tsts.find? fun t => t.id == id with
  | some t =>
    let rs := t.span.keyRanges
    if s.powered ∧ core < 256 ∧ !c.mem.olderWriter id rs ∧ !c.mem.olderStore id rs ∧ c.mem.captureReady id rs ∧ !s.merging c.uid rs then
      let vas := (boxWrites t.desc t.box t.ext t.org t.data t.ocnt).map fun x => (t.span.key x.1, x.1)
      let s := s.captureOlder core id rs
      let s := s.performWrites core 4 t.slot id t.epoch (fun k => (assoc vas k).getD 0) t.bytes
      .next ((s.modMem core fun m => { m with tsts := m.tsts.filter fun x => x.id != id }).writeLeft core |>.fallT core)
    else .refused (.notEnabled "TST_SOURCE_READ")
  | none => .refused (.notEnabled "TST_SOURCE_READ")

/-! ### Releases and write-back -/

/-- Every write of the release's epoch on a UALink route has been acknowledged (R341), and so has every remote write that
the instance made from another core before a save (R210), and every merge of the epoch, which no router counts (log entry 21). -/
def State.epochAcked (s : State) (uid : Nat) (r : RelOp) : Bool :=
  match r.epoch with
  | none => true
  | some e => !(s.remote.any fun q => q.own.uid == uid && !q.refused && q.access == 1 &&
      (q.agent != r.agent || ((!q.native || q.merge.isSome) && q.epoch % 256 == e)))

/-- The head release of a core has its bound writes performed (R201). -/
def State.relReady (s : State) (i : Nat) (r : RelOp) : Bool :=
  let m := (s.core i).mem
  !(m.stores.any fun t => decide (t.id < r.id) && t.bytes.any fun d => d.obj == some r.obj) &&
  !(m.tsts.any fun t => decide (t.id < r.id) && winSync t.desc == r.obj) &&
  !(m.loads.any fun l => l.kind.atomic && decide (l.id < r.id) && l.obj == some r.obj) &&
  r.marked && r.routes.isEmpty && s.epochAcked (s.core i).uid r

/-- Meaning of RELEASE_TAKES_PLACE (R201): the dirty bytes of earlier stores, in whole aligned words (R197), are performed at their
homes, and the release takes its place in the synchronisation order. -/
def execReleaseTakesPlace (core id : Nat) (s : State) : Host.Outcome State Fault Refusal :=
  let c := s.core core
  match c.mem.rels with
  | r :: rest =>
    if s.powered ∧ core < 256 ∧ r.id = id ∧ s.relReady core r then
      let old := c.mem.dirty.filter fun d => decide (d.ser < id)
      let s := s.writeBack core fun d => old.any fun e => e.key / 8 == d.key / 8
      let s := s.modCore core fun c => { c with drops := { c.lost s.pcc with r := (c.lost s.pcc).r + 1 } }
      .next ((s.modMem core fun m => { m with rels := rest }).takePlace (s.event (c.owner core) core r.scope (.release r.obj)))
    else old core id s
  | [] => old core id s
where
  /-- A release of an instance that has left its core. -/
  old (core id : Nat) (s : State) : Host.Outcome State Fault Refusal :=
    match s.oldRels.find? fun o => o.own.core == core && o.rel.id == id with
    | some o =>
      let first := (s.oldRels.find? fun p => p.own.uid == o.own.uid) == some o
      if s.powered ∧ first ∧ o.rel.routes.isEmpty ∧ s.epochAcked o.own.uid o.rel then
        .next (({ s with oldRels := s.oldRels.erase o }).takePlace
          (s.event o.own o.rel.agent o.rel.scope (.release o.rel.obj)))
      else .refused (.notEnabled "RELEASE_TAKES_PLACE")
    | none => .refused (.notEnabled "RELEASE_TAKES_PLACE")

/-- Meaning of WRITES_PERFORMED_AT_SCOPE (R181, R229): L1 writes back a line, or every dirty byte it holds. -/
def execWritesPerformedAtScope (core : Nat) (line : Option Nat) (s : State) : Host.Outcome State Fault Refusal :=
  let p (d : DirtyByte) : Bool := match line with | some l => d.key / 128 == l | none => true
  if s.powered ∧ core < 256 ∧ (s.core core).mem.dirty.any p then .next (s.writeBack core p)
  else .refused (.notEnabled "WRITES_PERFORMED_AT_SCOPE")

/-! ### Responses (R213, R341) -/

/-- A load or atomic is refused by accelerator `acc` (R213): the destination keeps its value and its pending bit clears. -/
def State.refuseLoad (s : State) (i : Nat) (l : LoadOp) (code acc : Nat) : State :=
  let s := (s.modMem i fun m => { m with loads := m.loads.filter fun x => x.id != l.id }).askDue i
  match l.kind with
  | .poll => s.modMem i fun m => { m with poll := assocSet m.poll l.slot (.inr code) }
  | k =>
    let s := s.modCore i fun c => match k.dest with | some r => c.clearPend r | none => c
    (s.postAsync (s.core i).uid (keyCause l.va acc (if k.atomic then 2 else 0) l.slot)).fallL i

/-- The lowest VA of a tile load on an accelerator. -/
def TldOp.vaOn (l : TldOp) (acc : Nat) : Option Nat :=
  ((touched l.span.ranges).find? fun p => isRemote (l.span.key p.1) && keyAcc (l.span.key p.1) == acc).map (·.1)

/-- A tile load is refused by accelerator `acc`. -/
def State.refuseTld (s : State) (i : Nat) (l : TldOp) (acc : Nat) : State :=
  let s := (s.modMem i fun m => { m with tlds := m.tlds.filter fun x => x.id != l.id }).askDue i
  let s := s.modCore i fun c => c.clearPend (2, l.tile)
  (s.postAsync (s.core i).uid (keyCause ((l.vaOn acc).getD 0) acc 0 l.slot)).fallT i

end Sys2Proof.Machine
end

