-- ==== Sys2Proof/Machine/CopyEvents.lean ====
section
/-! DEFINITION. The copy engine after the push (R237 to R254): starts, chunks, stopped channels, permits, completion records. -/

namespace Sys2Proof.Machine

/-! ### The instance a command belongs to -/

/-- Changes the instance `uid` wherever it is: on a core, or saved. -/
def State.modInst (s : State) (uid : Nat) (f : Core → Core) : State :=
  { s with
    cores := s.cores.map fun c => if c.inst.isSome && c.uid == uid then f c else c
    saved := s.saved.map fun v => if v.inst.uid == uid then { v with core := f v.core } else v }

/-- Ordered delivery (R242): the `.ord` forms and `cexp.ring`. -/
def CopyEntry.ord (e : CopyEntry) : Bool :=
  match e.kind with
  | .copy | .copy2d | .gath | .cexp => bit e.mod 0
  | .copywLd => bit e.mod 1
  | _ => false

/-- Writes of the command carry the compressible attribute (R185, R244). -/
def CopyEntry.cmp (e : CopyEntry) : Bool :=
  match e.kind with
  | .copy | .copy2d => bit e.mod 1
  | .copywSt | .get => winCmp e.desc
  | _ => false

/-- The command in progress with this number. -/
def State.run (s : State) (id : Nat) : Option CopyRun := s.copies.find? fun r => r.id == id

/-- Replaces a command in progress. -/
def State.setRun (s : State) (r : CopyRun) : State := { s with copies := s.copies.map fun q => if q.id = r.id then r else q }

/-- The instance's CWP register of a channel (R242). -/
def State.modCwp (s : State) (uid ch : Nat) (f : Word → Word) : State :=
  s.modInst uid fun c => { c with cwp := vset c.cwp ch (f (vget c.cwp ch 0)) }

/-- PROG grows by bytes delivered in sequence (R242). -/
def addProg (n : Nat) (w : Word) : Word := putBits w 0 32 (fld w 31 0 + n)

/-! ### Starts (R237) -/

/-- Pieces of 1,024 bytes in `n` bytes. -/
def pieces (n : Nat) : Nat := (n + 1023) / 1024

/-- Row length in bytes of `copy2d`, `gath`, `scat`. -/
def CopyEntry.rowBytes (e : CopyEntry) : Nat := if e.kind = .copy2d then 4 * fld e.rc 11 0 else 128 * fld e.ra 63 56

/-- Bytes of the image of a carried type (R251). -/
def imageSize (ty : TypeWord) : Nat :=
  let g := geoOf ty ((tyExts (Vector.replicate 16 none) ty).getD [])
  if g.esc then 8192 else g.storage

/-- Bytes of the image that a `put` sends. -/
def CopyEntry.imageBytes (e : CopyEntry) : Nat := imageSize e.box

/-- Chunks of a command, where they are known without reading memory (R240). -/
def CopyEntry.chunks (e : CopyEntry) : Option Nat :=
  match e.kind with
  | .copy => some (pieces (fld e.rc 31 0))
  | .copy2d => some (fld e.rc 23 12 * pieces e.rowBytes)
  | .copywLd | .copywSt => if winEsc e.desc then none else some 8
  | .put => some (pieces e.imageBytes)
  | .gath | .scat => none
  | .cexp => some ((fld e.rc 31 0 + 7) / 8)
  | .cred => some (pieces (fld e.rc 31 0))
  | .ssend => some (max 1 (pieces (8 * fld e.rc 31 0)))
  | .get | .cadd => some 0

/-- A reduction tree that the accelerator is a leaf of (R343). -/
def State.leafTree (s : State) (num : Nat) : Option Tree :=
  s.trees.find? fun t => t.num == num && t.leaves.any fun l => l.acc == s.accNum

/-- The leaf's entry of a tree for this accelerator. -/
def Tree.leafHere (t : Tree) (acc : Nat) : Option TreeNode := t.leaves.find? fun l => l.acc == acc

/-- The accelerator that runs the stage to which a leaf of this accelerator sends. -/
def Tree.stageAcc (t : Tree) (acc : Nat) : Nat :=
  match t.leafHere acc with
  | some l => (t.stages[l.parent.getD 0]?.map (·.acc)).getD acc
  | none => acc

/-- KEY where the route to an accelerator leaves by a port in UALink 1.0 mode (R252, R253, R341). -/
def State.routeStatus (s : State) (acc : Nat) : BitVec 9 :=
  match s.routePort acc with | some p => if (s.port p).native then 0 else 16 | none => 0

/-- Status of a command that ends with KEY as it starts (R252, R253, R343): no native route, or no such tree of its tenant. -/
def State.startStatus (s : State) (e : CopyEntry) : BitVec 9 :=
  match e.kind with
  | .put => s.routeStatus (fld e.ra 13 0)
  | .get => s.routeStatus (fld e.rc 13 0)
  | .ssend => match s.leafTree (fld e.rc 47 32) with
    | some t => if t.stageAcc s.accNum = s.accNum then 0 else s.routeStatus (t.stageAcc s.accNum)
    | none => 16
  | _ => 0

/-- Round number of a leaf's next `ssend` on a tree (R343). -/
def State.leafRound (s : State) (tree leaf : Nat) : Nat := ((s.rounds.find? fun r => r.1 == (tree, leaf)).map (·.2)).getD 0

/-- An `ssend` that starts on a tree of this leaf takes the next round (R343). -/
def State.takeRound (s : State) (e : CopyEntry) : State :=
  let num := fld e.rc 47 32
  if e.kind = .ssend ∧ (s.leafTree num).isSome then
    { s with rounds := ((num, s.accNum), s.leafRound num s.accNum + 1) :: s.rounds.filter fun x => x.1 != (num, s.accNum) }
  else s

/-- The head of a channel may start now (R237). The entries of a resumed instance wait for its first bundle (R243). -/
def State.startOk (s : State) (i k : Nat) : Bool :=
  let h := vget (s.core i).ch k default
  match h.queue with
  | [] => false
  | e :: _ =>
    let mine := s.copies.filter fun r => r.e.own.core == i && r.ch == k
    h.stop.isNone && !((s.core i).phase == .resuming && e.own.uid == (s.core i).uid) && (e.at_ == 0 || decide (e.at_ ≤ (s.pcc : Int))) && decide (mine.length < 8) &&
    (!e.ord || !(mine.any fun r => r.e.ord))

/-- The head command starts. -/
def State.startCopy (s : State) (i k : Nat) : State :=
  match (vget (s.core i).ch k default).queue with
  | [] => s
  | e :: rest =>
    let late := e.at_ != 0 && decide (e.at_ < (s.pcc : Int))
    let st := s.startStatus e
    let r : CopyRun :=
      { id := s.serial, ch := k, seq := s.serial, e := e, start := s.pcc, total := e.chunks, done := 0, off := 0, gap := false, asked := []
        idx := if e.kind = .ssend then s.leafRound (fld e.rc 47 32) s.accNum else 0
        status := st ||| (if late then 1 else 0), flags := 0, permit := 0, buf := none, img := []
        fin := st != 0 || e.kind == .cadd || (e.kind != .get && e.chunks == some 0), sent := false }
    let s := s.modCore i fun c => c.modCh k fun h =>
      { h with queue := rest ++ h.spilled.take 1, spilled := h.spilled.drop 1 }
    let s := if e.ord then s.modCwp e.own.uid k fun w => putBits (0 : Word) 32 16 (fld w 47 32 + 1) else s
    { s.takeRound e with copies := s.copies ++ [r], serial := s.serial + 1 }

/-- Meaning of COPY_COMMAND_START (R237). -/
def execCopyCommandStart (core ch : Nat) (s : State) : Host.Outcome State Fault Refusal :=
  if s.powered ∧ core < 256 ∧ ch < 2 ∧ s.startOk core ch then .next (s.startCopy core ch)
  else .refused (.notEnabled "COPY_COMMAND_START")

/-! ### Reading a chunk -/

/-- Why a chunk is not read. -/
inductive CopyStop where
  /-- A translation fault at a VA. -/
  | fault (va : Nat) (a : Access) (f : WalkFault)
  /-- The fabric has not supplied the bytes at these keys. -/
  | short (keys : List Nat)
  /-- An uncorrectable error in the source (R189), with the command as it goes on after the chunk. -/
  | ecc (r : Option CopyRun)
  deriving DecidableEq, Repr

/-- Reading for a chunk: the bytes the fabric has still to hand over, and the home keys read. -/
abbrev CopyM := StateT (List Byte × List Nat) (Except CopyStop)

/-- The pages of a command, as its channel finds them. -/
def State.copyPage (s : State) (e : CopyEntry) (a : Access) (page : Nat) : PageRes :=
  s.pageNow e.own.part (clusterOf e.own.core) a page

/-- Translates ranges for a channel. -/
def State.copySpan (s : State) (e : CopyEntry) (a : Access) (ranges : List (Nat × Nat)) : Except CopyStop Span :=
  let r := spanOf (s.copyPage e a) ranges
  match r.2.2 with
  | some (va, f) => .error (.fault va a f)
  | none => .ok r.1

/-- The table entries that the walks of a command for these ranges read, where errors are to be met (R189). -/
def State.walkedFor (s : State) (e : CopyEntry) (ranges : List (Nat × Nat)) : List Nat := s.copyWalks e.own.part (clusterOf e.own.core) ranges

/-- The walks of a command for these ranges read their tables: single-bit errors are corrected, an uncorrectable one is given (R189). -/
def State.checkWalks (s : State) (e : CopyEntry) (ranges : List (Nat × Nat)) : State × Option SoftErr :=
  s.meetErrs (s.errsBy (some e.own.core) false (s.walkedFor e ranges))

/-- Reads `n` bytes at a VA on the copy path. -/
def State.copyRead (s : State) (e : CopyEntry) (ranges : List (Nat × Nat)) : CopyM (List (Nat × Byte)) := do
  if (s.checkWalks e ranges).2.isSome then throw (.ecc none)
  match s.copySpan e .read ranges with
  | .error x => throw x
  | .ok sp =>
    let vas := ranges.flatMap fun r => (List.range r.2).map fun j => (r.1 + j) % 2 ^ 64
    let ks := vas.map fun a => (a, sp.key a)
    let wide := s.walkedFor e ranges ++ (ks.map (·.2)).filter fun k => !isRemote k
    if (s.errsBy (some e.own.core) false wide).any fun e => decide (2 ≤ e.bits) then throw (.ecc none)
    if !s.errs.isEmpty then modify fun z => (z.1, z.2 ++ wide)
    let far := (ks.map (·.2)).filter isRemote
    if (← get).1.length < far.length then throw (.short far)
    ks.mapM fun k => do
      if isRemote k.2 then
        match ← get with
        | ([], _) => throw (.short far)
        | (b :: bs, z) => do
          set (bs, z)
          pure (k.1, b)
      else pure (k.1, s.readHome k.2)

/-- Reads consecutive bytes. -/
def State.copyBytes (s : State) (e : CopyEntry) (va n : Nat) : CopyM (List Byte) := do
  let r ← s.copyRead e [(va, n)]
  pure (r.map (·.2))

/-- Reads a little-endian number. -/
def State.copyNat (s : State) (e : CopyEntry) (va n : Nat) : CopyM Nat := do
  let b ← s.copyBytes e va n
  pure (ofBytes b)

/-- After an uncorrectable error in this read the command goes on as `r` says. -/
def orElseRun {α : Type} (r : CopyRun) (m : CopyM α) : CopyM α := fun z =>
  match m z with | .error (.ecc none) => .error (.ecc (some r)) | x => x

/-- What reading a chunk gives. -/
inductive ChunkRead where
  /-- Bytes for the buffer; the run with what reading told it. -/
  | data (r : CopyRun) (buf : List Byte)
  /-- Nothing to write; the run goes on. -/
  | skip (r : CopyRun)
  /-- The command is over with these status bits. -/
  | ends (bits : BitVec 9)

/-- Sectors of a line's encoding by tag (R186). -/
def tagSectors (t : Nat) : Nat := match t with | 0 => 0 | 1 | 2 | 3 => 1 | 4 | 5 => 2 | 6 => 3 | _ => 4

/-- Lines of group g of a `cexp`. -/
def CopyEntry.groupLines (e : CopyEntry) (g : Nat) : Nat := min 8 (fld e.rc 31 0 - 8 * g)

/-- A chunk is over. -/
def CopyRun.next (r : CopyRun) : CopyRun :=
  { r with done := r.done + 1, buf := none, fin := r.fin || r.total == some (r.done + 1) }

/-- A chunk that writes nothing is over: delivery in sequence ends there (R242). -/
def CopyRun.miss (r : CopyRun) : CopyRun := { r.next with gap := true }

/-- Where an index cannot be read, its whole row is skipped. -/
def CopyRun.missRow (r : CopyRun) : CopyRun :=
  let p := pieces r.e.rowBytes
  let k := (r.done / p + 1) * p
  { r with done := k, buf := none, fin := r.total == some k, gap := true }

/-- Number of escapes of a `copyw`, counted before its first chunk (R250): above 64 it ends with OVF. -/
def CopyRun.counted (r : CopyRun) (c : Nat) : ChunkRead :=
  if 64 < c then .ends 128 else .skip { r with total := some 8, idx := c }

/-- Reads the next chunk of a command into its buffer (R240, R246, R248, R250). -/
def State.readChunk (s : State) (r : CopyRun) : CopyM ChunkRead := do
  let e := r.e
  let k := r.done
  match e.kind with
  | .copy | .cred =>
    let n := min 1024 (fld e.rc 31 0 - 1024 * k)
    let b ← s.copyBytes e (fld e.rb 55 0 + 1024 * k) n
    pure (.data r b)
  | .copy2d =>
    let p := pieces e.rowBytes
    let n := min 1024 (e.rowBytes - 1024 * (k % p))
    let b ← s.copyBytes e (fld e.rb 55 0 + 16 * fld e.rc 63 44 * (k / p) + 1024 * (k % p)) n
    pure (.data r b)
  | .gath | .scat =>
    let p := pieces e.rowBytes
    match r.total with
    | none =>
      let h ← orElseRun { r with fin := true } (s.copyNat e (fld e.rc 55 0) 8)
      if 2 ^ 24 ≤ h then pure (.ends 32) else pure (.skip { r with total := some (h * p), fin := h == 0 })
    | some _ =>
      let x ← if k % p = 0 then orElseRun r.missRow (s.copyNat e (fld e.rc 55 0 + 8 + 4 * (k / p)) 4) else pure r.idx
      let r := { r with idx := x }
      let n := min 1024 (e.rowBytes - 1024 * (k % p))
      if e.kind = .gath then
        if x = 0xFFFFFFFF then pure (.data r (List.replicate n 0))
        else do
          let b ← orElseRun r.miss (s.copyBytes e (fld e.rb 55 0 + x * e.rowBytes + 1024 * (k % p)) n)
          pure (.data r b)
      else if x = 0xFFFFFFFF then pure (.skip { r with done := k + 1 })
      else do
        let b ← orElseRun r.miss (s.copyBytes e (fld e.rb 55 0 + (k / p) * e.rowBytes + 1024 * (k % p)) n)
        pure (.data r b)
  | .cexp =>
    let a := fld e.rb 55 0 + r.off
    let h ← orElseRun { r with fin := true } (s.copyNat e a 32)
    if h / 2 ^ 24 ≠ 0 then pure (.ends 32)
    else do
      let sect := ((List.range (e.groupLines k)).map fun j => tagSectors (h >>> (3 * j) % 8)).foldl (· + ·) 0
      let whole := ((List.range 8).map fun j => tagSectors (h >>> (3 * j) % 8)).foldl (· + ·) 0
      let r := { r with off := r.off + 32 + 32 * whole }
      let b ← orElseRun r.miss (s.copyBytes e (a + 32) (32 * sect))
      pure (.data r (toBytes 32 h ++ b))
  | .copywLd =>
    let g := geoOf e.box e.ext
    let read (items : List BoxItem) (scales : List (Nat × Nat × Nat)) (n : Nat) : CopyM (Nat → Byte) := do
      let m ← s.copyRead e (joinRanges (items.map fun i => (i.va, (i.bits + 7) / 8)) ++ joinRanges (scales.map fun x => (x.2.1, 1)) ++
        if n = 0 then [] else [(winSlot e.desc e.org, 8 * n)])
      pure fun a => (m.find? fun c => c.1 == a % 2 ^ 64).elim 0 (·.2)
    match r.total with
    | none =>
      let items := boxItems e.desc e.box e.ext e.org
      let get ← orElseRun { r with fin := true } (read items [] 0)
      pure (r.counted (boxEscapes e.desc g items get))
    | some _ =>
      let items := pieceItems e.desc e.box e.ext e.org k
      let scales := pieceScales e.desc e.box e.ext e.org k
      let n := if k = 7 then r.idx else 0
      let get ← read items scales n
      pure (.data r (((toBytes 8192 (tileOf e.desc g e.org items scales n get).toNat).drop (1024 * k)).take 1024))
  | .copywSt =>
    match r.total with
    | none =>
      let b ← orElseRun { r with fin := true } (s.copyBytes e (fld e.ra 55 0) 8192)
      pure (r.counted (imageEscapes e.desc (geoOf e.box e.ext) (BitVec.ofNat 65536 (ofBytes b))))
    | some _ =>
      let b ← s.copyBytes e (fld e.ra 55 0 + 1024 * k) 1024
      pure (.data r b)
  | .put =>
    let b ← orElseRun { r with fin := true } (s.copyBytes e (fld e.rb 55 0 + 1024 * k) (min 1024 (e.imageBytes - 1024 * k)))
    pure (.data r b)
  | .ssend =>
    let n := min 1024 (8 * fld e.rc 31 0 - 1024 * k)
    let b ← s.copyBytes e (fld e.rb 55 0 + 1024 * k) n
    pure (.data r b)
  | .get | .cadd => pure (.ends 0)

/-! ### Writing a chunk -/

/-- The raw line that an encoded one stands for (R186). -/
def decodeLine (t : Nat) (b : List Byte) : List Byte :=
  let w (n k : Nat) : List Byte :=
    let base := ofBytes (b.take n)
    (List.range (128 / n)).flatMap fun i =>
      let d := ofBytes ((b.drop (n + k * i)).take k)
      let d := if d < 2 ^ (8 * k - 1) then d else d + 2 ^ (8 * n) - 2 ^ (8 * k)
      toBytes n ((base + d) % 2 ^ (8 * n))
  match t with
  | 0 => List.replicate 128 0
  | 1 => (List.range 32).flatMap fun _ => b.take 4
  | 2 => (List.range 16).flatMap fun _ => b.take 8
  | 3 => w 8 1
  | 4 => w 8 2
  | 5 => w 4 1
  | 6 => w 4 2
  | _ => b.take 128

/-- The lines of a group in the buffer: a header, then the encoded lines (R248). -/
def groupBytes (n : Nat) (buf : List Byte) : List Byte :=
  let h := ofBytes (buf.take 32)
  let go := (List.range n).foldl (fun (acc : List Byte × List Byte) j =>
    let t := h >>> (3 * j) % 8
    (acc.1 ++ decodeLine t (acc.2.take (32 * tagSectors t)), acc.2.drop (32 * tagSectors t))) ([], buf.drop 32)
  go.1

/-- Consecutive whole bytes to write at a VA. -/
def plainWrites (va : Nat) (b : List Byte) : List (Nat × Byte × Byte) := b.zipIdx.map fun z => ((va + z.2) % 2 ^ 64, z.1, 0xFF)

/-- Destination of group g of a ring (R249). -/
def ringDest (ra : Word) (g : Nat) : Nat := Config.windowBase + fld ra 21 0 + 1024 * (g % max 1 (fld ra 29 24))

/-- What a chunk writes, in delivery order (R240, R246, R248, R250): (VA, value, mask). -/
def CopyRun.writes (r : CopyRun) (buf : List Byte) : List (Nat × Byte × Byte) :=
  let e := r.e
  let k := r.done
  let p := pieces e.rowBytes
  match e.kind with
  | .copy => plainWrites (fld e.ra 55 0 + 1024 * k) buf
  | .copy2d => plainWrites (fld e.ra 55 0 + 16 * fld e.rc 43 24 * (k / p) + 1024 * (k % p)) buf
  | .gath => plainWrites (fld e.ra 55 0 + (k / p) * e.rowBytes + 1024 * (k % p)) buf
  | .scat => plainWrites (fld e.ra 55 0 + r.idx * e.rowBytes + 1024 * (k % p)) buf
  | .cexp => plainWrites (if bit e.mod 0 then ringDest e.ra k else fld e.ra 55 0 + 1024 * k) (groupBytes (e.groupLines k) buf)
  | .copywLd => plainWrites (fld e.ra 55 0 + 1024 * k) buf
  | .copywSt =>
    tileWrites e.desc (geoOf e.box e.ext) e.org (pieceItems e.desc e.box e.ext e.org k) (pieceScales e.desc e.box e.ext e.org k)
      (BitVec.ofNat 65536 (ofBytes buf <<< (8192 * k))) (if k = 7 then r.idx else 0)
  | _ => []

/-- PROG's growth by a chunk: nothing after a chunk that wrote nothing, for PROG counts what is in place in sequence (R242, R245, R246, R249). -/
def CopyRun.progress (r : CopyRun) (buf : List Byte) : Nat :=
  if r.gap then 0
  else match r.e.kind with
  | .copy2d => if (r.done + 1) % pieces r.e.rowBytes = 0 then r.e.rowBytes else 0
  | .cexp => 1024
  | _ => buf.length

/-- The fence epoch a command's remote writes carry (R207): the current one of its core, whose number they carry. -/
def State.copyEpoch (s : State) (o : Owner) : Nat := (s.core o.core).mem.epoch

/-- The object a command's write is bound to (R196): the window's, or the one of the launch region. -/
def State.copyObj (s : State) (e : CopyEntry) (va : Nat) : Option Nat :=
  match e.kind with
  | .copywSt | .get => some (winSync e.desc)
  | _ => match s.launch e.own.graph e.own.node with | some l => l.lh.objAt va | none => none

/-- A write of a command that an uncorrectable error keeps from being performed is charged to its instance (R189). -/
def State.chargeCopy (s : State) (r : CopyRun) (e : SoftErr) (va : Nat) : State :=
  s.countDouble.postAsync r.e.own.uid (eccCause r.e.own.core e va)

/-- Performs writes of a command: local bytes at their homes, remote bytes as requests. -/
def State.copyWrite (s : State) (r : CopyRun) (sp : Span) (ws : List (Nat × Byte × Byte)) : State :=
  let ks := ws.map fun w => (sp.key w.1, w)
  let ds := (ks.filter fun k => !isRemote k.1).map fun k =>
    ({ key := k.1, val := k.2.2.1, mask := k.2.2.2, obj := s.copyObj r.e k.2.1, ser := 0, cmp := r.e.cmp } : DirtyByte)
  let bad := s.blockedWrites ds
  let vas := ks.map fun k => (k.1, k.2.1)
  let s := match bad with
    | d :: _ => match (s.errsAt (lineKeys (d.key / 128))).find? fun (e : SoftErr) => decide (2 ≤ e.bits) with
      | some e => s.chargeCopy r e ((assoc vas d.key).getD 0)
      | none => s
    | [] => s
  let s := s.flushBytes (ds.filter fun d => !bad.contains d)
  let far := (ks.filter fun k => isRemote k.1).map fun k => (k.1, k.2.2.1, k.2.2.2)
  if far.isEmpty then s
  else
    let o := r.e.own
    let ep := s.copyEpoch o
    (s.countSent o.core ep far).sendWrites o o.core ep (4 + r.ch) true r.id (fun k => (assoc vas k).getD 0) far

/-- One element of `cred` (R247): the combined value and its flags. -/
def credElem (rc : Word) (d x : Nat) : Nat × BitVec 6 :=
  let op := fld rc 34 32
  let et := fld rc 38 36
  if et = 4 then
    let sum := sgn 32 d + sgn 32 x
    if op = 0 then intRes 32 (bit rc 35) sum
    else if op = 1 then (if sgn 32 x < sgn 32 d then x else d, 0)
    else (if sgn 32 d < sgn 32 x then x else d, 0)
  else
    let f := if et = 2 then bf16 else fp32
    let y := if op = 0 then f.add .rne d x else f.minmax (op == 2) d x
    (y.1, y.2)

/-- The atomic operation code that carries an element of `cred` to another accelerator, where one exists (R334). -/
def credAtomic (rc : Word) : Option Nat :=
  if fld rc 38 36 = 4 ∧ !bit rc 35 then (match fld rc 34 32 with | 0 => some 0 | 1 => some 4 | _ => some 5) else none

/-- `cred` combines the elements of a chunk, each at its home (R247). -/
def State.credChunk (s : State) (r : CopyRun) (sp : Span) (buf : List Byte) : State × BitVec 6 :=
  let z := credSize (fld r.e.rc 38 36)
  let va := fld r.e.ra 55 0 + 1024 * r.done
  (List.range (buf.length / z)).foldl (fun (acc : State × BitVec 6) j =>
    let s := acc.1
    let a := (va + z * j) % 2 ^ 64
    let x := ofBytes ((buf.drop (z * j)).take z)
    let k := sp.key a
    if isRemote k then
      let o := r.e.own
      let pl := match credAtomic r.e.rc with
        | some op => atomicPayload op 0 false false x 0
        | none => toBytes 8 (Config.credWord (fld r.e.rc 38 32)) ++ toBytes 8 x
      let fl : BitVec 6 := if (credAtomic r.e.rc).isSome then 0 else Config.credFlags s.serial
      (s.request o o.core (s.copyEpoch o) (4 + r.ch) r.id true a k 2 2 pl.length pl, acc.2 ||| fl)
    else
      let ks := (List.range z).map fun b => k + b
      let m := s.meetErrs (s.errsBy (some r.e.own.core) false (s.metKeys true ks))
      match m.2 with
      | some e => (m.1.postAsync r.e.own.uid (eccCause r.e.own.core e a), acc.2)
      | none =>
        let y := credElem r.e.rc (ofBytes (ks.map s.readHome)) x
        (m.1.writeHomes (ks.zip (toBytes z y.1)), acc.2 ||| y.2)) (s, 0)

/-- The channel stops on a fault (R194). -/
def State.stopChannel (s : State) (r : CopyRun) (atRec : Bool) (va : Nat) (a : Access) (f : WalkFault) : State :=
  (s.dropFaulted (clusterOf r.e.own.core) va f.kind).modCore r.e.own.core fun c => c.modCh r.ch fun h =>
    { h with stop := some { id := r.id, atRec := atRec, synd0 := word va, synd1 := pageSynd a f, synd2 := f.entry } }

/-- The command moves nothing more, with these status bits added. -/
def CopyRun.finish (r : CopyRun) (bits : BitVec 9) : CopyRun := { r with status := r.status ||| bits, fin := true, buf := none }

/-- First write of a list that does not translate: the writes ahead of it, and its fault. -/
def splitWrites (look : Nat → PageRes) (ws : List (Nat × Byte × Byte)) : List (Nat × Byte × Byte) × Option (Nat × WalkFault) :=
  let bad := (touched (joinRanges (ws.map fun w => (w.1, 1)))).filterMap fun p =>
    match look p.2 with | .fault f => some (p.2, f) | _ => none
  let isBad (w : Nat × Byte × Byte) : Bool := bad.any fun b => b.1 == w.1 / 4096
  match ws.find? isBad with
  | none => (ws, none)
  | some w => (ws.takeWhile fun x => !isBad x, (bad.find? fun b => b.1 == w.1 / 4096).map fun b => (w.1, b.2))

/-- A send goes out as one message of flits (R342): the carried word, then the image; TYW marks the first. -/
def State.sendPut (s : State) (r : CopyRun) (img : List Byte) : State :=
  let o := r.e.own
  ((flitParts (toBytes 16 r.e.box.toNat ++ img)).zipIdx).foldl (fun s p =>
    let f := s.mkFlit (s.tenant o.part) o.core (s.copyEpoch o) (fld r.e.ra 13 0) 9 0 (fld r.e.ra 31 16) p.1.length p.1
    s.sendFlit r.id { f with tyw := p.2 == 0 }) s

/-- Entries of a stream as segments (R253, R346), and whether an index fails to rise (R344): the entries before it stay. -/
def streamEntries (vf : Bool) (b : List Byte) : List (Nat × BitVec 32) :=
  (List.range (b.length / 8)).map fun j =>
    let v := ofBytes ((b.drop (8 * j + 4)).take 4)
    (ofBytes ((b.drop (8 * j)).take 4), BitVec.ofNat 32 (if vf then v % 65536 else v))

/-- The part of a stream before its first index that does not rise, and whether there is such an index (R344). -/
def risingPart : Option Nat → List (Nat × BitVec 32) → List (Nat × BitVec 32) × Bool
  | _, [] => ([], false)
  | last, x :: r =>
    if (match last with | some l => decide (x.1 ≤ l) | none => false) then ([], true)
    else let y := risingPart (some x.1) r; (x :: y.1, y.2)

/-- A stream goes out as flits of class 10 (R334), with TREE in the PA field (log entry 15). -/
def State.sendStreamFlits (s : State) (id ten agent epoch dst tree : Nat) (b : List Byte) (side : StreamSide) : State :=
  let parts := flitParts b
  (parts.zipIdx).foldl (fun s p =>
    let f := s.mkFlit ten agent epoch dst 10 2 tree p.1.length p.1
    s.sendFlit id { f with side := some { side with first := p.2 == 0, last := p.2 + 1 == parts.length } }) s

/-- A leaf's stream leaves this accelerator (R343, R344): to the stage on this package if its stage is here, else on the
fabric. -/
def State.sendStream (s : State) (r : CopyRun) (entries : List (Nat × BitVec 32)) : State :=
  let e := r.e
  let num := fld e.rc 47 32
  match s.leafTree num with
  | none => s
  | some t =>
    match t.leafHere s.accNum with
    | none => s
    | some lf =>
      let round := r.idx
      let ok := s.tenant e.own.part == t.ten
      let y := risingPart none entries
      let kept := if ok then y.1 else []
      let st : Stream := { tree := num, round := round, stage := lf.parent.getD 0, inp := lf.inp
                           segs := [{ dense := false, first := 0, entries := kept }]
                           ra := e.ra, vf := bit e.rc 48, dz := bit e.rc 49, thr := fld e.rc 63 56, marks := [(s.accNum, 0)]
                           left := 0 }
      let bits : BitVec 9 := if !ok then 16 else if y.2 then 32 else 0
      let s := s.setRun { r with status := r.status ||| bits }
      let here := (t.stages[lf.parent.getD 0]?.map fun g => g.acc == s.accNum).getD false
      if here then { s with streams := s.streams ++ [st] }
      else
        let dst := (t.stages[lf.parent.getD 0]?.map (·.acc)).getD 0
        s.sendStreamFlits r.id (s.tenant e.own.part) e.own.core (s.copyEpoch e.own) dst num
          (kept.flatMap fun x => toBytes 4 x.1 ++ toBytes 4 x.2.toNat) 
          { ra := e.ra, rc := e.rc, marks := [(s.accNum, 0)], first := true, last := true, left := 0, round := round }

/-- The `.ring` form of `cexp` (R249). -/
def CopyEntry.ring (e : CopyEntry) : Bool := e.kind == .cexp && bit e.mod 0

/-- A chunk of a typed send or of a stream has been gathered, or could not be read; after the last one the message goes out. -/
def State.gathered (s : State) (r : CopyRun) : State :=
  let q := { r.next with fin := false }
  let s := s.setRun q
  if r.total ≠ some (r.done + 1) then s
  else if r.e.kind = .put then s.sendPut q q.img
  else s.sendStream q (streamEntries (bit r.e.rc 48) q.img)

/-- Writes the chunk in the buffer where its pages are found, and moves on. A bank that refuses a write of a ring ends the command with FAULT
(R249); any other write that does not translate stops the channel (R241). -/
def State.putChunk (s : State) (r : CopyRun) (buf : List Byte) : State :=
  let e := r.e
  match e.kind with
  | .cred =>
    match s.copySpan e .atomic [(fld e.ra 55 0 + 1024 * r.done, buf.length)] with
    | .ok sp =>
      let y := s.credChunk r sp buf
      y.1.setRun { r with flags := r.flags ||| y.2 }.next
    | .error (.fault va a f) => (s.setRun { r with buf := some buf }).stopChannel r false va a f
    | .error _ => s
  | _ =>
    let ws := r.writes buf
    let look := s.copyPage e .write
    let y := splitWrites look ws
    let sp := (spanOf look (joinRanges (y.1.map fun w => (w.1, 1)))).1
    let s := s.copyWrite r sp y.1
    match y.2 with
    | some (va, f) =>
      if e.ring then s.setRun (r.finish 256)
      else (s.setRun { r with buf := some buf }).stopChannel r false va .write f
    | none =>
      let s := if e.ord then s.modCwp e.own.uid r.ch (addProg (r.progress buf)) else s
      s.setRun r.next

/-- The bytes that a chunk writes, as ranges. -/
def CopyRun.destRanges (r : CopyRun) (buf : List Byte) : List (Nat × Nat) :=
  match r.e.kind with
  | .cred => [(fld r.e.ra 55 0 + 1024 * r.done, buf.length)]
  | _ => joinRanges ((r.writes buf).map fun w => (w.1, 1))

/-- A chunk has been read: it joins the message of a typed send or of a stream, or it is written. Where a walk for its destination meets an
uncorrectable error it writes nothing (R189; log entry 73). -/
def State.writeChunk (s : State) (r : CopyRun) (buf : List Byte) : State :=
  if r.e.kind = .put ∨ r.e.kind = .ssend then s.gathered { r with img := r.img ++ buf }
  else if s.errs.isEmpty then s.putChunk r buf
  else
    let w := s.checkWalks r.e (r.destRanges buf)
    if w.2.isSome then w.1.setRun { r.miss with status := r.status ||| 4 } else w.1.putChunk r buf

/-- A chunk may move: the channel runs, the command has one left, a ring group has its permit. -/
def State.chunkOk (s : State) (r : CopyRun) : Bool :=
  (vget (s.core r.e.own.core).ch r.ch default).stop.isNone && !r.fin && r.e.kind != .get &&
  (match r.total with | some n => decide (r.done < n) | none => true) &&
  (!r.e.ring || decide (r.done < r.permit))

/-- One chunk (R240): from the buffer of an interrupted write, or read and written. None where the fabric has not supplied
exactly the bytes read. -/
def State.moveChunk (s : State) (r : CopyRun) (remote : List Byte) : Option State :=
  match r.buf with
  | some b => if remote.isEmpty then some (s.writeChunk { r with buf := none } b) else none
  | none => read s r remote
where
  /-- Reads, then writes. -/
  read (s : State) (r : CopyRun) (remote : List Byte) : Option State :=
    match (s.readChunk { r with asked := [] }).run (remote, []) with
    | .ok (x, ([], keys)) =>
      let s := (s.meetErrs (s.errsBy (some r.e.own.core) false keys)).1
      match x with
      | .data r b => some (s.writeChunk r b)
      | .skip r => some (s.setRun (if r.total == some r.done then { r with fin := true } else r))
      | .ends bits => some (s.setRun (r.finish bits))
    | .ok _ => none
    | .error (.short ks) =>
      let o := r.e.own
      if ks.all r.asked.contains then none
      else some ((s.setRun { r with asked := ks ++ r.asked }).sendReads r.id o.part o.core (s.copyEpoch o) ks)
    | .error (.ecc q) =>
      let s := s.countDouble
      match r.e.kind, q with
      | .ssend, _ => some (s.gathered { r with asked := [], status := r.status ||| 4 })
      | _, some q => some (s.setRun { q with status := q.status ||| 4 })
      | _, none => some (s.setRun { r.miss with asked := [], status := r.status ||| 4 })
    | .error (.fault va a f) => some (s.stopChannel r false va a f)

/-- Meaning of COPY_CHUNK_TRANSFER (R240). `remote` is what the fabric returned for source bytes elsewhere. -/
def execCopyChunkTransfer (core ch id : Nat) (remote : List Byte) (s : State) : Host.Outcome State Fault Refusal :=
  let no : Host.Outcome State Fault Refusal := .refused (.notEnabled "COPY_CHUNK_TRANSFER")
  match s.run id with
  | some r =>
    if s.powered ∧ r.e.own.core = core ∧ r.ch = ch ∧ s.chunkOk r then
      match s.moveChunk r remote with
      | some t => .next t
      | none => no
    else no
  | none => no

/-! ### Stopped channels (R194, R241) -/

/-- Home of a completion record (R238): a write that needs W. -/
def State.recordSpan (s : State) (e : CopyEntry) : Except CopyStop Span := s.copySpan e .atomic [(e.record, 16)]

/-- The command's own work and its remote writes are done, so its record may be written (R206, R254). -/
def State.recordDue (s : State) (r : CopyRun) : Bool :=
  r.fin && !r.sent && !(s.remote.any fun q => q.group == r.id && q.copy) &&
  (vget (s.core r.e.own.core).ch r.ch default).stop.isNone &&
  (r.e.kind != .cadd || !(s.copies.any fun q => q.e.own.core == r.e.own.core && q.ch == r.ch && decide (q.seq < r.seq)))

/-- VA of the release word of a ring (R249). -/
def CopyEntry.releaseVa (e : CopyEntry) : Nat := Config.windowBase + fld e.ra 21 0 + 1024 * fld e.ra 29 24

/-- What reading the release word meets, where its bank refuses the channel (R175). -/
def State.releaseFault (s : State) (e : CopyEntry) : Option WalkFault :=
  match s.noWalk (clusterOf e.own.core) (e.releaseVa / 4096) with | some (.fault f) => some f | _ => none

/-- A group of a ring still lacks its permit, and the channel runs. -/
def State.wantsPermit (s : State) (r : CopyRun) : Bool :=
  r.e.ring && !r.fin && (match r.total with | some n => decide (r.permit < n) | none => false) &&
  (vget (s.core r.e.own.core).ch r.ch default).stop.isNone

/-- Meaning of COPY_CHANNEL_FAULT (R194): the next access of the command does not translate, so its channel stops. -/
def execCopyChannelFault (core ch id : Nat) (s : State) : Host.Outcome State Fault Refusal :=
  let no : Host.Outcome State Fault Refusal := .refused (.notEnabled "COPY_CHANNEL_FAULT")
  match s.run id with
  | none => no
  | some r =>
    if s.powered ∧ r.e.own.core = core ∧ r.ch = ch then
      if s.recordDue r && r.e.cen then
        match s.recordSpan r.e with
        | .error (.fault va a f) => .next (s.stopChannel r true va a f)
        | _ => no
      else if s.wantsPermit r && (s.releaseFault r.e).isSome then
        match s.releaseFault r.e with
        | some f => .next (s.stopChannel r false r.e.releaseVa .read f)
        | none => no
      else if s.chunkOk r then
        match s.moveChunk r [] with
        | some t => if (vget (t.core core).ch ch default).stop.isSome then .next t else no
        | none => no
      else no
    else no

/-- A SRAM-window refusal is judged again at service (R175): it is good where the bank now takes the access. -/
def State.windowGood (s : State) (core : Nat) (st : ChanStop) : Bool :=
  if fld st.synd1 3 0 = 5 then
    match s.noWalk (clusterOf core) (st.synd0.toNat / 4096) with | some (.ok _) => true | _ => false
  else true

/-- A command ends: flags, C and CWP of its instance; a copy fault where the status has FAULT or NOPERM (R238, R239, R242,
R247). -/
def State.endCopy (s : State) (r : CopyRun) : State :=
  let s := { s with copies := s.copies.filter fun q => q.id != r.id }
  let s := s.modInst r.e.own.uid fun c =>
    { c with cnt := { c.cnt with c := c.cnt.c - 1 }, drops := { c.lost s.pcc with c := (c.lost s.pcc).c + 1 }, e := { c.e with fpflags := c.e.fpflags ||| r.flags } }
  let s := if r.e.ord then s.modCwp r.e.own.uid r.ch fun w => putBits w 63 1 1 else s
  if bit r.status 8 || bit r.status 1 then
    s.postAsync r.e.own.uid { code := 0x14, synd0 := word r.e.record, synd1 := r.status.setWidth 64, synd2 := 0
                              synd3 := word r.ch }
  else s

/-- Service has failed: the command ends with FAULT. The stream of an `ssend` then counts as empty in its round (log entry 36). -/
def State.failCopy (s : State) (r : CopyRun) : State :=
  let s := s.setRun (r.finish 256)
  if r.e.kind = .ssend then s.sendStream (r.finish 256) [] else s

/-- Meaning of COPY_CHANNEL_RESUME (R241): after service the channel goes on, or the command ends with FAULT. -/
def execCopyChannelResume (core ch : Nat) (ok : Bool) (s : State) : Host.Outcome State Fault Refusal :=
  let no : Host.Outcome State Fault Refusal := .refused (.notEnabled "COPY_CHANNEL_RESUME")
  match (vget (s.core core).ch ch default).stop with
  | none => no
  | some st =>
    if s.powered ∧ core < 256 ∧ (fld st.synd1 3 0 ≠ 5 ∨ ok = s.windowGood core st) then
      let s := s.modCore core fun c => c.modCh ch fun h => { h with stop := none }
      match s.run st.id with
      | none => .next s
      | some r =>
        if ok then .next s
        else if st.atRec then .next (s.endCopy { r with status := r.status ||| 256 })
        else .next (s.failCopy r)
    else no

/-! ### Completion (R238) -/

/-- The indivisible record step at its home: add to the counter, OR into the status. -/
def State.recordStep (s : State) (keys : List Nat) (add status : Word) : State :=
  let rd (l : List Nat) : Nat := ofBytes (l.map s.readHome)
  let c := rd (keys.take 8)
  let t := rd (keys.drop 8)
  s.writeHomes (keys.zip (toBytes 8 ((c + add.toNat) % 2 ^ 64) ++ toBytes 8 (t ||| status.toNat)))

/-- A record step at its home, where no uncorrectable error keeps it from being performed (R189, R238). -/
def State.recordTry (s : State) (core : Option Nat) (keys : List Nat) (add status : Word) : State × Option SoftErr :=
  let r := s.meetErrs (s.errsBy core false (s.metKeys true keys))
  match r.2 with
  | some e => (r.1, some e)
  | none => (r.1.recordStep keys add status, none)

/-- Sends a record step to another accelerator as one Atomic request (R238, R334), and notes that it awaits its response. -/
def State.sendRecord (s : State) (own : Owner) (agent epoch slot group va key : Nat) (add status : Word) : State :=
  let pl := atomicPayload 0 0 true false add.toNat status.toNat
  s.request own agent epoch slot group false va key 2 2 pl.length pl

/-- The root stage of the tree of an `ssend` runs on this package (R343). -/
def State.rootHere (s : State) (e : CopyEntry) : Bool :=
  e.kind == .ssend && s.trees.any fun t => t.num == fld e.rc 47 32 && t.stages.any fun g => g.parent.isNone && g.acc == s.accNum

/-- Status bits that the far end of a `put` or an `ssend` reports (R252, R253): `put` may end with NORECV, KEY, TYPE or OVF,
`ssend` with STREAM, KEY or FAULT. -/
def endBits (k : CopyKind) (code : Nat) : Option (BitVec 9) :=
  match k with
  | .put => if [0, 64, 16, 8, 128].contains code then some (BitVec.ofNat 9 code) else none
  | .ssend => if [0, 32, 16, 256].contains code then some (BitVec.ofNat 9 code) else none
  | _ => if code = 0 then some 0 else none

/-- Meaning of COMPLETION_RECORD (R206, R238). `code` holds the status bits that come from the far end of a `put` or of an
`ssend` whose root is elsewhere, else 0. -/
def execCompletionRecord (core ch id code : Nat) (s : State) : Host.Outcome State Fault Refusal :=
  let no : Host.Outcome State Fault Refusal := .refused (.notEnabled "COMPLETION_RECORD")
  match s.run id with
  | none => no
  | some r =>
    if !(s.powered && r.e.own.core == core && r.ch == ch) then no
    else
      let far := !r.fin && (r.e.kind == .put || r.e.kind == .ssend) && !s.rootHere r.e && r.total == some r.done && r.buf.isNone
      let r' := if far then (endBits r.e.kind code).map r.finish else if code = 0 then some r else none
      match r' with
      | none => no
      | some r =>
        let s := s.setRun r
        if !s.recordDue r then no
        else if !r.e.cen then .next (s.endCopy r)
        else
          let w := s.checkWalks r.e [(r.e.record, 16)]
          match w.1.recordSpan r.e, w.2 with
          | _, some e => .next ((w.1.postAsync r.e.own.uid (eccCause core e r.e.record)).endCopy r)
          | .error _, none => no
          | .ok sp, none =>
            let s := w.1
            let k := sp.key r.e.record
            if isRemote k then
              let o := r.e.own
              .next ((s.setRun { r with sent := true }).sendRecord o core (s.copyEpoch o) (4 + ch) r.id r.e.record k r.e.addend
                (r.status.setWidth 64))
            else
              let y := s.recordTry (some core) sp.keys r.e.addend (r.status.setWidth 64)
              match y.2 with
              | some e => .next ((y.1.postAsync r.e.own.uid (eccCause core e r.e.record)).endCopy r)
              | none => .next ((y.1.takePlace (s.event r.e.own core 3 (.add k))).endCopy r)

/-! ### Ring permits (R249) -/

/-- Scratchpad address of a ring's release word. -/
def CopyEntry.releaseAddr (e : CopyEntry) : Nat := fld e.ra 21 0 + 1024 * fld e.ra 29 24

/-- The release word of a ring as its channel reads it at the bank. -/
def State.releaseWord (s : State) (e : CopyEntry) : Nat :=
  ofBytes ((s.cluster (clusterOf e.own.core)).sram.readBytes e.releaseAddr 4)

/-- The errors that reading the release word meets (R189). -/
def State.releaseErrs (s : State) (e : CopyEntry) : List SoftErr :=
  s.errsBy (some e.own.core) false ((List.range 4).map fun j => sramKey (clusterOf e.own.core) (e.releaseAddr + j))

/-- The channel reads the release word for group `r.permit` of a ring, and may grant its permit: until the deadline, while its channel runs and
the bank of the release word takes the read (R175, R249). -/
def State.permitOk (s : State) (r : CopyRun) : Bool :=
  s.wantsPermit r && (s.releaseFault r.e).isNone && (fld r.e.rc 63 32 == 0 || decide (s.pcc ≤ r.start + fld r.e.rc 63 32)) &&
  (decide (r.permit + 1 ≤ s.releaseWord r.e + fld r.e.ra 29 24) || (s.releaseErrs r.e).any fun x => decide (2 ≤ x.bits))

/-- Meaning of CEXP_PERMIT_GRANT. A release word with an uncorrectable error ends the command with ECC instead (R189; log entry 73). -/
def execCexpPermitGrant (core ch id : Nat) (s : State) : Host.Outcome State Fault Refusal :=
  match s.run id with
  | some r =>
    let m := s.meetErrs (s.releaseErrs r.e)
    if s.powered ∧ r.e.own.core = core ∧ r.ch = ch ∧ s.permitOk r then
      .next (m.1.setRun (if m.2.isSome then r.finish 4 else { r with permit := r.permit + 1 }))
    else .refused (.notEnabled "CEXP_PERMIT_GRANT")
  | none => .refused (.notEnabled "CEXP_PERMIT_GRANT")

/-- The next group of a ring lacks its permit at the deadline (R249, R255): the groups that have one go first. -/
def State.permitLate (s : State) (r : CopyRun) : Bool :=
  r.e.ring && !r.fin && fld r.e.rc 63 32 != 0 && decide (r.start + fld r.e.rc 63 32 ≤ s.pcc) && !s.permitOk r &&
  decide (r.permit ≤ r.done) && (match r.total with | some n => decide (r.permit < n) | none => false)

/-- Meaning of CEXP_PERMIT_DEADLINE: the command ends with NOPERM. -/
def execCexpPermitDeadline (core ch id : Nat) (s : State) : Host.Outcome State Fault Refusal :=
  match s.run id with
  | some r =>
    if s.powered ∧ r.e.own.core = core ∧ r.ch = ch ∧ s.permitLate r then .next (s.setRun (r.finish 2))
    else .refused (.notEnabled "CEXP_PERMIT_DEADLINE")
  | none => .refused (.notEnabled "CEXP_PERMIT_DEADLINE")

/-! ### Typed receives (R252) -/

/-- A posting that matches a send: tenant, source, tag; the first posted. -/
def State.posting (s : State) (q : Send) : Option CopyRun :=
  s.copies.find? fun r => r.e.kind == .get && !r.fin && s.tenant r.e.own.part == q.tenant && fld r.e.rc 13 0 == q.src &&
    fld r.e.rc 31 16 == q.tag

/-- Answers the source of a typed send (R252, R334, R338): an acknowledgement, or an error response for a message of class 9 with the code
that stands for the sender's status (log entry 21). -/
def State.answerSend (s : State) (q : Send) (status : Nat) : State :=
  let pl := if status = 0 then [] else toBytes 2 (Config.sendCode status) ++ toBytes 2 9
  s.sendFlit 0 { dst := q.src, src := s.accNum, ten := q.tenant, ktag := (assoc s.outKeys q.tenant).getD 0, cls := (if status = 0 then 4 else 6),
                 tyw := false, agent := q.agent, epoch := 0, len := pl.length, vch := 1, pa := q.tag, payload := pl }

/-- The carried word against the posted box (R61, R225, R252): the carried word is A, the box the destination; a failure is
charged with REF 2 whichever of the two it names (R61). -/
def sendTypes (r : CopyRun) (ty : TypeWord) : Except TyFault Unit :=
  let a : Origin := { opnd := 0, ref := 2, treg := 0, win := 0 }
  let b : Origin := { opnd := 3, ref := 2, treg := 0, win := 0 }
  let go : TyM Unit := do
    checkWord a ty
    checkWord b r.e.box
    unifyAll a ty b r.e.box
  let d := (List.range 4).foldl (fun (d : Dims) k =>
    let f := tyExt r.e.box k
    if bit f 15 then vset d (fld f 3 0) (some (BitVec.ofNat 32 (r.e.ext[k]?.getD 1))) else d) (Vector.replicate 16 none)
  match go.run d with
  | .ok _ => .ok ()
  | .error e => .error e

/-- Meaning of PUT_MATCH (R252): the oldest send that a posting matches is unified and written through the window. -/
def execPutMatch (send : Nat) (s : State) : Host.Outcome State Fault Refusal :=
  let no : Host.Outcome State Fault Refusal := .refused (.notEnabled "PUT_MATCH")
  match s.sends.find? fun q => q.id == send with
  | none => no
  | some q =>
    let first := s.sends.find? fun p => p.tenant == q.tenant && p.src == q.src && p.tag == q.tag
    match s.posting q with
    | none => no
    | some r =>
      if !(s.powered && first == some q) then no
      else
        let gone := { s with sends := s.sends.filter fun p => p.id != send }
        match sendTypes r q.ty with
        | .error e =>
          let k : Cause := { code := e.code, synd0 := e.synd0, synd1 := e.synd1, synd2 := e.synd2, synd3 := 0 }
          .next (((gone.setRun (r.finish 8)).postAsync r.e.own.uid k).answerSend q 8)
        | .ok _ =>
          let img := q.image ++ List.replicate (8192 - q.image.length) 0
          let d : TileData := BitVec.ofNat 65536 (ofBytes img)
          let c := imageEscapes r.e.desc (geoOf r.e.box r.e.ext) d
          if (vget (s.core r.e.own.core).ch r.ch default).stop.isSome then no
          else if 64 < c then .next ((gone.setRun (r.finish 128)).answerSend q 128)
          else
            let ws := boxWrites r.e.desc r.e.box r.e.ext r.e.org d c
            let dest := joinRanges (ws.map fun w => (w.1, 1))
            let w := s.checkWalks r.e dest
            match s.copySpan r.e .write dest, w.2 with
            -- the receive ends with ECC, and the send waits for another (log entry 73)
            | _, some _ => .next (w.1.setRun (r.finish 4))
            | .error (.fault va a f), none => .next (s.stopChannel r false va a f)
            | .error _, none => no
            | .ok sp, none => .next (((gone.copyWrite r sp ws).setRun (r.finish 0)).answerSend q 0)

/-- Sends that have waited 2^24 PCC cycles (R252). -/
def State.staleSends (s : State) : List Send := s.sends.filter fun q => decide (q.pcc + 2 ^ 24 ≤ s.pcc)

/-- Meaning of PUT_NORECV_TIMEOUT (R252): every send that has waited 2^24 PCC cycles ends with NORECV. -/
def execPutNorecvTimeout (s : State) : Host.Outcome State Fault Refusal :=
  match s.staleSends with
  | [] => .refused (.notEnabled "PUT_NORECV_TIMEOUT")
  | qs =>
    if s.powered then
      .next (qs.foldl (fun s q => s.answerSend q 64) { s with sends := s.sends.filter fun q => !qs.contains q })
    else .refused (.notEnabled "PUT_NORECV_TIMEOUT")

end Sys2Proof.Machine
end

