-- ==== Sys2Proof/Machine/Vector.lean ====
section
/-! DEFINITION. The forms of both V slots (R147 to R163): floating-point and integer arithmetic, conversion, compares, mask logic, moves,
permutes, reductions, scans, tile rows. -/

namespace Sys2Proof.Machine

/-! ### Elements (R147, R148) -/

/-- Elements of width `w` in a vector register. -/
def nElem (w : Nat) : Nat := 2048 / w
/-- Element j of width w, as its code. -/
def elem (w : Nat) (x : VReg) (j : Nat) : Nat := (x.extractLsb' (w * j) w).toNat
/-- Governing lane of element j. -/
def govLane (w j : Nat) : Nat := w * j / 32
/-- The element takes part. -/
def active (mask : Word) (w j : Nat) : Bool := bit mask (govLane w j)

/-- A vector result under construction: values, the bits that are written, the flags. -/
structure VRes where
  val   : VReg
  mask  : VReg
  flags : Flags

/-- A vector result from the code and flags of each element that is written. -/
def vBuild (w : Nat) (f : Nat → Option (Nat × Flags)) : VRes :=
  (List.range (nElem w)).foldl (fun a j =>
    match f j with
    | none => a
    | some (x, g) =>
      { val := a.val ||| (BitVec.ofNat 2048 (x % 2 ^ w) <<< (w * j))
        mask := a.mask ||| (BitVec.ofNat 2048 (2 ^ w - 1) <<< (w * j)), flags := a.flags ||| g })
    { val := 0, mask := 0, flags := 0 }

/-- A result on active elements only. -/
def vActive (w : Nat) (mask : Word) (f : Nat → Nat × Flags) : VRes :=
  vBuild w fun j => if active mask w j then some (f j) else none

/-- Lands a vector result. -/
def Ctx.wRes (x : Ctx) (vd : BitVec 6) (r : VRes) (lat : Nat) : SlotM Unit := x.wV vd.toNat r.val r.mask lat r.flags

/-- Notes that the bundle carries floating-point arithmetic (R306). -/
def noteFp : SlotM Unit := modify fun b => { b with fp := b.fp + 1 }

/-! ### Floating-point arithmetic (R150, R151) -/

/-- A floating-point operation of one source. -/
def fUn (i : Instr) (h : Hdr) (o : VR) (lat : Nat) (f : FFmt → RMode → Nat → Nat × Flags) : SlotOp :=
  mkOp i h fun x => do
    let a ← x.rV o.va.toNat
    let m ← x.rM o.msk.toNat
    noteFp
    let t := ffmtEt o.et.toNat
    x.wRes o.vd (vActive t.w m fun j => f t (rmode o.rm.toNat) (elem t.w a j)) lat

/-- A floating-point operation of two sources. -/
def fBin (i : Instr) (h : Hdr) (o : VR) (lat : Nat) (f : FFmt → RMode → Nat → Nat → Nat × Flags) : SlotOp :=
  mkOp i h fun x => do
    let a ← x.rV o.va.toNat
    let b ← x.rV o.vb.toNat
    let m ← x.rM o.msk.toNat
    noteFp
    let t := ffmtEt o.et.toNat
    x.wRes o.vd (vActive t.w m fun j => f t (rmode o.rm.toNat) (elem t.w a j) (elem t.w b j)) lat

/-- A fused operation; `neg` negates the addend. VA is read before VB and VC (log entry 63). -/
def fFused (i : Instr) (h : Hdr) (o : VR) (neg : Bool) : SlotOp :=
  mkOp i h fun x => do
    let a ← x.rV o.va.toNat
    let b ← x.rV o.vb.toNat
    let c ← x.rV o.vc.toNat
    let m ← x.rM o.msk.toNat
    noteFp
    let t := ffmtEt o.et.toNat
    let rm := rmode o.rm.toNat
    x.wRes o.vd (vActive t.w m fun j =>
      let z := t.decode (elem t.w c j)
      t.round rm (ieeeSum rm [(t.decode (elem t.w a j)).mul (t.decode (elem t.w b j)), if neg then z.negate else z])) 4

/-- Rounds a value that carries flags of its own. -/
def FFmt.roundWith (f : FFmt) (m : RMode) (x : Num × Flags) : Nat × Flags :=
  let r := f.round m x.1
  (r.1, r.2 ||| x.2)

/-- A change of sign (R151): numbers keep their magnitude bits; a NaN gives the canonical NaN. -/
def FFmt.signOp (f : FFmt) (g : Bool → Bool) (code : Nat) : Nat × Flags :=
  let x := f.decode code
  if x.isNan then (f.nan, flagIf x.raises flagNV) else (f.sign (g (code.testBit (f.w - 1))) + code % 2 ^ (f.w - 1), 0)

/-- `vfadd`. -/
def vfaddOp (h : Hdr) (o : VR) : SlotOp := fBin (.vfadd h o) h o 4 fun t m a b => t.add m a b
/-- `vfsub`. -/
def vfsubOp (h : Hdr) (o : VR) : SlotOp :=
  fBin (.vfsub h o) h o 4 fun t m a b => t.round m (ieeeSum m [t.decode a, (t.decode b).negate])
/-- `vfmul`. -/
def vfmulOp (h : Hdr) (o : VR) : SlotOp := fBin (.vfmul h o) h o 4 fun t m a b => t.round m ((t.decode a).mul (t.decode b))
/-- `vffma`. -/
def vffmaOp (h : Hdr) (o : VR) : SlotOp := fFused (.vffma h o) h o false
/-- `vffms`. -/
def vffmsOp (h : Hdr) (o : VR) : SlotOp := fFused (.vffms h o) h o true
/-- `vfmin`. -/
def vfminOp (h : Hdr) (o : VR) : SlotOp := fBin (.vfmin h o) h o 4 fun t _ a b => t.minmax false a b
/-- `vfmax`. -/
def vfmaxOp (h : Hdr) (o : VR) : SlotOp := fBin (.vfmax h o) h o 4 fun t _ a b => t.minmax true a b
/-- `vfabs`. -/
def vfabsOp (h : Hdr) (o : VR) : SlotOp := fUn (.vfabs h o) h o 4 fun t _ a => t.signOp (fun _ => false) a
/-- `vfneg`. -/
def vfnegOp (h : Hdr) (o : VR) : SlotOp := fUn (.vfneg h o) h o 4 fun t _ a => t.signOp (fun s => !s) a
/-- `vfdiv`. -/
def vfdivOp (h : Hdr) (o : VR) : SlotOp := fBin (.vfdiv h o) h o 12 fun t m a b => t.roundWith m ((t.decode a).div (t.decode b))
/-- `vfsqrt`. -/
def vfsqrtOp (h : Hdr) (o : VR) : SlotOp := fUn (.vfsqrt h o) h o 12 fun t m a => t.round m (t.decode a).sqrt
/-- `vfexp2`. -/
def vfexp2Op (h : Hdr) (o : VR) : SlotOp := fUn (.vfexp2 h o) h o 8 fun t m a => t.round m (t.decode a).exp2
/-- `vflog2`. -/
def vflog2Op (h : Hdr) (o : VR) : SlotOp := fUn (.vflog2 h o) h o 8 fun t m a => t.roundWith m (t.decode a).log2
/-- `vfrcp`. -/
def vfrcpOp (h : Hdr) (o : VR) : SlotOp :=
  fUn (.vfrcp h o) h o 8 fun t m a => t.roundWith m ((Num.fin false 1 0).div (t.decode a))
/-- `vfrsq`. -/
def vfrsqOp (h : Hdr) (o : VR) : SlotOp := fUn (.vfrsq h o) h o 8 fun t m a => t.roundWith m (t.decode a).rsqrt

/-! ### Integer arithmetic (R152, R153) -/

/-- An integer operation of two sources on codes of width w. -/
def iBin (i : Instr) (h : Hdr) (o : VR) (f : Nat → Nat → Nat → Nat × Flags) : SlotOp :=
  mkOp i h fun x => do
    let a ← x.rV o.va.toNat
    let b ← x.rV o.vb.toNat
    let m ← x.rM o.msk.toNat
    let w := etWidth o.et
    x.wRes o.vd (vActive w m fun j => f w (elem w a j) (elem w b j)) 2

/-- `.sat` of a vector form. -/
def vSat (o : VR) : Bool := bit o.mod 0
/-- The operand as `.u` reads it. -/
def vVal (o : VR) (w a : Nat) : Int := if bit o.mod 1 then (a : Int) else sgn w a

/-- `vadd`. -/
def vaddOp (h : Hdr) (o : VR) : SlotOp := iBin (.vadd h o) h o fun w a b => intRes w (vSat o) (sgn w a + sgn w b)
/-- `vsub`. -/
def vsubOp (h : Hdr) (o : VR) : SlotOp := iBin (.vsub h o) h o fun w a b => intRes w (vSat o) (sgn w a - sgn w b)
/-- `vmul`. -/
def vmulOp (h : Hdr) (o : VR) : SlotOp := iBin (.vmul h o) h o fun w a b => intRes w (vSat o) (sgn w a * sgn w b)
/-- `vmulh`. -/
def vmulhOp (h : Hdr) (o : VR) : SlotOp := iBin (.vmulh h o) h o fun w a b => (wrap w (vVal o w a * vVal o w b / 2 ^ w), 0)
/-- `vand`. -/
def vandOp (h : Hdr) (o : VR) : SlotOp := iBin (.vand h o) h o fun _ a b => (a &&& b, 0)
/-- `vor`. -/
def vorOp (h : Hdr) (o : VR) : SlotOp := iBin (.vor h o) h o fun _ a b => (a ||| b, 0)
/-- `vxor`. -/
def vxorOp (h : Hdr) (o : VR) : SlotOp := iBin (.vxor h o) h o fun _ a b => (a ^^^ b, 0)
/-- `vandn`. -/
def vandnOp (h : Hdr) (o : VR) : SlotOp := iBin (.vandn h o) h o fun w a b => (a &&& (2 ^ w - 1 - b), 0)
/-- `vsll`. -/
def vsllOp (h : Hdr) (o : VR) : SlotOp := iBin (.vsll h o) h o fun w a b => (a * 2 ^ (b % w) % 2 ^ w, 0)
/-- `vsrl`. -/
def vsrlOp (h : Hdr) (o : VR) : SlotOp := iBin (.vsrl h o) h o fun w a b => (a / 2 ^ (b % w), 0)
/-- `vsra`. -/
def vsraOp (h : Hdr) (o : VR) : SlotOp := iBin (.vsra h o) h o fun w a b => (wrap w (sgn w a / 2 ^ (b % w)), 0)
/-- `vmin`. -/
def vminOp (h : Hdr) (o : VR) : SlotOp := iBin (.vmin h o) h o fun w a b => (if vVal o w b < vVal o w a then b else a, 0)
/-- `vmax`. -/
def vmaxOp (h : Hdr) (o : VR) : SlotOp := iBin (.vmax h o) h o fun w a b => (if vVal o w a < vVal o w b then b else a, 0)
/-- `vabs`. -/
def vabsOp (h : Hdr) (o : VR) : SlotOp :=
  mkOp (.vabs h o) h fun x => do
    let a ← x.rV o.va.toNat
    let m ← x.rM o.msk.toNat
    let w := etWidth o.et
    x.wRes o.vd (vActive w m fun j => intRes w (vSat o) (sgn w (elem w a j)).natAbs) 2

/-! ### Conversion (R154) -/

/-- Converts one element between ET types. -/
def vConvert (dst src : BitVec 3) (m : RMode) (a : Nat) : Nat × Flags :=
  let wd := etWidth dst
  let ws := etWidth src
  if etFloat src then
    let v := (ffmtEt src.toNat).decode a
    if etFloat dst then (ffmtEt dst.toNat).round m v
    else
      let r := v.toInt wd m
      (wrap wd r.1, r.2)
  else if etFloat dst then (ffmtEt dst.toNat).round m (Num.ofInt (sgn ws a))
  else intRes wd true (sgn ws a)

/-- Source element that destination element k takes, if any. -/
def vcvtFrom (nd ns k : Nat) (hi : Bool) : Option Nat :=
  if nd = 2 * ns then
    let k' := k - (if hi then ns else 0)
    if (hi && decide (k < ns)) || decide (ns ≤ k') then none else some k'
  else if ns = 2 * nd then some (k + (if hi then nd else 0))
  else some k

/-- `vcvt`. -/
def vcvtOp (h : Hdr) (o : VR) : SlotOp :=
  mkOp (.vcvt h o) h fun x => do
    let a ← x.rV o.va.toNat
    let m ← x.rM o.msk.toNat
    let src : BitVec 3 := o.mod.extractLsb' 0 3
    let wd := etWidth o.et
    let ws := etWidth src
    x.wRes o.vd (vBuild wd fun k =>
      match vcvtFrom (nElem wd) (nElem ws) k (bit o.mod 3) with
      | some j => if active m wd k then some (vConvert o.et src (rmode o.rm.toNat) (elem ws a j)) else none
      | none => none) 4

/-! ### Compares and mask logic (R155 to R157) -/

/-- Result and flags of `vfcmp` on two codes. -/
def fCompare (t : FFmt) (cc a b : Nat) : Bool × Flags :=
  let x := t.decode a
  let y := t.decode b
  if x.isNan || y.isNan then
    (cc == 1 || cc == 6, flagIf ((decide (2 ≤ cc) && decide (cc ≤ 5)) || x.raises || y.raises) flagNV)
  else
    let p := t.key a
    let q := t.key b
    (match cc with
      | 0 => p == q | 1 => p != q | 2 => decide (p < q) | 3 => decide (p ≤ q) | 4 => decide (q < p) | 5 => decide (q ≤ p) | _ => false, 0)

/-- Result of `vcmp` on two INT32 codes. -/
def iCompare (cc a b : Nat) : Bool :=
  match cc with
  | 0 => a == b | 1 => a != b | 2 => decide (sgn 32 a < sgn 32 b) | 3 => decide (sgn 32 b ≤ sgn 32 a)
  | 4 => decide (a < b) | _ => decide (b ≤ a)

/-- Lands the mask of a compare: every lane of an active element holds its result, every other lane 0. -/
def vCompare (i : Instr) (h : Hdr) (o : VC) (f : Nat → Nat → Bool × Flags) : SlotOp :=
  mkOp i h fun x => do
    let a ← x.rV o.va.toNat
    let b ← x.rV o.vb.toNat
    let m ← x.rM o.msk.toNat
    let w := etWidth o.et
    let r := (List.range (nElem w)).foldl (fun (acc : Word × Flags) j =>
      if active m w j then
        let y := f (elem w a j) (elem w b j)
        (if y.1 then acc.1 ||| (word (2 ^ (w / 32) - 1) <<< govLane w j) else acc.1, acc.2 ||| y.2)
      else acc) ((0 : Word), (0 : Flags))
    x.wM o.md.toNat r.1 2 r.2

/-- `vfcmp`. -/
def vfcmpOp (h : Hdr) (o : VC) : SlotOp := vCompare (.vfcmp h o) h o (fCompare (ffmtEt o.et.toNat) o.cc.toNat)
/-- `vcmp`. -/
def vcmpOp (h : Hdr) (o : VC) : SlotOp := vCompare (.vcmp h o) h o fun a b => (iCompare o.cc.toNat a b, 0)

/-- A mask-logic operation. -/
def maskOp (i : Instr) (h : Hdr) (o : VM) (f : Word → Word → Word) : SlotOp :=
  mkOp i h fun x => do
    let a ← x.rM o.ma.toNat
    let b ← x.rM o.mb.toNat
    x.wM o.md.toNat (f a b) 2

/-- `mand`. -/
def mandOp (h : Hdr) (o : VM) : SlotOp := maskOp (.mand h o) h o (· &&& ·)
/-- `mor`. -/
def morOp (h : Hdr) (o : VM) : SlotOp := maskOp (.mor h o) h o (· ||| ·)
/-- `mxor`. -/
def mxorOp (h : Hdr) (o : VM) : SlotOp := maskOp (.mxor h o) h o (· ^^^ ·)
/-- `mandn`. -/
def mandnOp (h : Hdr) (o : VM) : SlotOp := maskOp (.mandn h o) h o fun a b => a &&& ~~~b
/-- `mpop`. -/
def mpopOp (h : Hdr) (o : VM) : SlotOp :=
  mkOp (.mpop h o) h fun x => do
    let a ← x.rM o.ma.toNat
    x.wS o.rd.toNat (word ((List.range 64).filter (bit a)).length) 2

/-! ### Moves and permutes (R158 to R161) -/

/-- `vmerge`. -/
def vmergeOp (h : Hdr) (o : VR) : SlotOp :=
  mkOp (.vmerge h o) h fun x => do
    let a ← x.rV o.va.toNat
    let b ← x.rV o.vb.toNat
    let m ← x.rM o.msk.toNat
    let w := etWidth o.et
    x.wRes o.vd (vBuild w fun j => some (elem w (if active m w j then a else b) j, 0)) 2
/-- `vlane`. -/
def vlaneOp (h : Hdr) (o : VR) : SlotOp :=
  mkOp (.vlane h o) h fun x => do
    let m ← x.rM o.msk.toNat
    x.wRes o.vd (vActive 32 m fun j => (j, 0)) 2
/-- `vbcast`. -/
def vbcastOp (h : Hdr) (o : VS) : SlotOp :=
  mkOp (.vbcast h o) h fun x => do
    let a ← x.rS o.sa.toNat
    let m ← x.rM o.msk.toNat
    x.wRes o.vd (vActive (etWidth o.et) m fun _ => (a.toNat, 0)) 2
/-- `vmovs`: VD names the scalar destination. That k lies below the number of elements is the instruction's own check, judged where its
guard reads true and after its reads (R159; log entry 62). -/
def vmovsOp (h : Hdr) (o : VS) : SlotOp :=
  mkOp (.vmovs h o) h fun x => do
    let a ← x.rV o.va.toNat
    let w := etWidth o.et
    let k := fld o.imm 5 0
    x.need (decide (k < nElem w)) 0 0
    let v := elem w a k
    x.wS o.vd.toNat (if o.et = 4 then BitVec.ofInt 64 (sgn 32 v) else word v) 3
/-- `vmovs.ins`. -/
def vmovsInsOp (h : Hdr) (o : VS) : SlotOp :=
  mkOp (.vmovsIns h o) h fun x => do
    let a ← x.rS o.sa.toNat
    let w := etWidth o.et
    let k := fld o.imm 5 0
    x.need (decide (k < nElem w)) 0 0
    x.wRes o.vd (vBuild w fun j => if j = k then some (a.toNat, 0) else none) 3
/-- `vperm`. -/
def vpermOp (h : Hdr) (o : VR) : SlotOp :=
  mkOp (.vperm h o) h fun x => do
    let a ← x.rV o.va.toNat
    let b ← x.rV o.vb.toNat
    let c ← x.rV o.vc.toNat
    let m ← x.rM o.msk.toNat
    let w := etWidth o.et
    let n := nElem w
    x.wRes o.vd (vActive w m fun j =>
      let k := elem 32 c (govLane w j) % (2 * n)
      (if k < n then elem w a k else elem w b (k - n), 0)) 3
/-- `vslide`. -/
def vslideOp (h : Hdr) (o : VR) : SlotOp :=
  mkOp (.vslide h o) h fun x => do
    let a ← x.rV o.va.toNat
    let b ← x.rV o.vb.toNat
    let c ← x.rV o.vc.toNat
    let m ← x.rM o.msk.toNat
    let k := elem 32 c 0 % 64
    x.wRes o.vd (vActive 32 m fun i => (if i + k < 64 then elem 32 a (i + k) else elem 32 b (i + k - 64), 0)) 3

/-! ### Reductions and scans (R81, R162) -/

/-- One level of the pairwise tree. -/
def treeLevel (f : Nat → Nat → Nat × Flags) : List Nat → List Nat × Flags
  | a :: b :: r =>
    let x := f a b
    let y := treeLevel f r
    (x.1 :: y.1, x.2 ||| y.2)
  | r => (r, 0)

/-- The pairwise tree over `n` levels. -/
def treeReduce (f : Nat → Nat → Nat × Flags) : Nat → List Nat → Flags → List Nat × Flags
  | 0, l, g => (l, g)
  | n + 1, l, g =>
    let x := treeLevel f l
    treeReduce f n x.1 (g ||| x.2)

/-- The sequential scan from a running value, which it emits first. -/
def scanFrom (f : Nat → Nat → Nat × Flags) : Nat → List Nat → List Nat × Flags
  | r, [] => ([r], 0)
  | r, x :: xs =>
    let y := f r x
    let z := scanFrom f y.1 xs
    (r :: z.1, y.2 ||| z.2)

/-- Elements with excluded lanes replaced by the identity. -/
def withIdent (w : Nat) (a : VReg) (mask : Word) (ident : Nat) : List Nat :=
  (List.range (nElem w)).map fun j => if active mask w j then elem w a j else ident

/-- A reduction into element 0. -/
def vReduce (i : Instr) (h : Hdr) (o : VR) (w ident : Nat) (f : Nat → Nat → Nat × Flags) : SlotOp :=
  mkOp i h fun x => do
    let a ← x.rV o.va.toNat
    let m ← x.rM o.msk.toNat
    let r := treeReduce f (nElem w).log2 (withIdent w a m ident) 0
    x.wRes o.vd (vBuild w fun j => if j = 0 then some (r.1.headD 0, r.2) else none) 6

/-- A scan into every element. Element 0 of the result is `first` of element 0 (R81). -/
def vScan (i : Instr) (h : Hdr) (o : VR) (w ident : Nat) (first : Nat → Nat × Flags) (f : Nat → Nat → Nat × Flags) : SlotOp :=
  mkOp i h fun x => do
    let a ← x.rV o.va.toNat
    let m ← x.rM o.msk.toNat
    let l := withIdent w a m ident
    let a0 := first (l.headD 0)
    let r := scanFrom f a0.1 l.tail
    x.wRes o.vd (vBuild w fun j => some (r.1.getD j 0, a0.2 ||| r.2)) 6

/-- The step of a floating-point reduction. An addition is the sum of R79, of which −0 is the identity under every mode (R81; log
entry 60). -/
def fredStep (o : VR) (a b : Nat) : Nat × Flags :=
  let t := ffmtEt o.et.toNat
  match fld o.mod 1 0 with
  | 0 => t.sum (rmode o.rm.toNat) a b
  | 1 => t.minmax false a b
  | _ => t.minmax true a b

/-- Its identity: −0, +∞, −∞ (R81). -/
def fredIdent (o : VR) : Nat :=
  let t := ffmtEt o.et.toNat
  match fld o.mod 1 0 with | 0 => t.sign true | 1 => t.infCode false | _ => t.infCode true

/-- The step of an integer reduction. -/
def redStep (o : VR) (a b : Nat) : Nat × Flags :=
  match fld o.mod 2 0 with
  | 0 => intRes 32 (bit o.mod 3) (sgn 32 a + sgn 32 b)
  | 1 => (if sgn 32 b < sgn 32 a then b else a, 0)
  | 2 => (if sgn 32 a < sgn 32 b then b else a, 0)
  | 3 => (min a b, 0)
  | 4 => (max a b, 0)
  | 5 => (a &&& b, 0)
  | 6 => (a ||| b, 0)
  | _ => (a ^^^ b, 0)

/-- Its identity. -/
def redIdent (o : VR) : Nat :=
  match fld o.mod 2 0 with
  | 1 => 0x7FFFFFFF | 2 => 0x80000000 | 3 => 0xFFFFFFFF | 5 => 0xFFFFFFFF | _ => 0

/-- `vfred`. -/
def vfredOp (h : Hdr) (o : VR) : SlotOp := vReduce (.vfred h o) h o (etWidth o.et) (fredIdent o) (fredStep o)
/-- `vred`. -/
def vredOp (h : Hdr) (o : VR) : SlotOp := vReduce (.vred h o) h o 32 (redIdent o) (redStep o)
/-- `vfscan`: an element 0 that is a NaN gives the canonical NaN, with NV where it is signalling (R63). -/
def vfscanOp (h : Hdr) (o : VR) : SlotOp :=
  vScan (.vfscan h o) h o (etWidth o.et) (fredIdent o) ((ffmtEt o.et.toNat).signOp id) (fredStep o)
/-- `vscan`. -/
def vscanOp (h : Hdr) (o : VR) : SlotOp := vScan (.vscan h o) h o 32 (redIdent o) (fun a => (a, 0)) (redStep o)

/-! ### Tile rows (R163) -/

/-- Row number of a tile-row move; illegal outside 0 to 31. -/
def Ctx.tileRow (x : Ctx) (a : Word) (imm : BitVec 12) : SlotM Nat := do
  let rw := a + sx imm
  x.need (decide (rw.toNat < 32)) 0 0
  pure rw.toNat

/-- `vtrow`. -/
def vtrowOp (h : Hdr) (o : VT) : SlotOp :=
  mkOp (.vtrow h o) h fun x => do
    let a ← x.rS o.sa.toNat
    let t ← x.rT o.tt.toNat
    let m ← x.rM o.msk.toNat
    let rw ← x.tileRow a o.imm
    x.wV o.vd.toNat (t.extractLsb' (2048 * rw) 2048) (laneMask m) 3
/-- `vtwr`. -/
def vtwrOp (h : Hdr) (o : VT) : SlotOp :=
  mkOp (.vtwr h o) h fun x => do
    let a ← x.rS o.sa.toNat
    let v ← x.rV o.vd.toNat
    let m ← x.rM o.msk.toNat
    let rw ← x.tileRow a o.imm
    x.land 3 (.trow o.tt.toNat rw v (laneMask m))

/-! ### Meanings of single operations: a bundle that holds the operation and nothing else -/

/-- Meaning of VFADD. -/
def execVfadd (h : Hdr) (o : VR) (s : State) : Host.Outcome State Fault Refusal := issueOne (vfaddOp h o) s
/-- Meaning of VFSUB. -/
def execVfsub (h : Hdr) (o : VR) (s : State) : Host.Outcome State Fault Refusal := issueOne (vfsubOp h o) s
/-- Meaning of VFMUL. -/
def execVfmul (h : Hdr) (o : VR) (s : State) : Host.Outcome State Fault Refusal := issueOne (vfmulOp h o) s
/-- Meaning of VFFMA. -/
def execVffma (h : Hdr) (o : VR) (s : State) : Host.Outcome State Fault Refusal := issueOne (vffmaOp h o) s
/-- Meaning of VFFMS. -/
def execVffms (h : Hdr) (o : VR) (s : State) : Host.Outcome State Fault Refusal := issueOne (vffmsOp h o) s
/-- Meaning of VFMIN. -/
def execVfmin (h : Hdr) (o : VR) (s : State) : Host.Outcome State Fault Refusal := issueOne (vfminOp h o) s
/-- Meaning of VFMAX. -/
def execVfmax (h : Hdr) (o : VR) (s : State) : Host.Outcome State Fault Refusal := issueOne (vfmaxOp h o) s
/-- Meaning of VFABS. -/
def execVfabs (h : Hdr) (o : VR) (s : State) : Host.Outcome State Fault Refusal := issueOne (vfabsOp h o) s
/-- Meaning of VFNEG. -/
def execVfneg (h : Hdr) (o : VR) (s : State) : Host.Outcome State Fault Refusal := issueOne (vfnegOp h o) s
/-- Meaning of VFDIV. -/
def execVfdiv (h : Hdr) (o : VR) (s : State) : Host.Outcome State Fault Refusal := issueOne (vfdivOp h o) s
/-- Meaning of VFSQRT. -/
def execVfsqrt (h : Hdr) (o : VR) (s : State) : Host.Outcome State Fault Refusal := issueOne (vfsqrtOp h o) s
/-- Meaning of VFEXP2. -/
def execVfexp2 (h : Hdr) (o : VR) (s : State) : Host.Outcome State Fault Refusal := issueOne (vfexp2Op h o) s
/-- Meaning of VFLOG2. -/
def execVflog2 (h : Hdr) (o : VR) (s : State) : Host.Outcome State Fault Refusal := issueOne (vflog2Op h o) s
/-- Meaning of VFRCP. -/
def execVfrcp (h : Hdr) (o : VR) (s : State) : Host.Outcome State Fault Refusal := issueOne (vfrcpOp h o) s
/-- Meaning of VFRSQ. -/
def execVfrsq (h : Hdr) (o : VR) (s : State) : Host.Outcome State Fault Refusal := issueOne (vfrsqOp h o) s
/-- Meaning of VADD. -/
def execVadd (h : Hdr) (o : VR) (s : State) : Host.Outcome State Fault Refusal := issueOne (vaddOp h o) s
/-- Meaning of VSUB. -/
def execVsub (h : Hdr) (o : VR) (s : State) : Host.Outcome State Fault Refusal := issueOne (vsubOp h o) s
/-- Meaning of VMUL. -/
def execVmul (h : Hdr) (o : VR) (s : State) : Host.Outcome State Fault Refusal := issueOne (vmulOp h o) s
/-- Meaning of VMULH. -/
def execVmulh (h : Hdr) (o : VR) (s : State) : Host.Outcome State Fault Refusal := issueOne (vmulhOp h o) s
/-- Meaning of VAND. -/
def execVand (h : Hdr) (o : VR) (s : State) : Host.Outcome State Fault Refusal := issueOne (vandOp h o) s
/-- Meaning of VOR. -/
def execVor (h : Hdr) (o : VR) (s : State) : Host.Outcome State Fault Refusal := issueOne (vorOp h o) s
/-- Meaning of VXOR. -/
def execVxor (h : Hdr) (o : VR) (s : State) : Host.Outcome State Fault Refusal := issueOne (vxorOp h o) s
/-- Meaning of VANDN. -/
def execVandn (h : Hdr) (o : VR) (s : State) : Host.Outcome State Fault Refusal := issueOne (vandnOp h o) s
/-- Meaning of VSLL. -/
def execVsll (h : Hdr) (o : VR) (s : State) : Host.Outcome State Fault Refusal := issueOne (vsllOp h o) s
/-- Meaning of VSRL. -/
def execVsrl (h : Hdr) (o : VR) (s : State) : Host.Outcome State Fault Refusal := issueOne (vsrlOp h o) s
/-- Meaning of VSRA. -/
def execVsra (h : Hdr) (o : VR) (s : State) : Host.Outcome State Fault Refusal := issueOne (vsraOp h o) s
/-- Meaning of VMIN. -/
def execVmin (h : Hdr) (o : VR) (s : State) : Host.Outcome State Fault Refusal := issueOne (vminOp h o) s
/-- Meaning of VMAX. -/
def execVmax (h : Hdr) (o : VR) (s : State) : Host.Outcome State Fault Refusal := issueOne (vmaxOp h o) s
/-- Meaning of VABS. -/
def execVabs (h : Hdr) (o : VR) (s : State) : Host.Outcome State Fault Refusal := issueOne (vabsOp h o) s
/-- Meaning of VCVT. -/
def execVcvt (h : Hdr) (o : VR) (s : State) : Host.Outcome State Fault Refusal := issueOne (vcvtOp h o) s
/-- Meaning of VFCMP. -/
def execVfcmp (h : Hdr) (o : VC) (s : State) : Host.Outcome State Fault Refusal := issueOne (vfcmpOp h o) s
/-- Meaning of VCMP. -/
def execVcmp (h : Hdr) (o : VC) (s : State) : Host.Outcome State Fault Refusal := issueOne (vcmpOp h o) s
/-- Meaning of MAND. -/
def execMand (h : Hdr) (o : VM) (s : State) : Host.Outcome State Fault Refusal := issueOne (mandOp h o) s
/-- Meaning of MOR. -/
def execMor (h : Hdr) (o : VM) (s : State) : Host.Outcome State Fault Refusal := issueOne (morOp h o) s
/-- Meaning of MXOR. -/
def execMxor (h : Hdr) (o : VM) (s : State) : Host.Outcome State Fault Refusal := issueOne (mxorOp h o) s
/-- Meaning of MANDN. -/
def execMandn (h : Hdr) (o : VM) (s : State) : Host.Outcome State Fault Refusal := issueOne (mandnOp h o) s
/-- Meaning of MPOP. -/
def execMpop (h : Hdr) (o : VM) (s : State) : Host.Outcome State Fault Refusal := issueOne (mpopOp h o) s
/-- Meaning of VMERGE. -/
def execVmerge (h : Hdr) (o : VR) (s : State) : Host.Outcome State Fault Refusal := issueOne (vmergeOp h o) s
/-- Meaning of VLANE. -/
def execVlane (h : Hdr) (o : VR) (s : State) : Host.Outcome State Fault Refusal := issueOne (vlaneOp h o) s
/-- Meaning of VBCAST. -/
def execVbcast (h : Hdr) (o : VS) (s : State) : Host.Outcome State Fault Refusal := issueOne (vbcastOp h o) s
/-- Meaning of VMOVS. -/
def execVmovs (h : Hdr) (o : VS) (s : State) : Host.Outcome State Fault Refusal := issueOne (vmovsOp h o) s
/-- Meaning of VMOVS_INS. -/
def execVmovsIns (h : Hdr) (o : VS) (s : State) : Host.Outcome State Fault Refusal := issueOne (vmovsInsOp h o) s
/-- Meaning of VPERM. -/
def execVperm (h : Hdr) (o : VR) (s : State) : Host.Outcome State Fault Refusal := issueOne (vpermOp h o) s
/-- Meaning of VSLIDE. -/
def execVslide (h : Hdr) (o : VR) (s : State) : Host.Outcome State Fault Refusal := issueOne (vslideOp h o) s
/-- Meaning of VFRED. -/
def execVfred (h : Hdr) (o : VR) (s : State) : Host.Outcome State Fault Refusal := issueOne (vfredOp h o) s
/-- Meaning of VRED. -/
def execVred (h : Hdr) (o : VR) (s : State) : Host.Outcome State Fault Refusal := issueOne (vredOp h o) s
/-- Meaning of VFSCAN. -/
def execVfscan (h : Hdr) (o : VR) (s : State) : Host.Outcome State Fault Refusal := issueOne (vfscanOp h o) s
/-- Meaning of VSCAN. -/
def execVscan (h : Hdr) (o : VR) (s : State) : Host.Outcome State Fault Refusal := issueOne (vscanOp h o) s
/-- Meaning of VTROW. -/
def execVtrow (h : Hdr) (o : VT) (s : State) : Host.Outcome State Fault Refusal := issueOne (vtrowOp h o) s
/-- Meaning of VTWR. -/
def execVtwr (h : Hdr) (o : VT) (s : State) : Host.Outcome State Fault Refusal := issueOne (vtwrOp h o) s

end Sys2Proof.Machine
end

