-- ==== Sys2Proof/Machine/Scratchpad.lean ====
section
/-! DEFINITION. The V1 slot's own forms (R164 to R173): scratchpad loads, stores, gathers, scatters and atomics, FIFO banks, the Yelm
queue. -/

namespace Sys2Proof.Machine

/-! ### Checks and costs (R164, R166) -/

/-- The bank is in scratchpad mode and owned by the instance on this core (R164 check 3, R178). -/
def bankMine (s : State) (i a : Nat) : Bool :=
  let b := (s.cluster (clusterOf i)).bank (a / 65536)
  b.mode == .spad && b.ready && b.own == i % 4 && b.ownUid == (s.core i).uid

/-- The three checks of R164 over the active elements, given as (element, address). -/
def Ctx.spadCheck (x : Ctx) (size : Nat) (items : List (Nat × Nat)) : SlotM Unit := do
  match items.find? fun e => decide (2 ^ 22 ≤ e.2) with
  | some e => x.illegal (word e.2) (word e.1)
  | none =>
    match items.find? fun e => e.2 % size != 0 with
    | some e => x.illegal (word e.2) (word e.1)
    | none =>
      match items.find? fun e => !bankMine x.s x.i e.2 with
      | some e => x.illegal (word e.2) (word e.1)
      | none => pure ()

/-- Counts the rows that accesses touch (R166 item 1). -/
def noteRows (items : List (Nat × Nat)) : SlotM Unit :=
  modify fun b => { b with rows := items.map (fun e => (e.2 / 65536, e.2 % 65536 / 256)) ++ b.rows }

/-- Counts further accesses to a bank. -/
def noteExtra (bank n : Nat) : SlotM Unit := modify fun b => { b with extra := (bank, n) :: b.extra }

/-- The scratchpad bytes at an address as a number. -/
def spadRead (s : State) (i a n : Nat) : Nat := ofBytes ((s.cluster (clusterOf i)).sram.readBytes a n)

/-- Base address s[SA] + IMM (R167). -/
def Ctx.spadBase (x : Ctx) (o : VS) : SlotM Nat := do
  let a ← x.rS o.sa.toNat
  pure (a + sx o.imm).toNat

/-- Active elements with addresses. -/
def spadItems (w : Nat) (mask : Word) (addr : Nat → Nat) : List (Nat × Nat) :=
  ((List.range (nElem w)).filter (active mask w)).map fun j => (j, addr j % 2 ^ 64)

/-- A load of active elements, landing at c+6 (R165). -/
def Ctx.spadLoad (x : Ctx) (vd : BitVec 6) (w : Nat) (items : List (Nat × Nat)) : SlotM Unit := do
  x.spadCheck (w / 8) items
  noteRows items
  x.wRes vd (vBuild w fun j => (items.find? fun e => e.1 == j).map fun e => (spadRead x.s x.i e.2 (w / 8), (0 : Flags))) 6

/-- A store of active elements, committing at c+6 (R165); a later element overrides an earlier one (R168).
With no active element nothing is in flight (log entry 78). -/
def Ctx.spadStore (x : Ctx) (data : VReg) (w : Nat) (items : List (Nat × Nat)) : SlotM Unit := do
  x.spadCheck (w / 8) items
  noteRows items
  let cells := items.flatMap fun e => (toBytes (w / 8) (elem w data e.1)).zipIdx.map fun b => (e.2 + b.2, b.1)
  if items.isEmpty then pure () else x.land 6 (.cells cells)

/-! ### Loads, stores, gathers, scatters (R167, R168) -/

/-- `vld`. -/
def vldOp (h : Hdr) (o : VS) : SlotOp :=
  mkOp (.vld h o) h fun x => do
    let a ← x.spadBase o
    let m ← x.rM o.msk.toNat
    x.spadLoad o.vd 32 (spadItems 32 m fun i => a + 4 * i)
/-- `vst`. -/
def vstOp (h : Hdr) (o : VS) : SlotOp :=
  mkOp (.vst h o) h fun x => do
    let a ← x.spadBase o
    let v ← x.rV o.vd.toNat
    let m ← x.rM o.msk.toNat
    x.spadStore v 32 (spadItems 32 m fun i => a + 4 * i)

/-- Addresses of a gather or scatter (R168). -/
def gatherItems (o : VS) (a : Nat) (idx : VReg) (m : Word) : List (Nat × Nat) :=
  let w := etWidth o.et
  spadItems w m fun j => a + (elem 32 idx (govLane w j)) * 2 ^ fld o.mod 1 0

/-- `vgat`. -/
def vgatOp (h : Hdr) (o : VS) : SlotOp :=
  mkOp (.vgat h o) h fun x => do
    let a ← x.spadBase o
    let idx ← x.rV o.va.toNat
    let m ← x.rM o.msk.toNat
    x.spadLoad o.vd (etWidth o.et) (gatherItems o a idx m)
/-- `vsca`. Of several registers that are pending, SA is named before VA, and VA before VD (R149; log entry 63). -/
def vscaOp (h : Hdr) (o : VS) : SlotOp :=
  mkOp (.vsca h o) h fun x => do
    let a ← x.spadBase o
    let idx ← x.rV o.va.toNat
    let v ← x.rV o.vd.toNat
    let m ← x.rM o.msk.toNat
    x.spadStore v (etWidth o.et) (gatherItems o a idx m)

/-! ### Atomics (R169) -/

/-- New value and flags of an atomic on a 32-bit word. -/
def atomRes (op old v : Nat) : Nat × Flags :=
  match op with
  | 0 => ((old + v) % 2 ^ 32, 0)
  | 1 => (old &&& v, 0)
  | 2 => (old ||| v, 0)
  | 3 => (old ^^^ v, 0)
  | 4 => (if sgn 32 v < sgn 32 old then v else old, 0)
  | 5 => (if sgn 32 old < sgn 32 v then v else old, 0)
  | 6 => (min old v, 0)
  | 7 => (max old v, 0)
  | 8 => (v, 0)
  | 9 => fp32.add .rne old v
  | 10 => fp32.minmax false old v
  | _ => fp32.minmax true old v

/-- Lock bit of a word (R169). -/
def lockBit (a : Nat) : Nat := (fld (word a) 4 2) ^^^ (fld (word a) 7 5) ^^^ (fld (word a) 10 8) ^^^ (fld (word a) 13 11) ^^^ (fld (word a) 15 14)

/-- The lanes applied in ascending order: words so far, old value of each lane, flags. -/
def atomLanes (s : State) (i op : Nat) (v : VReg) :
    List (Nat × Nat) → List (Nat × Nat) → List (Nat × Nat) × List (Nat × Nat) × Flags
  | [], ws => (ws, [], 0)
  | (j, a) :: r, ws =>
    let old := (assoc ws a).getD (spadRead s i a 4)
    let y := atomRes op old (elem 32 v j)
    let z := atomLanes s i op v r (assocSet ws a y.1)
    (z.1, (j, old) :: z.2.1, y.2 ||| z.2.2)

/-- Accesses of a `vatom` to a bank: distinct words and lock-bit retries (R166, R169). -/
def atomCost (ws : List Nat) : Nat := 2 * ws.length - (ws.map lockBit).eraseDups.length

/-- `vatom`. -/
def vatomOp (h : Hdr) (o : VS) : SlotOp :=
  mkOp (.vatom h o) h fun x => do
    let a ← x.spadBase o
    let idx ← x.rV o.va.toNat
    let v ← x.rV o.vd.toNat
    let m ← x.rM o.msk.toNat
    let items := spadItems 32 m fun i => a + 4 * elem 32 idx i
    x.spadCheck 4 items
    let r := atomLanes x.s x.i o.mod.toNat v items []
    let ws := r.1.map (·.1)
    (ws.map (· / 65536)).eraseDups.forM fun b => noteExtra b (atomCost (ws.filter fun w => w / 65536 == b))
    atRetire fun s => s.modCluster (clusterOf x.i) fun c =>
      { c with sram := r.1.foldl (fun mem w => mem.writeBytes w.1 (toBytes 4 w.2)) c.sram }
    let res := vBuild 32 fun j => (assoc r.2.1 j).map fun y => (y, (0 : Flags))
    x.wRes o.vd { res with flags := r.2.2 } 6

/-! ### FIFO banks (R171, R172) -/

/-- Checks 1 and 2 of R171: the bank number. -/
def Ctx.fifoBank (x : Ctx) (f : Nat) (push : Bool) : SlotM Nat := do
  x.need (decide (f < 2 ^ 22) && f % 65536 == 0) (word f) 0
  let b := (x.s.cluster (clusterOf x.i)).bank (f / 65536)
  let party := if push then (b.prod, b.prodUid) else (b.cons, b.consUid)
  x.need (b.mode == .fifo && b.ready && party.1 == x.i % 4 && (party.2 == x.c.uid || party.2 == 0)) (word f) 0
  pure (f / 65536)

/-- Changes a bank of the core's cluster. -/
def State.modBank (s : State) (k b : Nat) (f : Bank → Bank) : State := s.modCluster k fun c => c.setBank b (f (c.bank b))

/-- A push retires (R172). -/
def Bank.push (b : Bank) (pcc uid : Nat) (v : VReg) : Bank :=
  { b with prodUid := uid, entries := b.entries ++ [v], pcount := b.pcount + 1, transit := b.transit ++ [(pcc + 8, true)] }
/-- A pop retires (R172). -/
def Bank.pop (b : Bank) (pcc uid : Nat) : Bank :=
  { b with consUid := uid, entries := b.entries.tail, ccount := b.ccount - 1, transit := b.transit ++ [(pcc + 8, false)] }

/-- `fpush`. -/
def fpushOp (h : Hdr) (o : VS) : SlotOp :=
  mkOp (.fpush h o) h fun x => do
    let f ← x.spadBase o
    let v ← x.rV o.vd.toNat
    let b ← x.fifoBank f true
    if 256 ≤ ((x.s.cluster (clusterOf x.i)).bank b).pcount then x.fail 0x07 0 (word f) 0
    noteExtra b 1
    atRetire fun s => s.modBank (clusterOf x.i) b fun k => k.push s.pcc x.c.uid v
/-- `fpop`. -/
def fpopOp (h : Hdr) (o : VS) : SlotOp :=
  mkOp (.fpop h o) h fun x => do
    let f ← x.spadBase o
    let b ← x.fifoBank f false
    let bank := (x.s.cluster (clusterOf x.i)).bank b
    if bank.ccount = 0 then x.fail 0x08 0 (word f) 0
    noteExtra b 1
    x.wV o.vd.toNat (bank.entries.headD 0) (BitVec.allOnes 2048) 6
    atRetire fun s => s.modBank (clusterOf x.i) b fun k => k.pop s.pcc x.c.uid

/-- Counts in transit that are due reach the other side (R172). -/
def Bank.arrive (b : Bank) (pcc : Nat) : Bank :=
  let due := b.transit.filter fun t => decide (t.1 ≤ pcc)
  { b with
    ccount := b.ccount + (due.filter fun t => t.2).length
    pcount := b.pcount - (due.filter fun t => !t.2).length
    transit := b.transit.filter fun t => decide (pcc < t.1) }

/-- A count in transit is due. -/
def Bank.countDue (b : Bank) (pcc : Nat) : Bool := b.transit.any fun t => decide (t.1 ≤ pcc)

/-- Some bank of the package has a count due. -/
def State.countsDue (s : State) : Bool := s.clusters.toList.any fun c => c.banks.toList.any fun b => b.countDue s.pcc

/-- Meaning of FIFO_COUNT_UPDATE (R172): every count due in this PCC cycle changes. -/
def execFifoCountUpdate (s : State) : Host.Outcome State Fault Refusal :=
  if s.powered && s.countsDue then
    .next { s with clusters := s.clusters.map fun c => { c with banks := c.banks.map fun b => b.arrive s.pcc } }
  else .refused (.notEnabled "FIFO_COUNT_UPDATE")

/-! ### Yelm queue (R173, R350 to R352) -/

/-- AFF word i of a queue entry. -/
def affWord (w : WindowWord) (i : Nat) : Nat := fld w (95 + 32 * i) (64 + 32 * i)

/-- The entry as the queue stores it (R352): NaNs of an affinity entry become −∞, SANF and MAL are set. -/
def yelmStore (w : WindowWord) : WindowWord :=
  if bit w 31 then
    -- a step-open entry: everything but the kind, the step and the descriptor is 0 as pushed (R351)
    let rest := w &&& ~~~(((0xFFFFFFFFFFFFFF : WindowWord) <<< 64) ||| ((0xFFF : WindowWord) <<< 40) ||| 0x80000000)
    putBits w 29 2 (if rest = 0 then 0 else 1)
  else
    let n := fld w 55 52
    let bad := fld w 63 56 != 0 || fld w 28 24 != 0 || n == 0 || decide (14 < n) || decide (256 < fld w 39 32 + n) ||
      (List.range 14).any fun i => decide (n ≤ i) && affWord w i != 0
    let isNan (i : Nat) : Bool := (fp32.decode (affWord w i)).isNan
    let y := (List.range 14).foldl (fun acc i => if isNan i then putBits acc (64 + 32 * i) 32 0xFF800000 else acc) w
    putBits y 29 2 (b2n bad + 2 * b2n ((List.range 14).any isNan))

/-- The die's queue takes entries pushed by a core of partition `p`, or discards them (R350, R352). -/
def Yelm.append (y : Yelm) (p : Nat) (es : List WindowWord) : Yelm :=
  if y.part = some p then { y with queue := y.queue ++ es.map yelmStore } else { y with discard := y.discard + es.length }

/-- Free entries of a die's queue as its cores see them (R352). -/
def Yelm.freeSeen (y : Yelm) : Nat := 4096 - (y.queue.length + y.frees.length)

/-- `ypush`. -/
def ypushOp (h : Hdr) (o : VS) : SlotOp :=
  mkOp (.ypush h o) h fun x => do
    let v ← x.rV o.vd.toNat
    let k := fld o.imm 2 0
    if (x.s.die (dieOf x.i)).yelm.freeSeen < k then x.fail 0x07 0 (word k) 0
    let es := (List.range k).map fun e => (v.extractLsb' (512 * e) 512 : WindowWord)
    let p := match x.c.inst with | some inst => inst.part | none => 0
    atRetire fun s => s.modYelm (dieOf x.i) fun y => y.append p es

/-! ### Meanings of single operations: a bundle that holds the operation and nothing else -/

/-- Meaning of VLD. -/
def execVld (h : Hdr) (o : VS) (s : State) : Host.Outcome State Fault Refusal := issueOne (vldOp h o) s
/-- Meaning of VST. -/
def execVst (h : Hdr) (o : VS) (s : State) : Host.Outcome State Fault Refusal := issueOne (vstOp h o) s
/-- Meaning of VGAT. -/
def execVgat (h : Hdr) (o : VS) (s : State) : Host.Outcome State Fault Refusal := issueOne (vgatOp h o) s
/-- Meaning of VSCA. -/
def execVsca (h : Hdr) (o : VS) (s : State) : Host.Outcome State Fault Refusal := issueOne (vscaOp h o) s
/-- Meaning of VATOM. -/
def execVatom (h : Hdr) (o : VS) (s : State) : Host.Outcome State Fault Refusal := issueOne (vatomOp h o) s
/-- Meaning of FPUSH. -/
def execFpush (h : Hdr) (o : VS) (s : State) : Host.Outcome State Fault Refusal := issueOne (fpushOp h o) s
/-- Meaning of FPOP. -/
def execFpop (h : Hdr) (o : VS) (s : State) : Host.Outcome State Fault Refusal := issueOne (fpopOp h o) s
/-- Meaning of YPUSH. -/
def execYpush (h : Hdr) (o : VS) (s : State) : Host.Outcome State Fault Refusal := issueOne (ypushOp h o) s

end Sys2Proof.Machine
end

