-- ==== Sys2Proof/Machine/Matrix.lean ====
section
/-! DEFINITION. The M slot (R259 to R269): values of tile elements, scratchpad operands, the typing rule, the multiply-accumulate. -/

namespace Sys2Proof.Machine

/-! ### Values of elements (R65, R72, R73) -/

/-- The scales a core applies: a base and the table. -/
structure Scales where
  base : BitVec 32
  st   : Vector (BitVec 16) 16

/-- `scale_of` for block index i (R72). -/
def Scales.get (z : Scales) (i : Nat) : Num := (fp32.decode z.base.toNat).mul (bf16.decode (vget z.st i 0).toNat)

/-- Number of a code of a format without scale (R62, R64). -/
def decodeCode (fmt code : Nat) : Num :=
  match ffmtOf fmt with
  | some f => f.decode code
  | none => Num.ofInt (sgn (fmtBits fmt) code)

/-- Where an operand's codes, scale indices and outliers come from. -/
structure Source where
  g       : Geo
  code    : Nat → Nat → Nat
  sidx    : Nat → Nat → Nat
  outlier : Nat → BitVec 32
  scales  : Scales
  table   : Vector (BitVec 16) 256

/-- Value of an element with `esc` escapes before it, and whether it is an escape itself. -/
def Source.value (z : Source) (esc line pos slot : Nat) : Num × Bool :=
  let code := z.code line slot
  if z.g.esc && code == escCode z.g.fmt then
    (if esc < z.g.ocnt then fp32.decode (z.outlier esc).toNat else .fin false 0 0, true)
  else
    let v := if z.g.fmt = 12 then cbWeight z.table code (pos % 8) else decodeCode z.g.fmt code
    (if z.g.sgeo = 0 then v else v.mul (z.scales.get (z.sidx line pos)), false)

/-- Values by logical index, none where the element is not stored; escapes are counted as they are met (R73). -/
def Source.valuesFrom (z : Source) : List Nat → Nat → List (Option Num)
  | [], _ => []
  | i :: is, esc =>
    let p := z.g.place i
    match z.g.slotOf p.1 p.2 with
    | none => none :: z.valuesFrom is esc
    | some k =>
      let v := z.value esc p.1 p.2 k
      some v.1 :: z.valuesFrom is (if v.2 then esc + 1 else esc)

/-- Values of every element of the operand. -/
def Source.values (z : Source) : Array (Option Num) := (z.valuesFrom (List.range z.g.count) 0).toArray

/-- A tile as a source of values. -/
def tileSource (g : Geo) (data : TileData) (scales : Scales) (table : Vector (BitVec 16) 256) : Source :=
  { g := g, code := g.code data, sidx := g.scaleIdx data, outlier := fun k => (outlier data k).2, scales := scales, table := table }

/-! ### Operands (R261, R262) -/

/-- A scratchpad operand's registers. -/
structure SpOpnd where
  r1 : Word
  r2 : Word

/-- BASE. -/
def SpOpnd.base (q : SpOpnd) : Nat := fld q.r1 21 0
/-- ROWP. -/
def SpOpnd.rowp (q : SpOpnd) : Nat := fld q.r1 47 32
/-- TPITCH. -/
def SpOpnd.tpitch (q : SpOpnd) : Nat := fld q.r2 37 22
/-- ROTC. -/
def SpOpnd.rotc (q : SpOpnd) : Nat := fld q.r2 7 6
/-- TYR. -/
def SpOpnd.tyr (q : SpOpnd) : Nat := fld q.r2 3 0

/-- Address a of a line. -/
def SpOpnd.lineAt (q : SpOpnd) (l : Nat) : Nat := q.base + l / 8 * q.tpitch + l % 8 * q.rowp
/-- Address a′ of a line, rotated over the banks. -/
def SpOpnd.lineRot (q : SpOpnd) (l : Nat) : Nat := (q.lineAt l + l % 2 ^ q.rotc * 65536) % 2 ^ 22

/-- Bytes of a line. -/
def Geo.lineBytes (g : Geo) : Nat := (g.storedPerLine * fmtBits g.fmt + 7) / 8

/-- A matrix operand read at issue: its type proxy's number, its type word, its data or scratchpad registers. -/
structure MOpnd where
  t  : Nat
  ty : TypeWord
  sp : Option SpOpnd
  data : TileData

/-- Reads a matrix operand with the early-read checks. -/
def Ctx.mOpnd (x : Ctx) (k : BitVec 1) (op : BitVec 12) : SlotM MOpnd := do
  if k = 1 then
    let a ← x.rS (fld op 11 6)
    let b ← x.rS (fld op 5 0)
    let q : SpOpnd := { r1 := a, r2 := b }
    let ty ← x.rTy q.tyr
    pure { t := q.tyr, ty := ty, sp := some q, data := 0 }
  else
    let ty ← x.rTy (fld op 3 0)
    pure { t := fld op 3 0, ty := ty, sp := none, data := x.c.r.readT (fld op 3 0) }

/-- Checks 1 and 2 of R262; `w` is 0 for A and 1 for B. -/
def Ctx.spFields (x : Ctx) (m : MOpnd) (w : Nat) : SlotM Unit :=
  match m.sp with
  | none => pure ()
  | some q => do
    x.need (fld q.r1 63 48 == 0 && fld q.r1 31 22 == 0 && fld q.r1 35 32 == 0 && fld q.r1 3 0 == 0) q.r1 (word w)
    x.need (fld q.r2 63 38 == 0 && fld q.r2 21 8 == 0 && fld q.r2 25 22 == 0 && fld q.r2 5 4 == 0) q.r2 (word w)
    x.need (!tySidx m.ty && !tyEsc m.ty && decide (tyLayout m.ty ≤ 1)) (m.ty.extractLsb' 64 64) (word w)

/-- Check 3 of R262 on every line. -/
def Ctx.spLines (x : Ctx) (m : MOpnd) (g : Geo) (w : Nat) : SlotM Unit :=
  match m.sp with
  | none => pure ()
  | some q =>
    match (List.range g.lines).find? fun l =>
      let a := q.lineRot l
      decide (2 ^ 22 ≤ q.lineAt l) || (a / 65536 != (a + (g.lineBytes - 1)) / 65536) || !bankMine x.s x.i a with
    | some l => x.illegal (word (q.lineAt l)) (word w)
    | none => pure ()

/-- Rows that the lines of an operand touch, as (bank, row). -/
def MOpnd.rows (m : MOpnd) (g : Geo) : List (Nat × Nat) :=
  match m.sp with
  | none => []
  | some q => (List.range g.lines).flatMap fun l =>
      let a := q.lineRot l
      (List.range ((a + (g.lineBytes - 1)) / 256 + 1 - a / 256)).map fun k => (a / 65536, (a / 256 + k) % 256)

/-- The operand as a source of values. -/
def Ctx.mSource (x : Ctx) (m : MOpnd) (g : Geo) (base : BitVec 32) (table : Vector (BitVec 16) 256) : Source :=
  let scales : Scales := { base := base, st := x.c.e.st }
  match m.sp with
  | none => tileSource g m.data scales table
  | some q =>
    { g := g, sidx := fun _ _ => 0, outlier := fun _ => 0, scales := scales, table := table
      code := fun line slot =>
        let w := fmtBits g.fmt
        let at_ := if g.fmt = 12 then slot / 8 * 16 else slot * w
        let n := if g.fmt = 12 then 16 else w
        spadRead x.s x.i (q.lineRot line + at_ / 8) ((n + 7) / 8) / 2 ^ (at_ % 8) % 2 ^ n }

/-! ### The rows of R259 -/

/-- The three opcodes. -/
inductive MKind where
  | dense | sparse | codebook
  deriving DecidableEq, Repr

/-- A row of R259: accumulator format, Kmax, latency, occupancy. -/
structure MRow where
  acc  : Nat
  kmax : Nat
  lat  : Nat
  occ  : Nat

/-- The operands make an INT32 accumulator: scales and escapes absent. -/
def plainInt (a b : TypeWord) : Bool := tySgeo a == 0 && tySgeo b == 0 && !tyEsc a && !tyEsc b

/-- The row of R259 that the formats form for an opcode. -/
def mRow (k : MKind) (a b : TypeWord) : Option MRow :=
  let fa := tyFmt a
  let fb := tyFmt b
  let int : Nat := if plainInt a b then 8 else 2
  match k with
  | .codebook =>
    if (fa = 12 ∧ (fb = 12 ∨ fb = 7)) ∨ (fa = 7 ∧ fb = 12) then some { acc := 2, kmax := 192, lat := 10, occ := 2 } else none
  | k =>
    let r : Option MRow :=
      if fa = 1 ∧ fb = 1 ∧ k = .dense then some { acc := 1, kmax := 6, lat := 12, occ := 3 }
      else if fa = 2 ∧ fb = 2 ∧ k = .dense then some { acc := 2, kmax := 12, lat := 10, occ := 3 }
      else if fa = fb ∧ (fa = 3 ∨ fa = 4) then some { acc := 2, kmax := 24, lat := 8, occ := 1 }
      else if (fa = 5 ∨ fa = 6) ∧ (fb = 5 ∨ fb = 6) then some { acc := 2, kmax := 48, lat := 8, occ := 1 }
      else if fa = 10 ∧ fb = 10 then some { acc := int, kmax := 48, lat := 8, occ := 1 }
      else if fa = 7 ∧ fb = 7 then some { acc := 2, kmax := 96, lat := 10, occ := 1 }
      else if fa = 11 ∧ fb = 11 then some { acc := int, kmax := 96, lat := 10, occ := 1 }
      else none
    let n := if tyDens a ≠ 0 then tyDens a else tyDens b
    r.map fun r => if k = .sparse then { r with lat := r.lat + 2, kmax := if n = 0 then r.kmax else r.kmax * 8 / n } else r

/-- The INT32 row of R259 (R260). -/
def int32Row (a b : TypeWord) : Bool := tyFmt a == tyFmt b && (tyFmt a == 10 || tyFmt a == 11) && plainInt a b

/-! ### The typing rule (R264) -/

/-- Step 4: an extent known to exceed 32. -/
def atMost32 (o : Origin) (k : Nat) (t : TypeWord) : TyM Unit := do
  match extVal (← get) (tyExt t k) with
  | some v => if 32 < v then throw (shape o k 2 32 (word v)) else pure ()
  | none => pure ()

/-- Step 5: the contiguous extent runs along K. -/
def alongK (o : Origin) (t : TypeWord) (isB : Bool) : TyM Unit :=
  if (tySgeo t ≠ 0 ∨ tyDens t ≠ 0 ∨ tyFmt t = 12) ∧ ((tyLayout t == 1) != isB) then
    throw (shape o 0 6 1 (word (tyLayout t)))
  else pure ()

/-- Step 6: sparsity. -/
def sparsityRule (k : MKind) (oa ob : Origin) (a b : TypeWord) : TyM Unit := do
  if k = .sparse then
    if tyDens a = 0 ∧ tyDens b = 0 then throw (shape ob 0 9 1 0)
    if tyDens a ≠ 0 ∧ tyDens b ≠ 0 then
      eqField ob 9 (tyDens a) (tyDens b)
      eqField ob 9 (tySeed a) (tySeed b)
  else
    needField oa 9 0 (tyDens a)
    needField ob 9 0 (tyDens b)

/-- The whole rule: the row, the result type, and the geometries of A, B and the result. -/
def mTyping (k : MKind) (z : Bool) (td : Nat) (a b : MOpnd) (c : TypeWord) : TyM (MRow × TypeWord × Geo × Geo × Geo) :=
  atDest (tileOpnd 3 td) do
    let oa := tileOpnd 0 a.t
    let ob := tileOpnd 1 b.t
    let oc := tileOpnd 2 td
    checkWord oa a.ty
    needField oa 4 1 (tyRank a.ty)
    checkWord ob b.ty
    needField ob 4 1 (tyRank b.ty)
    match mRow k a.ty b.ty with
    | none => throw (shape ob 0 5 (word (tyFmt a.ty)) (word (tyFmt b.ty)))
    | some r =>
      unifyAt oa a.ty 1 ob b.ty 0
      match extVal (← get) (tyExt a.ty 1) with
      | some v => if r.kmax < v then throw (shape oa 1 2 (word r.kmax) (word v))
      | none => pure ()
      atMost32 oa 0 a.ty
      atMost32 ob 1 b.ty
      alongK oa a.ty false
      alongK ob b.ty true
      sparsityRule k oa ob a.ty b.ty
      if !z then
        checkWord oc c
        needField oc 4 1 (tyRank c)
        unifyAt oa a.ty 0 oc c 0
        unifyAt ob b.ty 1 oc c 1
        needField oc 5 r.acc (tyFmt c)
        needField oc 6 0 (tyLayout c)
        needField oc 7 0 (tySgeo c)
        needField oc 8 0 (b2n (tyEsc c))
        needField oc 9 0 (tyDens c)
      let ga ← geoOfSource oa a.ty
      let gb ← geoOfSource ob b.ty
      atMost32 oa 0 a.ty
      atMost32 ob 1 b.ty
      let exts : BitVec 64 := 1#16 ++ 1#16 ++ tyExt b.ty 1 ++ tyExt a.ty 0
      let res := mkTy 1 r.acc 0 0 false false 0 0 0 exts
      let gd ← checkDerived (tileOpnd 3 td) res
      pure (r, res, ga, gb, gd)

/-! ### The effect (R265) -/

/-- Padding selected by a field of PADSEL (R287). -/
def padOf (c : Core) (lo : Nat) : Nat :=
  let k := fld c.e.padsel (lo + 2) lo
  if k < 4 then (vget c.r.pad k 0).toNat else 0

/-- The products of one output element: factors present at each K position. -/
def prods (a b : Array (Option Num)) (kA nB i j kmax : Nat) : List (Nat × Num) :=
  (List.range kmax).filterMap fun k =>
    match (a[i * kA + k]?.getD none), (b[k * nB + j]?.getD none) with
    | some x, some y => some (k, x.mul y)
    | _, _ => none

/-- Integer value of an exact integer. -/
def numInt : Num → Int
  | .fin s m e => let v : Int := m * 2 ^ e.toNat; if s then -v else v
  | _ => 0

/-- One accumulation (R77, R78): code and flags. -/
def accumulate (acc : Nat) (sat : Bool) (c : Nat) (ps : List (Nat × Num)) : Nat × Flags :=
  if acc = 2 then fp32.round .rne (exactSum .rne (fp32.decode c :: ps.map (·.2)))
  else if acc = 1 then
    (List.range 3).foldl (fun (s : Nat × Flags) beat =>
      let terms := (ps.filter fun p => p.1 / 2 == beat).map (·.2)
      let r := fp64.round .rne (exactSum .rne (fp64.decode s.1 :: terms))
      (r.1, s.2 ||| r.2)) (c, 0)
  else intRes 32 sat (sgn 32 c + (ps.map fun p => numInt p.2).foldl (· + ·) 0)

/-- The result tile: codes in row-major order, with the flags. -/
def mResult (r : MRow) (z sat : Bool) (cdata : TileData) (ga gb gd : Geo) (a b : Array (Option Num)) (pm pn pk : Nat) : TileData × Flags :=
  let w := fmtBits r.acc
  let nx := gd.r0
  let mx := gd.r1
  let kk := ga.r0
  let res := (List.range (mx * nx)).foldl (fun (s : Nat × Flags) n =>
    let i := n / nx
    let j := n % nx
    let c : Nat := if z then 0 else (cdata.extractLsb' (w * n) w).toNat
    let y := if mx - pm ≤ i ∨ nx - pn ≤ j then (c, (0 : Flags)) else accumulate r.acc sat c (prods a b kk gb.r0 i j (kk - pk))
    (s.1 ||| (y.1 <<< (w * n)), s.2 ||| y.2)) (0, 0)
  (BitVec.ofNat 65536 res.1, res.2)

/-- The occupancy check (R263). -/
def Ctx.mFree (x : Ctx) : SlotM Unit := x.need (x.c.e.occ == 0) (word x.c.e.occ) 0

/-- A matrix multiply. A takes SBA and CBT0, B takes SBB and CBT1 (R265), also where the other operand needs none (log entry 7). -/
def mmaOp (i : Instr) (h : Hdr) (o : MF) (k : MKind) : SlotOp :=
  mkOp i h fun x => do
    let z := bit o.mod 0
    let sat := bit o.mod 1
    let a ← x.mOpnd o.ak o.aop
    let b ← x.mOpnd o.bk o.bop
    let td := o.td.toNat
    let c ← if z then pure 0 else x.rTy td
    x.need (!sat || (k != .codebook && int32Row a.ty b.ty)) 0 0
    x.mFree
    x.spFields a 0
    x.spFields b 1
    let (r, res, ga, gb, gd) ← x.typing (mTyping k z td a b c)
    x.spLines a ga 0
    x.spLines b gb 1
    let rows := (a.rows ga ++ b.rows gb).eraseDups
    (rows.map (·.1)).eraseDups.forM fun bk => noteExtra bk (rows.filter fun q => q.1 == bk).length
    let va := (x.mSource a ga x.c.e.sba x.c.e.cbt0).values
    let vb := (x.mSource b gb x.c.e.sbb x.c.e.cbt1).values
    let out := mResult r z sat (x.c.r.readT td) ga gb gd va vb (padOf x.c 0) (padOf x.c 3) (padOf x.c 6)
    x.wT td out.1 res r.lat out.2
    modify fun y => { y with mOcc := some r.occ, grant := some (if r.acc = 1 then 2 else 1) }

/-- `tmma` (R265). -/
def tmmaOp (h : Hdr) (o : MF) : SlotOp := mmaOp (.tmma h o) h o .dense
/-- `tmmas` (R267). -/
def tmmasOp (h : Hdr) (o : MF) : SlotOp := mmaOp (.tmmas h o) h o .sparse
/-- `tmmac` (R268). -/
def tmmacOp (h : Hdr) (o : MF) : SlotOp := mmaOp (.tmmac h o) h o .codebook
/-- `tzero` (R269). -/
def tzeroOp (h : Hdr) (o : MF) : SlotOp :=
  mkOp (.tzero h o) h fun x => do
    x.mFree
    x.land 1 (.tzero o.td.toNat)
    modify fun y => { y with mOcc := some 1 }

/-! ### Meanings of single operations: a bundle that holds the operation and nothing else -/

/-- Meaning of TMMA. -/
def execTmma (h : Hdr) (o : MF) (s : State) : Host.Outcome State Fault Refusal := issueOne (tmmaOp h o) s
/-- Meaning of TMMAS. -/
def execTmmas (h : Hdr) (o : MF) (s : State) : Host.Outcome State Fault Refusal := issueOne (tmmasOp h o) s
/-- Meaning of TMMAC. -/
def execTmmac (h : Hdr) (o : MF) (s : State) : Host.Outcome State Fault Refusal := issueOne (tmmacOp h o) s
/-- Meaning of TZERO. -/
def execTzero (h : Hdr) (o : MF) (s : State) : Host.Outcome State Fault Refusal := issueOne (tzeroOp h o) s

end Sys2Proof.Machine
end

