-- ==== Sys2Proof/Machine/Konfig.lean ====
section
/-! DEFINITION. The K slot (R282 to R288) and the bank-mode changes it starts (R177 to R179). -/

namespace Sys2Proof.Machine

/-- `kscl` (R71, R283). -/
def ksclOp (h : Hdr) (o : KF) : SlotOp :=
  mkOp (.kscl h o) h fun x => do
    let a ← x.rS o.ks.toNat
    let tgt := fld a 5 4
    let idx := fld a 3 0
    x.need (fld a 31 6 == 0 && tgt != 3 && (tgt == 0 || idx == 0) && (tgt != 0 || fld a 63 48 == 0)) 0 0
    let v := if tgt = 0 then bf16.decode (fld a 47 32) else fp32.decode (fld a 63 32)
    -- NaN, infinite, zero, negative and subnormal values are refused
    let ex := if tgt = 0 then fld a 46 39 else fld a 62 55
    if v.isNan || v.neg? || ex == 0 || ex == 255 then x.fail 0x0B 0 a 0
    x.coreAtRetire fun c =>
      let e := c.e
      { c with e := if tgt = 0 then { e with st := vset e.st idx (a.extractLsb' 32 16) }
                    else if tgt = 1 then { e with sba := a.extractLsb' 32 32 } else { e with sbb := a.extractLsb' 32 32 } }

/-- Writes four rows of a table. -/
def fourRows (t : Vector (BitVec 16) 256) (row0 : Nat) (a : Word) : Vector (BitVec 16) 256 :=
  (List.range 4).foldl (fun t q => vset t (row0 + q) (a.extractLsb' (16 * q) 16)) t

/-- `kcode` (R284). -/
def kcodeOp (h : Hdr) (o : KF) : SlotOp :=
  mkOp (.kcode h o) h fun x => do
    let k := o.ks.toNat
    let a ← x.rS k
    let b ← x.rS (k + 1)
    x.need (k % 2 == 0 && fld b 63 9 == 0 && fld b 1 0 == 0) b 0
    x.coreAtRetire fun c =>
      { c with e := if bit b 8 then { c.e with cbt1 := fourRows c.e.cbt1 (fld b 7 0) a } else { c.e with cbt0 := fourRows c.e.cbt0 (fld b 7 0) a } }

/-- `kgrant` (R285). -/
def kgrantOp (h : Hdr) (o : KF) : SlotOp :=
  mkOp (.kgrant h o) h fun x => do
    let a ← x.rS o.ks.toNat
    let log := fld a 8 4
    x.need (fld a 63 9 == 0 && fld a 3 2 == 0 && decide (8 ≤ log) && decide (log ≤ 24) && fld a 1 0 != 3) 0 0
    atRetire fun s => s.requestGrant x.i (fld a 1 0) log

/-- `kpad` (R287). -/
def kpadOp (h : Hdr) (o : KF) : SlotOp :=
  mkOp (.kpad h o) h fun x => do
    let a ← x.rS o.ks.toNat
    x.need (fld a 63 9 == 0 && decide (fld a 8 6 ≤ 4) && decide (fld a 5 3 ≤ 4) && decide (fld a 2 0 ≤ 4)) 0 0
    x.coreAtRetire fun c => { c with e := { c.e with padsel := a } }

/-! ### Bank modes (R177 to R179) -/

/-- The mode of a request. -/
def modeOf (n : Nat) : BankMode := match n with | 0 => .cache | 1 => .spad | _ => .fifo

/-- The requester may change the bank (R178 check 3); nobody may change one whose party is saved (R180). -/
def Bank.right (b : Bank) (saved : List Saved) (k uid : Nat) : Bool :=
  let away (u : Nat) : Bool := u != 0 && saved.any fun v => v.inst.uid == u
  match b.mode with
  | .cache => true
  | .spad => b.own == k && b.ownUid == uid
  | .fifo => !away b.prodUid && !away b.consUid &&
    ((b.prod == k && (b.prodUid == uid || b.prodUid == 0)) || (b.cons == k && (b.consUid == uid || b.consUid == 0)))

/-- The mode of a bank with the changes requested in this PCC cycle (R178 check 4). -/
def State.nextMode (s : State) (cl b : Nat) : BankMode :=
  match s.kmodes.find? fun r => r.cluster == cl && r.bank == b with
  | some r => r.mode
  | none => ((s.cluster cl).bank b).mode

/-- The checks of R178 on a request word. -/
def kmodeOk (s : State) (i : Nat) (a : Word) : Bool :=
  let cl := clusterOf i
  let n := fld a 5 0
  let b := (s.cluster cl).bank n
  let m := fld a 7 6
  let caches := ((List.range 64).filter fun k => k != n && s.nextMode cl k == .cache).length
  fld a 63 16 == 0 && fld a 12 8 == 0 && m != 3 && (m == 2 || fld a 15 13 == 0) &&
  b.ready && b.right s.saved (i % 4) (s.core i).uid &&
  (m == 0 || b.mode != .cache || decide (4 ≤ caches)) &&
  !(s.kmodes.any fun r => r.cluster == cl && r.bank == n)

/-- The cells of a commit that fall in a bank, and what is left of it. -/
def splitCells (b : Nat) (f : Land) : List Host.Cell × Land :=
  match f with
  | .cells xs => (xs.filter fun c => c.1 / 65536 == b, .cells (xs.filter fun c => c.1 / 65536 != b))
  | _ => ([], f)

/-- V1 commits of the core to a bank are performed before the bank changes, those held in replay registers first (R170, R179);
they stay in flight, with nothing to write, until their cycle (log entry 64). -/
def State.performBank (s : State) (i b : Nat) : State :=
  let c := s.core i
  let fs := (sortBy Replay.rem c.replay).map (fun q => (splitCells b q.land).1) ++
    (sortBy Flight.due c.flight).map fun f => (splitCells b f.land).1
  let s := s.modCluster (clusterOf i) fun c => { c with sram := fs.flatten.foldl (fun m x => m.set x.1 x.2) c.sram }
  s.modCore i fun c =>
    { c with flight := c.flight.map fun f => { f with land := (splitCells b f.land).2 }
             replay := c.replay.map fun q => { q with land := (splitCells b q.land).2 } }

/-- The bank after a request that changes its mode (R178): FIFO entries are discarded at once. -/
def BankReq.change (r : BankReq) (pcc : Nat) : Bank :=
  { Bank.cache with
    mode := r.mode, ready := false, since := pcc
    own := if r.mode = .spad then r.core else 0
    ownUid := if r.mode = .spad then r.uid else 0
    prod := if r.mode = .fifo then (if r.cons then r.peer else r.core) else 0
    cons := if r.mode = .fifo then (if r.cons then r.core else r.peer) else 0
    prodUid := if r.mode = .fifo then (if r.cons then r.peerUid else r.uid) else 0
    consUid := if r.mode = .fifo then (if r.cons then r.uid else r.peerUid) else 0 }

/-- The request of a `kmode` of core i with request word `a` (R177). -/
def State.bankReq (s : State) (i : Nat) (a : Word) : BankReq :=
  { cluster := clusterOf i, bank := fld a 5 0, mode := modeOf (fld a 7 6), core := i % 4, uid := (s.core i).uid
    peer := fld a 15 14, peerUid := (s.core (4 * clusterOf i + fld a 15 14)).uid, cons := bit a 13 }

/-- A request that passed its checks is noted at retire: the bank map changes for the bundles of the next PCC cycle (R178). -/
def State.kmode (s : State) (i : Nat) (a : Word) : State := { s with kmodes := s.kmodes ++ [s.bankReq i a] }

/-- The instance is on no core and not saved. -/
def State.departed (s : State) (uid : Nat) : Bool :=
  !(s.cores.toList.any fun c => c.uid == uid) && !(s.saved.any fun v => v.inst.uid == uid)

/-- The bank of a request takes its new mode (R178, R179); an instance that has left in the same cycle holds it no more (R180). -/
def State.commitBank (s : State) (r : BankReq) : State :=
  if ((s.cluster r.cluster).bank r.bank).mode = r.mode then s
  else
    let s := (s.performBank (4 * r.cluster + r.core) r.bank).settleBanks r.cluster r.bank
    let k := r.change s.pcc
    let k := if s.departed r.uid then k.leave r.uid s.pcc else k
    let k := if r.peerUid ≠ 0 ∧ s.departed r.peerUid then k.leave r.peerUid s.pcc else k
    s.modCluster r.cluster fun c => c.setBank r.bank k

/-- The changes requested in a PCC cycle take effect as it ends. -/
def State.commitBanks (s : State) : State := { s.kmodes.foldl State.commitBank s with kmodes := [] }

/-- `kmode` (R288). -/
def kmodeOp (h : Hdr) (o : KF) : SlotOp :=
  mkOp (.kmode h o) h fun x => do
    let a ← x.rS o.ks.toNat
    x.need (kmodeOk x.s x.i a) a 0
    atRetire fun s => s.kmode x.i a

/-- A change completes (R179): the contents are clear and READY is set. -/
def Cluster.bankReady (c : Cluster) (b : Nat) : Cluster :=
  { c with
    banks := vset c.banks b { c.bank b with ready := true, entries := [], pcount := 0, ccount := 0, transit := [] }
    sram := c.sram.filter fun x => x.1 / 65536 != b }

/-- Meaning of BANK_MODE_READY (R179). -/
def execBankModeReady (cluster bank : Nat) (s : State) : Host.Outcome State Fault Refusal :=
  if s.powered ∧ cluster < 64 ∧ bank < 64 ∧ !((s.cluster cluster).bank bank).ready then
    .next (s.modCluster cluster fun c => c.bankReady bank)
  else .refused (.notEnabled "BANK_MODE_READY")

/-! ### Meanings of single operations: a bundle that holds the operation and nothing else -/

/-- Meaning of KSCL. -/
def execKscl (h : Hdr) (o : KF) (s : State) : Host.Outcome State Fault Refusal := issueOne (ksclOp h o) s
/-- Meaning of KCODE. -/
def execKcode (h : Hdr) (o : KF) (s : State) : Host.Outcome State Fault Refusal := issueOne (kcodeOp h o) s
/-- Meaning of KGRANT. -/
def execKgrant (h : Hdr) (o : KF) (s : State) : Host.Outcome State Fault Refusal := issueOne (kgrantOp h o) s
/-- Meaning of KPAD. -/
def execKpad (h : Hdr) (o : KF) (s : State) : Host.Outcome State Fault Refusal := issueOne (kpadOp h o) s
/-- Meaning of KMODE. -/
def execKmode (h : Hdr) (o : KF) (s : State) : Host.Outcome State Fault Refusal := issueOne (kmodeOp h o) s

end Sys2Proof.Machine
end

