-- ==== Sys2Proof/Machine/Scalar.lean ====
section
/-! DEFINITION. The S slot (R115 to R146, R19, R20, R30): integer arithmetic, compares, branch targets, loop stack, rotation, bucket
selection, dimension variables, type words, system registers, traps, retirement, waiting. -/

namespace Sys2Proof.Machine

/-! ### Integer results (R118 to R121) -/

/-- The operand as `.w` takes it: the low 32 bits, read as signed. -/
def sval (w : Bool) (a : Word) : Int := if w then (a.setWidth 32).toInt else a.toInt
/-- The operand as `.w` takes it, read as unsigned. -/
def uval (w : Bool) (a : Word) : Nat := if w then (a.setWidth 32).toNat else a.toNat
/-- A result as `.w` gives it: its low 32 bits sign-extended (R119). -/
def wres (w : Bool) (x : Int) : Word := if w then sx (BitVec.ofInt 32 x) else BitVec.ofInt 64 x

/-- `add` and `sub` with `.w` (MOD 0) and `.sat` (MOD 1). -/
def addSub (f : Int → Int → Int) (mod : BitVec 5) (a b : Word) : Word × BitVec 6 :=
  let w := bit mod 0
  let x := f (sval w a) (sval w b)
  if bit mod 1 then
    let c := clampS (if w then 32 else 64) x
    (wres w c.1, if c.2 then flagSat else 0)
  else (wres w x, 0)

/-- Leading zeros of an `n`-bit number. -/
def leadZeros : Nat → Nat → Nat
  | 0, _ => 0
  | n + 1, x => if x.testBit n then 0 else 1 + leadZeros n x
/-- Trailing zeros of an `n`-bit number. -/
def trailZeros (n x : Nat) : Nat := ((List.range n).find? x.testBit).getD n
/-- One bits of an `n`-bit number. -/
def ones (n x : Nat) : Nat := ((List.range n).filter x.testBit).length

/-- Shift amount: b[5:0], or b[4:0] under `.w`. -/
def shAmt (w : Bool) (b : Word) : Nat := if w then fld b 4 0 else fld b 5 0

/-- Field position and width of `bext` and `bins` (R120). -/
def fieldPos (b : Word) : Nat := fld b 5 0
/-- Width, at most what fits above the position. -/
def fieldWidth (b : Word) : Nat := min (min 64 (fld b 14 8)) (64 - fieldPos b)

/-- `bext` (R120). -/
def bextRes (sext : Bool) (a b : Word) : Word :=
  let n := fieldWidth b
  let x := (a.toNat >>> fieldPos b) % 2 ^ n
  if sext && decide (0 < n) && x.testBit (n - 1) then BitVec.ofInt 64 ((x : Int) - 2 ^ n) else word x

/-- `bins` (R120). -/
def binsRes (d a b : Word) : Word := putBits d (fieldPos b) (fieldWidth b) a.toNat

/-- `div` (R121). -/
def divRes (w : Bool) (a b : Word) : Word :=
  let x := sval w a
  let y := sval w b
  if y = 0 then wres w (-1) else wres w (x.tdiv y)
/-- `rem` (R121). -/
def remRes (w : Bool) (a b : Word) : Word :=
  let x := sval w a
  let y := sval w b
  if y = 0 then wres w x else wres w (x.tmod y)
/-- `divu` (R121). -/
def divuRes (w : Bool) (a b : Word) : Word := if uval w b = 0 then wres w (-1) else wres w (uval w a / uval w b : Nat)
/-- `remu` (R121). -/
def remuRes (w : Bool) (a b : Word) : Word := if uval w b = 0 then wres w (uval w a : Nat) else wres w (uval w a % uval w b : Nat)

/-- A register-form operation of two sources without flags (R118). -/
def binOp (i : Instr) (h : Hdr) (o : SR) (lat : Nat) (f : Word → Word → Word) : SlotOp :=
  mkOp i h fun x => do
    let a ← x.rS o.ra.toNat
    let b ← x.rS o.rb.toNat
    x.wS o.rd.toNat (f a b) lat

/-- A register-form operation of one source (R118). -/
def unOp (i : Instr) (h : Hdr) (o : SR) (f : Word → Word) : SlotOp :=
  mkOp i h fun x => do
    let a ← x.rS o.ra.toNat
    x.wS o.rd.toNat (f a) 1

/-- `add` and `sub`. -/
def sumOp (i : Instr) (h : Hdr) (o : SR) (f : Int → Int → Int) : SlotOp :=
  mkOp i h fun x => do
    let a ← x.rS o.ra.toNat
    let b ← x.rS o.rb.toNat
    let r := addSub f o.mod a b
    x.wS o.rd.toNat r.1 1 r.2

/-- `.w` of a register form. -/
def srW (o : SR) : Bool := bit o.mod 0

/-- `add` (R118). -/
def addOp (h : Hdr) (o : SR) : SlotOp := sumOp (.add h o) h o (· + ·)
/-- `sub`. -/
def subOp (h : Hdr) (o : SR) : SlotOp := sumOp (.sub h o) h o (· - ·)
/-- `and`. -/
def andOp (h : Hdr) (o : SR) : SlotOp := binOp (.and h o) h o 1 (· &&& ·)
/-- `or`. -/
def orOp (h : Hdr) (o : SR) : SlotOp := binOp (.or h o) h o 1 (· ||| ·)
/-- `xor`. -/
def xorOp (h : Hdr) (o : SR) : SlotOp := binOp (.xor h o) h o 1 (· ^^^ ·)
/-- `sll`. -/
def sllOp (h : Hdr) (o : SR) : SlotOp :=
  binOp (.sll h o) h o 1 fun a b => wres (srW o) ((uval (srW o) a * 2 ^ shAmt (srW o) b : Nat) : Int)
/-- `srl`. -/
def srlOp (h : Hdr) (o : SR) : SlotOp :=
  binOp (.srl h o) h o 1 fun a b => wres (srW o) ((uval (srW o) a / 2 ^ shAmt (srW o) b : Nat) : Int)
/-- `sra`. -/
def sraOp (h : Hdr) (o : SR) : SlotOp := binOp (.sra h o) h o 1 fun a b => wres (srW o) (sval (srW o) a / 2 ^ shAmt (srW o) b)
/-- `min`. -/
def minOp (h : Hdr) (o : SR) : SlotOp := binOp (.min h o) h o 1 fun a b => if b.slt a then b else a
/-- `max`. -/
def maxOp (h : Hdr) (o : SR) : SlotOp := binOp (.max h o) h o 1 fun a b => if a.slt b then b else a
/-- `minu`. -/
def minuOp (h : Hdr) (o : SR) : SlotOp := binOp (.minu h o) h o 1 fun a b => if b.ult a then b else a
/-- `maxu`. -/
def maxuOp (h : Hdr) (o : SR) : SlotOp := binOp (.maxu h o) h o 1 fun a b => if a.ult b then b else a
/-- `shadd`. -/
def shaddOp (h : Hdr) (o : SR) : SlotOp := binOp (.shadd h o) h o 1 fun a b => (a <<< (fld o.mod 2 0)) + b
/-- `clz`. -/
def clzOp (h : Hdr) (o : SR) : SlotOp :=
  unOp (.clz h o) h o fun a => word (if srW o then leadZeros 32 (uval true a) else leadZeros 64 a.toNat)
/-- `ctz`. -/
def ctzOp (h : Hdr) (o : SR) : SlotOp :=
  unOp (.ctz h o) h o fun a => word (if srW o then trailZeros 32 (uval true a) else trailZeros 64 a.toNat)
/-- `popc`. -/
def popcOp (h : Hdr) (o : SR) : SlotOp :=
  unOp (.popc h o) h o fun a => word (if srW o then ones 32 (uval true a) else ones 64 a.toNat)
/-- `bext`. -/
def bextOp (h : Hdr) (o : SR) : SlotOp := binOp (.bext h o) h o 1 (bextRes (bit o.mod 0))
/-- `bins`, which reads s[RD] too. -/
def binsOp (h : Hdr) (o : SR) : SlotOp :=
  mkOp (.bins h o) h fun x => do
    let a ← x.rS o.ra.toNat
    let b ← x.rS o.rb.toNat
    let d ← x.rS o.rd.toNat
    x.wS o.rd.toNat (binsRes d a b) 1
/-- `mul`. -/
def mulOp (h : Hdr) (o : SR) : SlotOp := binOp (.mul h o) h o 3 fun a b => wres (srW o) (sval (srW o) a * sval (srW o) b)
/-- `mulh`. -/
def mulhOp (h : Hdr) (o : SR) : SlotOp := binOp (.mulh h o) h o 3 fun a b => BitVec.ofInt 64 (a.toInt * b.toInt / 2 ^ 64)
/-- `mulhu`. -/
def mulhuOp (h : Hdr) (o : SR) : SlotOp := binOp (.mulhu h o) h o 3 fun a b => word (a.toNat * b.toNat / 2 ^ 64)
/-- `div`. -/
def divOp (h : Hdr) (o : SR) : SlotOp := binOp (.div h o) h o 12 (divRes (srW o))
/-- `divu`. -/
def divuOp (h : Hdr) (o : SR) : SlotOp := binOp (.divu h o) h o 12 (divuRes (srW o))
/-- `rem`. -/
def remOp (h : Hdr) (o : SR) : SlotOp := binOp (.rem h o) h o 12 (remRes (srW o))
/-- `remu`. -/
def remuOp (h : Hdr) (o : SR) : SlotOp := binOp (.remu h o) h o 12 (remuRes (srW o))
/-- `sel` (R124). -/
def selOp (h : Hdr) (o : SS) : SlotOp :=
  mkOp (.sel h o) h fun x => do
    let p ← x.rP o.pa.toNat
    let a ← x.rS o.ra.toNat
    let b ← x.rS o.rb.toNat
    x.wS o.rd.toNat (if p then a else b) 1

/-! ### Immediates (R122, R123) -/

/-- An immediate form (R122). -/
def immOp (i : Instr) (h : Hdr) (o : SI) (f : Word → Word) : SlotOp :=
  mkOp i h fun x => do
    let a ← x.rS o.ra.toNat
    x.wS o.rd.toNat (f a) 1

/-- `addi`. -/
def addiOp (h : Hdr) (o : SI) : SlotOp := immOp (.addi h o) h o (· + sx o.imm)
/-- `andi`. -/
def andiOp (h : Hdr) (o : SI) : SlotOp := immOp (.andi h o) h o (· &&& sx o.imm)
/-- `ori`. -/
def oriOp (h : Hdr) (o : SI) : SlotOp := immOp (.ori h o) h o (· ||| sx o.imm)
/-- `xori`. -/
def xoriOp (h : Hdr) (o : SI) : SlotOp := immOp (.xori h o) h o (· ^^^ sx o.imm)
/-- `slli`. -/
def slliOp (h : Hdr) (o : SI) : SlotOp := immOp (.slli h o) h o (· <<< (fld o.imm 5 0))
/-- `srli`. -/
def srliOp (h : Hdr) (o : SI) : SlotOp := immOp (.srli h o) h o (· >>> (fld o.imm 5 0))
/-- `srai`. -/
def sraiOp (h : Hdr) (o : SI) : SlotOp := immOp (.srai h o) h o fun a => a.sshiftRight (fld o.imm 5 0)
/-- `li` (R123). -/
def liOp (h : Hdr) (o : SL) : SlotOp := mkOp (.li h o) h fun x => x.wS o.rd.toNat (sx o.imm) 1
/-- `lih` (R123), which reads s[RD]. -/
def lihOp (h : Hdr) (o : SL) : SlotOp :=
  mkOp (.lih h o) h fun x => do
    let d ← x.rS o.rd.toNat
    x.wS o.rd.toNat ((zx o.imm <<< 29) ||| (d &&& 0x1FFFFFFF)) 1

/-! ### Compares and predicates (R125, R126) -/

/-- Condition of CC (R93). -/
def ccHolds (cc : Nat) (a b : Word) : Bool :=
  match cc with
  | 0 => a == b
  | 1 => a != b
  | 2 => a.slt b
  | 3 => !a.slt b
  | 4 => a.ult b
  | _ => !a.ult b

/-- Lands r in PT and its complement in PF. -/
def Ctx.wPair (x : Ctx) (pt pf : BitVec 4) (r : Bool) (lat : Nat) : SlotM Unit := do
  x.wP pt.toNat r lat
  x.wP pf.toNat (!r) lat

/-- `cmp`. -/
def cmpOp (h : Hdr) (o : SC) : SlotOp :=
  mkOp (.cmp h o) h fun x => do
    let a ← x.rS o.ra.toNat
    let b ← x.rS o.rb.toNat
    x.wPair o.pt o.pf (ccHolds o.cc.toNat a b) 2
/-- `cmpi`. -/
def cmpiOp (h : Hdr) (o : SCI) : SlotOp :=
  mkOp (.cmpi h o) h fun x => do
    let a ← x.rS o.ra.toNat
    x.wPair o.pt o.pf (ccHolds o.cc.toNat a (sx o.imm)) 2

/-- A predicate-logic operation (R126). -/
def predOp (i : Instr) (h : Hdr) (o : SP) (f : Bool → Bool → Bool) : SlotOp :=
  mkOp i h fun x => do
    let a ← x.rP o.pa.toNat
    let b ← x.rP o.pb.toNat
    x.wPair o.pt o.pf (f a b) 1
/-- `pand`. -/
def pandOp (h : Hdr) (o : SP) : SlotOp := predOp (.pand h o) h o (· && ·)
/-- `por`. -/
def porOp (h : Hdr) (o : SP) : SlotOp := predOp (.por h o) h o (· || ·)
/-- `pxor`. -/
def pxorOp (h : Hdr) (o : SP) : SlotOp := predOp (.pxor h o) h o Bool.xor
/-- `pandn`. -/
def pandnOp (h : Hdr) (o : SP) : SlotOp := predOp (.pandn h o) h o fun a b => a && !b
/-- `ptst`. -/
def ptstOp (h : Hdr) (o : SP) : SlotOp :=
  mkOp (.ptst h o) h fun x => do
    let a ← x.rS o.ra.toNat
    x.wPair o.pt o.pf (a != 0) 2

/-! ### Branch targets (R127) -/

/-- `bli`. -/
def bliOp (h : Hdr) (o : SBL) : SlotOp := mkOp (.bli h o) h fun x => x.land 1 (.b o.bd.toNat o.pos)
/-- `bmov`. -/
def bmovOp (h : Hdr) (o : SB) : SlotOp :=
  mkOp (.bmov h o) h fun x => do
    let a ← x.rS o.ra.toNat
    x.land 1 (.b o.bd.toNat (a.setWidth 32))
/-- `bget`. -/
def bgetOp (h : Hdr) (o : SB) : SlotOp := mkOp (.bget h o) h fun x => x.wS o.ra.toNat (zx (x.c.r.readB o.ba.toNat)) 1

/-! ### Loop stack and rotation (R128 to R133) -/

/-- END of a `loop`: 0 stands for position 16,384 (R128). -/
def loopEnd (imm : BitVec 23) : Nat := if fld imm 13 0 = 0 then 16384 else fld imm 13 0

/-- Pushes a loop-stack entry. -/
def Core.pushLoop (c : Core) (e : LoopEntry) : Core := { c with r := { c.r with loops := e :: c.r.loops } }

/-- `loop`. -/
def loopOp (h : Hdr) (o : SX) : SlotOp :=
  mkOp (.loop h o) h fun x => do
    let a ← x.rS o.ra.toNat
    let n := if o.ra = 0 then fld o.imm 22 14 else a.toNat
    x.need (decide (n < 2 ^ 32)) 0 0
    x.need (decide (x.fall < loopEnd o.imm)) 0 0
    x.need (n == 0 || decide (x.c.r.loops.length < 4)) 0 0
    if n = 0 then modify fun b => { b with skip := some (loopEnd o.imm) }
    else
      let e : LoopEntry := { start := BitVec.ofNat 32 x.fall, stop := BitVec.ofNat 32 (loopEnd o.imm), count := BitVec.ofNat 32 n }
      x.coreAtRetire fun c => c.pushLoop e

/-- `lbrk` (R130). -/
def lbrkOp (h : Hdr) (o : SX) : SlotOp :=
  mkOp (.lbrk h o) h fun x => do
    let n := fld o.imm 2 0
    x.need (decide (1 ≤ n) && decide (n ≤ 4) && decide (n ≤ x.c.r.loops.length)) 0 0
    x.coreAtRetire fun c => { c with r := { c.r with loops := c.r.loops.drop n } }

/-- The field `lget` reads (R131). -/
def lgetRes (loops : List LoopEntry) (imm : BitVec 23) : Word :=
  match fld imm 3 2 with
  | 0 => match loops[fld imm 1 0]? with | some e => zx e.start | none => 0
  | 1 => match loops[fld imm 1 0]? with | some e => zx e.stop | none => 0
  | 2 => match loops[fld imm 1 0]? with | some e => zx e.count | none => 0
  | _ => word loops.length

/-- `lget`. -/
def lgetOp (h : Hdr) (o : SX) : SlotOp := mkOp (.lget h o) h fun x => x.wS o.rd.toNat (lgetRes x.c.r.loops o.imm) 1

/-- `rotcfg` (R132). -/
def rotcfgOp (h : Hdr) (o : SX) : SlotOp :=
  mkOp (.rotcfg h o) h fun x => do
    let a ← x.rS o.ra.toNat
    x.need (rotOk a) 0 0
    x.coreAtRetire fun c => { c with r := c.r.setRot a }

/-- The rotation of `swp` (R133): bases and PRB step, then p8 under the new PRB takes whether more than `e` iterations
follow. -/
def Regs.swp (r : Regs) (e : Nat) : Regs :=
  let top := match r.loops with | t :: _ => t.count.toNat | [] => 0
  let r := r.setRot (swpRot r.rot)
  { r with p := vset r.p (physP r.rot 8) (decide (e < top - 1)) }

/-- `swp`. -/
def swpOp (h : Hdr) (o : SX) : SlotOp :=
  mkOp (.swp h o) h fun x => do
    x.need (!x.c.r.loops.isEmpty) 0 0
    x.coreAtRetire fun c => { c with r := c.r.swp (fld o.imm 2 0) }

/-! ### Dimension variables and buckets (R135 to R138) -/

/-- Shape fault of the S slot with FIELD 2 (R135, R136). -/
def Ctx.dimFault {α : Type} (x : Ctx) (s1 s2 : Word) : SlotM α := x.fail 0x03 0x20 s1 s2

/-- Binds a dimension variable with the checks of R136. -/
def Ctx.bindDim (x : Ctx) (n : Nat) (v : Nat) : SlotM Unit := do
  if v = 0 ∨ 2 ^ 32 ≤ v then x.dimFault 1 (word v)
  let b ← get
  match vget b.dims n none with
  | some w => if w.toNat = v then pure () else x.dimFault (zx w) (word v)
  | none => set { b with dims := vset b.dims n (some (BitVec.ofNat 32 v)) }

/-- The entries of a bucket table are ascending sizes above 0 (R134). -/
def ascending : List Nat → Nat → Bool
  | [], _ => true
  | e :: es, lo => decide (lo < e) && ascending es e

/-- `bsel`. -/
def bselOp (h : Hdr) (o : SX) : SlotOp :=
  mkOp (.bsel h o) h fun x => do
    let a ← x.rS o.ra.toNat
    let n := fld o.imm 3 0
    x.need (decide (1 ≤ n) && decide (n ≤ 8) && decide (o.rb.toNat + n ≤ 64)) 0 0
    let es ← (List.range n).mapM fun k => x.rS (o.rb.toNat + k)
    let sizes := es.map fun e => fld e 31 0
    x.need (ascending sizes 0) 0 0
    match es.find? fun e => decide (a.toNat ≤ fld e 31 0) with
    | none => x.dimFault (word (sizes.getLastD 0)) a
    | some e =>
      if a = 0 then x.dimFault (word (sizes.getLastD 0)) a
      x.bindDim (fld o.imm 7 4) (fld e 31 0)
      x.land 1 (.b (fld o.imm 11 8) (e.extractLsb' 32 32))
      x.land 1 (.pad (fld o.imm 13 12) (BitVec.ofNat 32 (fld e 31 0 - a.toNat)))

/-- `dbind`. -/
def dbindOp (h : Hdr) (o : SX) : SlotOp :=
  mkOp (.dbind h o) h fun x => do
    let a ← x.rS o.ra.toNat
    x.bindDim (fld o.imm 3 0) (if o.ra = 0 then fld o.imm 22 4 else a.toNat)

/-- `dfree`. -/
def dfreeOp (h : Hdr) (o : SX) : SlotOp :=
  mkOp (.dfree h o) h fun _ => modify fun b => { b with dims := b.dims.mapIdx fun k v => if bit o.imm k then none else v }

/-- `dget`. -/
def dgetOp (h : Hdr) (o : SX) : SlotOp :=
  mkOp (.dget h o) h fun x => x.wS o.rd.toNat (match vget x.c.r.d (fld o.imm 3 0) none with | some v => zx v | none => 0) 1

/-! ### Type words (R139, R140) -/

/-- `tyget`. -/
def tygetOp (h : Hdr) (o : SX) : SlotOp :=
  mkOp (.tyget h o) h fun x => do
    let t ← x.rTy (fld o.imm 3 0)
    x.wS o.rd.toNat (if bit o.imm 4 then t.extractLsb' 64 64 else t.extractLsb' 0 64) 1

/-- `tyset`. -/
def tysetOp (h : Hdr) (o : SX) : SlotOp :=
  mkOp (.tyset h o) h fun x => do
    let a ← x.rS o.ra.toNat
    let b ← x.rS o.rb.toNat
    let t : TypeWord := b ++ a
    let n := fld o.imm 3 0
    if tyValid t && !tyBasic t then x.fail 0x03 (typeSynd (tileOpnd 3 n) 0 1) a b
    x.land 1 (.ty n t)

/-! ### System registers (R141, R329) -/

/-- TSTAT (R314). -/
def Core.tstat (c : Core) : Word := word (c.x.rtry <<< 10 ||| c.nq <<< 4 ||| b2n c.x.hnd)

/-- GRANT (R285). -/
def Core.grantWord (c : Core) (pcc : Nat) : Word :=
  let g := c.grant
  let f := match g.cls with
    | some k => if pcc < g.gend then 2 ^ 63 + k <<< 61 + g.gend % 2 ^ 48 else g.gend % 2 ^ 48
    | none => g.gend % 2 ^ 48
  let p := match g.pend with | some (k, l) => 1 <<< 60 ||| k <<< 58 ||| l <<< 53 | none => 0
  word (f ||| p)

/-- A bank map entry (R176). -/
def Bank.entry (b : Bank) : Nat :=
  let r := (b2n b.ready) <<< 13
  match b.mode with
  | .cache => r
  | .spad => 1 <<< 14 ||| r ||| b.own <<< 6
  | .fifo => 2 <<< 14 ||| r ||| b.prod <<< 4 ||| b.cons <<< 2

/-- CNT (R329). -/
def Core.cntWord (c : Core) : Word :=
  word (c.cnt.l ||| c.cnt.s <<< 8 ||| c.cnt.c <<< 16 ||| c.cnt.t <<< 24 ||| c.mem.rels.length <<< 32)

/-- The value a kernel reads from a system register; none for an unassigned or supervisor register (R141, R329). -/
def csrRead (s : State) (i n : Nat) : Option Word :=
  let c := s.core i
  if n = 0x000 then some (word s.pcc)
  else if n = 0x001 then some c.wid
  else if n = 0x002 then some c.level
  else if 0x003 ≤ n ∧ n ≤ 0x008 then some (vget c.grid (n - 3) 0)
  else if n = 0x010 then some c.x.cause
  else if n = 0x011 then some c.x.synd0
  else if n = 0x012 then some c.x.synd1
  else if n = 0x013 then some c.x.synd2
  else if n = 0x014 then some c.x.synd3
  else if n = 0x015 then some c.x.trappc
  else if n = 0x016 then some c.tstat
  else if n = 0x020 then some (zx c.e.fpflags)
  else if n = 0x021 then some (word (b2n c.e.clip))
  else if n = 0x022 then some c.stalls
  else if n = 0x023 then some c.holds
  else if n = 0x024 then some c.cntWord
  else if n = 0x025 then some c.r.rot
  else if n = 0x030 then some (c.grantWord s.pcc)
  else if n = 0x031 then some c.e.padsel
  else if 0x032 ≤ n ∧ n ≤ 0x035 then some (zx (vget c.r.pad (n - 0x32) 0))
  else if n = 0x040 then some c.cbase
  else if n = 0x041 ∨ n = 0x042 then some (vget c.cwp (n - 0x41) 0)
  else if 0x050 ≤ n ∧ n ≤ 0x05F then
    let cl := s.cluster (clusterOf i)
    let b (k : Nat) : Nat := (cl.bank (4 * (n - 0x50) + k)).entry <<< (16 * k)
    some (word (b 0 ||| b 1 ||| b 2 ||| b 3))
  else none

/-- The register is read-write (R329). -/
def csrRw (n : Nat) : Bool := n == 0x20 || n == 0x21 || (decide (0x32 ≤ n) && decide (n ≤ 0x35)) || n == 0x40

/-- Lands a CSR write at c+1 (R141). -/
def Ctx.wCsr (x : Ctx) (n : Nat) (v : Word) : SlotM Unit :=
  if 0x32 ≤ n ∧ n ≤ 0x35 then x.land 1 (.pad (n - 0x32) (v.setWidth 32)) else x.land 1 (.csr n v)

/-- `csrr`. -/
def csrrOp (h : Hdr) (o : SX) : SlotOp :=
  mkOp (.csrr h o) h fun x =>
    match csrRead x.s x.i (fld o.imm 11 0) with
    | some v => x.wS o.rd.toNat v 2
    | none => x.illegal 0 0

/-- A CSR write of f(old, a). -/
def csrOp (i : Instr) (h : Hdr) (o : SX) (f : Word → Word → Word) : SlotOp :=
  mkOp i h fun x => do
    let a ← x.rS o.ra.toNat
    let n := fld o.imm 11 0
    match csrRead x.s x.i n with
    | some v =>
      x.need (csrRw n) 0 0
      x.wCsr n (f v a)
      x.wS o.rd.toNat v 2
    | none => x.illegal 0 0

/-- `csrw`. -/
def csrwOp (h : Hdr) (o : SX) : SlotOp := csrOp (.csrw h o) h o fun _ a => a
/-- `csrs`. -/
def csrsOp (h : Hdr) (o : SX) : SlotOp := csrOp (.csrs h o) h o fun v a => v ||| a
/-- `csrc`. -/
def csrcOp (h : Hdr) (o : SX) : SlotOp := csrOp (.csrc h o) h o fun v a => v &&& ~~~a

/-! ### Traps, retirement, waiting (R142 to R146) -/

/-- `trap`. -/
def trapOp (h : Hdr) (o : SX) : SlotOp :=
  mkOp (.trap h o) h (noTree := true) fun x => do
    let a ← x.rS o.ra.toNat
    x.fail 0x0C (word (fld o.imm 15 0)) a 0

/-- `tret`. -/
def tretOp (h : Hdr) (o : SX) : SlotOp :=
  mkOp (.tret h o) h (noTree := true) fun x => do
    x.need x.c.x.hnd 0 0
    modify fun b => { b with tret := some (bit o.imm 0) }

/-- `exit`. -/
def exitOp (h : Hdr) (o : SX) : SlotOp := mkOp (.exit h o) h (noTree := true) fun _ => modify fun b => { b with exit := true }

/-- `wait`. -/
def waitOp (h : Hdr) (o : SW) : SlotOp :=
  mkOp (.wait h o) h fun x =>
    let n := x.c.cnt
    holdUnless (decide (n.l ≤ o.l.toNat) && decide (n.s ≤ o.s.toNat) && decide (n.c ≤ o.c.toNat) && decide (n.t ≤ o.t.toNat)) .wait

/-- `bar` instructions an instance has retired at a level. -/
def Core.barCount (c : Core) (l : Nat) : Nat := c.bars[l]?.getD 0

/-- The member has reached generation g of level l: it has retired that many, or holds at it (R20). -/
def Core.reached (c : Core) (l g : Nat) : Bool :=
  decide (g ≤ c.barCount l) ||
  (decide (g = c.barCount l + 1) && c.phase == .run && match c.hold with | some (.bar k, _) => k == l | _ => false)

/-- Every other member of the level-l group that has not left has reached generation g (R20). -/
def barDone (s : State) (i l g : Nat) : Bool :=
  match (s.core i).inst with
  | none => true
  | some inst =>
    (s.cores.toList.zipIdx.all fun p =>
      p.2 == i || p.1.phase == .retiring ||
      match p.1.inst with
      | some o => !(o.graph == inst.graph && o.node == inst.node && inst.lh.sameGroup l o.idx inst.idx) || p.1.reached l g
      | none => true) &&
    s.saved.all fun v =>
      !(v.inst.graph == inst.graph && v.inst.node == inst.node && inst.lh.sameGroup l v.inst.idx inst.idx) ||
      decide (g ≤ v.core.barCount l)

/-- `bar`. -/
def barOp (h : Hdr) (o : SX) : SlotOp :=
  mkOp (.bar h o) h fun x => do
    let l := fld o.imm 2 0
    x.need (x.lh.ganged l) 0 0
    let g := x.c.barCount l + 1
    modify fun b => { b with bar := some l }
    holdUnless (barDone x.s x.i l g) (.bar l)
    atRetire fun s => (s.modCore x.i fun c => { c with bars := c.bars.set l g }).releaseBar x.i l

/-! ### Meanings of single operations: a bundle that holds the operation and nothing else -/

/-- Meaning of ADD. -/
def execAdd (h : Hdr) (o : SR) (s : State) : Host.Outcome State Fault Refusal := issueOne (addOp h o) s
/-- Meaning of SUB. -/
def execSub (h : Hdr) (o : SR) (s : State) : Host.Outcome State Fault Refusal := issueOne (subOp h o) s
/-- Meaning of AND. -/
def execAnd (h : Hdr) (o : SR) (s : State) : Host.Outcome State Fault Refusal := issueOne (andOp h o) s
/-- Meaning of OR. -/
def execOr (h : Hdr) (o : SR) (s : State) : Host.Outcome State Fault Refusal := issueOne (orOp h o) s
/-- Meaning of XOR. -/
def execXor (h : Hdr) (o : SR) (s : State) : Host.Outcome State Fault Refusal := issueOne (xorOp h o) s
/-- Meaning of SLL. -/
def execSll (h : Hdr) (o : SR) (s : State) : Host.Outcome State Fault Refusal := issueOne (sllOp h o) s
/-- Meaning of SRL. -/
def execSrl (h : Hdr) (o : SR) (s : State) : Host.Outcome State Fault Refusal := issueOne (srlOp h o) s
/-- Meaning of SRA. -/
def execSra (h : Hdr) (o : SR) (s : State) : Host.Outcome State Fault Refusal := issueOne (sraOp h o) s
/-- Meaning of MIN. -/
def execMin (h : Hdr) (o : SR) (s : State) : Host.Outcome State Fault Refusal := issueOne (minOp h o) s
/-- Meaning of MAX. -/
def execMax (h : Hdr) (o : SR) (s : State) : Host.Outcome State Fault Refusal := issueOne (maxOp h o) s
/-- Meaning of MINU. -/
def execMinu (h : Hdr) (o : SR) (s : State) : Host.Outcome State Fault Refusal := issueOne (minuOp h o) s
/-- Meaning of MAXU. -/
def execMaxu (h : Hdr) (o : SR) (s : State) : Host.Outcome State Fault Refusal := issueOne (maxuOp h o) s
/-- Meaning of SHADD. -/
def execShadd (h : Hdr) (o : SR) (s : State) : Host.Outcome State Fault Refusal := issueOne (shaddOp h o) s
/-- Meaning of CLZ. -/
def execClz (h : Hdr) (o : SR) (s : State) : Host.Outcome State Fault Refusal := issueOne (clzOp h o) s
/-- Meaning of CTZ. -/
def execCtz (h : Hdr) (o : SR) (s : State) : Host.Outcome State Fault Refusal := issueOne (ctzOp h o) s
/-- Meaning of POPC. -/
def execPopc (h : Hdr) (o : SR) (s : State) : Host.Outcome State Fault Refusal := issueOne (popcOp h o) s
/-- Meaning of BEXT. -/
def execBext (h : Hdr) (o : SR) (s : State) : Host.Outcome State Fault Refusal := issueOne (bextOp h o) s
/-- Meaning of BINS. -/
def execBins (h : Hdr) (o : SR) (s : State) : Host.Outcome State Fault Refusal := issueOne (binsOp h o) s
/-- Meaning of MUL. -/
def execMul (h : Hdr) (o : SR) (s : State) : Host.Outcome State Fault Refusal := issueOne (mulOp h o) s
/-- Meaning of MULH. -/
def execMulh (h : Hdr) (o : SR) (s : State) : Host.Outcome State Fault Refusal := issueOne (mulhOp h o) s
/-- Meaning of MULHU. -/
def execMulhu (h : Hdr) (o : SR) (s : State) : Host.Outcome State Fault Refusal := issueOne (mulhuOp h o) s
/-- Meaning of DIV. -/
def execDiv (h : Hdr) (o : SR) (s : State) : Host.Outcome State Fault Refusal := issueOne (divOp h o) s
/-- Meaning of DIVU. -/
def execDivu (h : Hdr) (o : SR) (s : State) : Host.Outcome State Fault Refusal := issueOne (divuOp h o) s
/-- Meaning of REM. -/
def execRem (h : Hdr) (o : SR) (s : State) : Host.Outcome State Fault Refusal := issueOne (remOp h o) s
/-- Meaning of REMU. -/
def execRemu (h : Hdr) (o : SR) (s : State) : Host.Outcome State Fault Refusal := issueOne (remuOp h o) s
/-- Meaning of SEL. -/
def execSel (h : Hdr) (o : SS) (s : State) : Host.Outcome State Fault Refusal := issueOne (selOp h o) s
/-- Meaning of ADDI. -/
def execAddi (h : Hdr) (o : SI) (s : State) : Host.Outcome State Fault Refusal := issueOne (addiOp h o) s
/-- Meaning of ANDI. -/
def execAndi (h : Hdr) (o : SI) (s : State) : Host.Outcome State Fault Refusal := issueOne (andiOp h o) s
/-- Meaning of ORI. -/
def execOri (h : Hdr) (o : SI) (s : State) : Host.Outcome State Fault Refusal := issueOne (oriOp h o) s
/-- Meaning of XORI. -/
def execXori (h : Hdr) (o : SI) (s : State) : Host.Outcome State Fault Refusal := issueOne (xoriOp h o) s
/-- Meaning of SLLI. -/
def execSlli (h : Hdr) (o : SI) (s : State) : Host.Outcome State Fault Refusal := issueOne (slliOp h o) s
/-- Meaning of SRLI. -/
def execSrli (h : Hdr) (o : SI) (s : State) : Host.Outcome State Fault Refusal := issueOne (srliOp h o) s
/-- Meaning of SRAI. -/
def execSrai (h : Hdr) (o : SI) (s : State) : Host.Outcome State Fault Refusal := issueOne (sraiOp h o) s
/-- Meaning of LI. -/
def execLi (h : Hdr) (o : SL) (s : State) : Host.Outcome State Fault Refusal := issueOne (liOp h o) s
/-- Meaning of LIH. -/
def execLih (h : Hdr) (o : SL) (s : State) : Host.Outcome State Fault Refusal := issueOne (lihOp h o) s
/-- Meaning of CMP. -/
def execCmp (h : Hdr) (o : SC) (s : State) : Host.Outcome State Fault Refusal := issueOne (cmpOp h o) s
/-- Meaning of CMPI. -/
def execCmpi (h : Hdr) (o : SCI) (s : State) : Host.Outcome State Fault Refusal := issueOne (cmpiOp h o) s
/-- Meaning of PAND. -/
def execPand (h : Hdr) (o : SP) (s : State) : Host.Outcome State Fault Refusal := issueOne (pandOp h o) s
/-- Meaning of POR. -/
def execPor (h : Hdr) (o : SP) (s : State) : Host.Outcome State Fault Refusal := issueOne (porOp h o) s
/-- Meaning of PXOR. -/
def execPxor (h : Hdr) (o : SP) (s : State) : Host.Outcome State Fault Refusal := issueOne (pxorOp h o) s
/-- Meaning of PANDN. -/
def execPandn (h : Hdr) (o : SP) (s : State) : Host.Outcome State Fault Refusal := issueOne (pandnOp h o) s
/-- Meaning of PTST. -/
def execPtst (h : Hdr) (o : SP) (s : State) : Host.Outcome State Fault Refusal := issueOne (ptstOp h o) s
/-- Meaning of BLI. -/
def execBli (h : Hdr) (o : SBL) (s : State) : Host.Outcome State Fault Refusal := issueOne (bliOp h o) s
/-- Meaning of BMOV. -/
def execBmov (h : Hdr) (o : SB) (s : State) : Host.Outcome State Fault Refusal := issueOne (bmovOp h o) s
/-- Meaning of BGET. -/
def execBget (h : Hdr) (o : SB) (s : State) : Host.Outcome State Fault Refusal := issueOne (bgetOp h o) s
/-- Meaning of LOOP. -/
def execLoop (h : Hdr) (o : SX) (s : State) : Host.Outcome State Fault Refusal := issueOne (loopOp h o) s
/-- Meaning of LBRK. -/
def execLbrk (h : Hdr) (o : SX) (s : State) : Host.Outcome State Fault Refusal := issueOne (lbrkOp h o) s
/-- Meaning of LGET. -/
def execLget (h : Hdr) (o : SX) (s : State) : Host.Outcome State Fault Refusal := issueOne (lgetOp h o) s
/-- Meaning of ROTCFG. -/
def execRotcfg (h : Hdr) (o : SX) (s : State) : Host.Outcome State Fault Refusal := issueOne (rotcfgOp h o) s
/-- Meaning of SWP. -/
def execSwp (h : Hdr) (o : SX) (s : State) : Host.Outcome State Fault Refusal := issueOne (swpOp h o) s
/-- Meaning of BSEL. -/
def execBsel (h : Hdr) (o : SX) (s : State) : Host.Outcome State Fault Refusal := issueOne (bselOp h o) s
/-- Meaning of DBIND. -/
def execDbind (h : Hdr) (o : SX) (s : State) : Host.Outcome State Fault Refusal := issueOne (dbindOp h o) s
/-- Meaning of DFREE. -/
def execDfree (h : Hdr) (o : SX) (s : State) : Host.Outcome State Fault Refusal := issueOne (dfreeOp h o) s
/-- Meaning of DGET. -/
def execDget (h : Hdr) (o : SX) (s : State) : Host.Outcome State Fault Refusal := issueOne (dgetOp h o) s
/-- Meaning of TYGET. -/
def execTyget (h : Hdr) (o : SX) (s : State) : Host.Outcome State Fault Refusal := issueOne (tygetOp h o) s
/-- Meaning of TYSET. -/
def execTyset (h : Hdr) (o : SX) (s : State) : Host.Outcome State Fault Refusal := issueOne (tysetOp h o) s
/-- Meaning of CSRR. -/
def execCsrr (h : Hdr) (o : SX) (s : State) : Host.Outcome State Fault Refusal := issueOne (csrrOp h o) s
/-- Meaning of CSRW. -/
def execCsrw (h : Hdr) (o : SX) (s : State) : Host.Outcome State Fault Refusal := issueOne (csrwOp h o) s
/-- Meaning of CSRS. -/
def execCsrs (h : Hdr) (o : SX) (s : State) : Host.Outcome State Fault Refusal := issueOne (csrsOp h o) s
/-- Meaning of CSRC. -/
def execCsrc (h : Hdr) (o : SX) (s : State) : Host.Outcome State Fault Refusal := issueOne (csrcOp h o) s
/-- Meaning of TRAP. -/
def execTrap (h : Hdr) (o : SX) (s : State) : Host.Outcome State Fault Refusal := issueOne (trapOp h o) s
/-- Meaning of TRET. -/
def execTret (h : Hdr) (o : SX) (s : State) : Host.Outcome State Fault Refusal := issueOne (tretOp h o) s
/-- Meaning of EXIT. -/
def execExit (h : Hdr) (o : SX) (s : State) : Host.Outcome State Fault Refusal := issueOne (exitOp h o) s
/-- Meaning of WAIT. -/
def execWait (h : Hdr) (o : SW) (s : State) : Host.Outcome State Fault Refusal := issueOne (waitOp h o) s
/-- Meaning of BAR. -/
def execBar (h : Hdr) (o : SX) (s : State) : Host.Outcome State Fault Refusal := issueOne (barOp h o) s

end Sys2Proof.Machine
end

