-- ==== Sys2Proof/Machine/Transform.lean ====
section
/-! DEFINITION. The X slot (R270 to R280): transposition, conversion, quantisation, expansion, retyping, addition, moves, exchange. -/

namespace Sys2Proof.Machine

/-! ### Building tiles -/

/-- Codes by logical index, none where not stored. -/
def Geo.codes (g : Geo) (data : TileData) : List (Option Nat) :=
  (List.range g.count).map fun i =>
    let p := g.place i
    (g.slotOf p.1 p.2).map fun k => g.code data p.1 k

/-- Data from a code for each logical index; an index is written once per codebook index (R257: every other byte 0). -/
def Geo.build (g : Geo) (codes : Array (Option Nat)) : TileData :=
  BitVec.ofNat 65536 ((List.range g.count).foldl (fun acc i =>
    let p := g.place i
    match g.slotOf p.1 p.2, codes[i]?.getD none with
    | some k, some c => if g.fmt = 12 ∧ p.2 % 8 ≠ 0 then acc else acc ||| (c <<< g.bitOf p.1 k)
    | _, _ => acc) 0)

/-- The scale-index area of a tile of geometry `g`, copied from the tile `from_` with the same blocks. -/
def copyIdx (from_ g : Geo) (data : TileData) : TileData :=
  if g.sidx then ((data >>> (8 * from_.idxOff)) &&& BitVec.ofNat 65536 (2 ^ (4 * g.blocks) - 1)) <<< (8 * g.idxOff) else 0

/-- The outlier tail as it stands, entries 0 to n−1. -/
def copyTail (data : TileData) (n : Nat) : TileData :=
  (List.range n).foldl (fun acc k => acc ||| (data &&& ((BitVec.ofNat 65536 (2 ^ 64 - 1)) <<< (8 * (8184 - 8 * k))))) 0

/-- A code for a result tile (R68, R69): an escape tile never takes the escape code. -/
def toCode (fmt : Nat) (esc : Bool) (m : RMode) (x : Num) : Nat × Flags :=
  match ffmtOf fmt with
  | some f =>
    let r := f.round m x
    if esc && r.1 == escCode fmt then (if fmt = 7 then 0 else f.nan, r.2) else r
  | none =>
    let w := fmtBits fmt
    let r := x.toInt w m
    if esc && r.1 == -2 ^ (w - 1) then (wrap w (r.1 + 1), if r.2 &&& flagNV = 0 then r.2 ||| flagSat else r.2)
    else (wrap w r.1, r.2)

/-- The parameter register s(24 + XE) (R270). -/
def Ctx.xParam (x : Ctx) (o : XF) : SlotM Word := x.rS (24 + o.xe.toNat)

/-- Reads a tile's data after its type word has passed the early-read check. -/
def Ctx.xTile (x : Ctx) (t : BitVec 4) : SlotM (TypeWord × TileData) := do
  let ty ← x.rTy t.toNat
  pure (ty, x.c.r.readT t.toNat)

/-- Replaces FMT. -/
def setFmt (t : TypeWord) (f : Nat) : TypeWord := putBits t 120 5 f
/-- Replaces LAYOUT. -/
def setLayout (t : TypeWord) (l : Nat) : TypeWord := putBits t 116 4 l
/-- Exchanges the last two extents. -/
def swapExts (t : TypeWord) : TypeWord :=
  let r := tyRank t
  putBits (putBits t (16 * r) 16 (tyExt t (r - 1)).toNat) (16 * (r - 1)) 16 (tyExt t r).toNat

/-- LAYOUT's own requirements hold (R48). -/
def layoutFits (d : Dims) (t : TypeWord) : Bool := layoutStatic t && layoutDims d t

/-- Step 5 of R51 where a LAYOUT that does not meet its requirements is FIELD 6 of the result. -/
def checkResult (td : Nat) (t : TypeWord) : TyM Geo := do
  let o := tileOpnd 3 td
  if !layoutFits (← get) t then throw (shape o 0 6 0 (word (tyLayout t)))
  checkDerived o t

/-- The source of an X operation: valid, well formed, resolved (R50 to R52). -/
def xSource (ta : Nat) (t : TypeWord) : TyM Geo := do
  checkWord (tileOpnd 0 ta) t
  geoOfSource (tileOpnd 0 ta) t

/-! ### `xpose` (R57, R271) -/

/-- Source index of each element of the transposed tile. -/
def poseIndex (g : Geo) (j : Nat) : Nat :=
  -- result extents: outer, r0, r1
  let b := g.r0
  let a := g.r1
  let o := j / (b * a)
  let r := j % (b * a)
  o * (a * b) + (r % a) * b + r / a

/-- Escapes of a list of codes, numbered: rank of each index that is an escape. -/
def escRanks (esc : Nat) : List (Option Nat) → Nat → List (Option Nat)
  | [], _ => []
  | c :: cs, k => if c = some esc then some k :: escRanks esc cs (k + 1) else none :: escRanks esc cs k

/-- The outlier list of a transposed tile: its entries, by result rank (R271). `pairs` holds result index and source rank of
each escape in result order. Source entries at or above the number of escapes are copied with all their bits. -/
def poseOutliers (ocnt : Nat) (data : TileData) (pairs : List (Nat × Nat)) : List (BitVec 64) :=
  let kept := (pairs.zipIdx.filter fun p => decide (p.1.2 < ocnt)).map fun p => p.2 + 1
  let n := kept.foldl max ocnt
  (List.range n).map fun k =>
    match pairs[k]? with
    | some (j, s) => outlierEntry j (if s < ocnt then (outlier data s).2 else 0)
    | none => data.extractLsb' (8 * (8184 - 8 * k)) 64

/-- The end of the typing rule of `xpose`: source and result with every extent resolved. -/
def xposeTyping (ta td : Nat) (t new : TypeWord) : TyM (Geo × Geo) :=
  atDest (tileOpnd 3 td) do
    let g ← geoOfSource (tileOpnd 0 ta) t
    let gn ← checkResult td new
    pure (g, gn)

/-- `xpose`. -/
def xposeOp (h : Hdr) (o : XF) : SlotOp :=
  mkOp (.xpose h o) h fun x => do
    let (ty, data) ← x.xTile o.ta
    let td := o.td.toNat
    let oa := tileOpnd 0 o.ta.toNat
    x.typing (atDest (tileOpnd 3 td) (checkWord oa ty))
    x.typing (needCond (decide (1 ≤ tyRank ty)) oa 4 (tyRank ty))
    if o.td = o.ta ∧ tyLayout ty ≤ 1 ∧ tyDens ty = 0 then
      let new := setLayout (swapExts ty) (1 - tyLayout ty)
      let _ ← x.typing (xposeTyping o.ta.toNat td ty new)
      x.land 0 (.ty td new)
    else
      x.typing (needField oa 7 0 (tySgeo ty))
      x.typing (needField oa 9 0 (tyDens ty))
      let new := swapExts ty
      let (g, gn) ← x.typing (xposeTyping o.ta.toNat td ty new)
      if tyFmt ty = 12 then
        x.wT td (Config.codebookTranspose data ty &&& BitVec.ofNat 65536 (2 ^ (8 * gn.storage) - 1)) new 6
      else
        let codes := (g.codes data).toArray
        let src := (List.range g.count).map (poseIndex g)
        let res := gn.build (src.map fun i => codes[i]?.getD none).toArray
        if tyEsc ty then
          let ranks := (escRanks (escCode g.fmt) (g.codes data) 0).toArray
          let pairs := src.zipIdx.filterMap fun p => (ranks[p.1]?.getD none).map fun r => (p.2, r)
          let outs := poseOutliers (tyOcnt ty) data pairs
          if 64 < outs.length then x.fail 0x0A 0 (word outs.length) 0
          let tail := outs.zipIdx.foldl (fun (acc : TileData) p => acc ||| entryBits p.2 p.1) 0
          x.wT td (res ||| tail) (setOcnt new outs.length) 6
        else x.wT td res new 6

/-! ### `xcvt` (R272, R273) -/

/-- The parameter of `xcvt` is legal. -/
def xcvtOk (p : Word) : Bool := p &&& ~~~(0x331F : Word) == 0 && decide (1 ≤ fld p 4 0) && decide (fld p 4 0 ≤ 11)

/-- The typing rule of `xcvt`. -/
def xcvtTyping (ta td : Nat) (p : Word) (t : TypeWord) : TyM (Geo × Geo × TypeWord) :=
  atDest (tileOpnd 3 td) do
    let f := fld p 4 0
    let esc := bit p 12
    let keep := bit p 13
    let oa := tileOpnd 0 ta
    let od := tileOpnd 3 td
    checkWord oa t
    needCond (!esc || fmtEsc f) od 8 1
    if keep then
      needCond (fmtScale (tyFmt t)) oa 7 (tySgeo t)
      needCond (fmtScale f) od 7 (tySgeo t)
      needField oa 8 0 (b2n (tyEsc t))
    needCond (tyDens t == 0 || fmtSparse f) oa 9 (tyDens t)
    let new := mkTy (tyRank t) f (tyLayout t) (if keep then tySgeo t else 0) (keep && tySidx t) esc 0 (tyDens t) (tySeed t) (t.extractLsb' 0 64)
    let g ← geoOfSource oa t
    let gn ← checkResult td new
    pure (g, gn, new)

/-- `xcvt`. -/
def xcvtOp (h : Hdr) (o : XF) : SlotOp :=
  mkOp (.xcvt h o) h fun x => do
    let (ty, data) ← x.xTile o.ta
    let p ← x.xParam o
    x.need (xcvtOk p) p 0
    let (g, gn, new) ← x.typing (xcvtTyping o.ta.toNat o.td.toNat p ty)
    -- under KEEP the division by the scale gives back the decoded value
    let g' := if bit p 13 then { g with sgeo := 0 } else g
    let vals := (tileSource g' data { base := x.c.e.sba, st := x.c.e.st } x.c.e.cbt0).values.toList
    let codes := vals.map fun v => v.map (toCode gn.fmt gn.esc (rmode (fld p 9 8)))
    let flags := codes.foldl (fun (a : Flags) c => match c with | some y => a ||| y.2 | none => a) 0
    let res := gn.build (codes.map fun c => c.map (·.1)).toArray
    x.wT o.td.toNat (res ||| copyIdx g gn data) new 6 flags

/-! ### `xquant` (R274, R275) -/

/-- The parameter of `xquant` is legal. -/
def xquantOk (p : Word) : Bool :=
  let f := fld p 4 0
  let sg := fld p 6 5
  let mode := fld p 11 10
  let parm := fld p 63 32
  [5, 6, 7, 10, 11].contains f && (sg == 1 || sg == 2) && !bit p 7 && fld p 31 12 == 0 &&
  match mode with
  | 0 => parm == 0
  | 1 => decide (parm < 0x7F800000)
  | 2 => decide (1 ≤ parm) && decide (parm ≤ blockLen sg)
  | _ => false

/-- Largest finite value of the quantised formats (R275). -/
def fmaxOf (fmt : Nat) : Nat := match fmt with | 7 => 6 | 5 => 448 | 6 => 57344 | 10 => 127 | _ => 7

/-- Magnitude order of exact values that are no NaN. -/
def magLt (a b : Num) : Bool :=
  match a, b with
  | .fin _ m e, .fin _ n g => decide (m * 2 ^ (e - min e g).toNat < n * 2 ^ (g - min e g).toNat)
  | .fin _ _ _, .inf _ => true
  | _, _ => false

/-- Inserts by falling magnitude, ties keeping the earlier index first. -/
def insertMag (x : Nat × Num) : List (Nat × Num) → List (Nat × Num)
  | [] => [x]
  | y :: r => if magLt y.2 x.2 || (!magLt x.2 y.2 && decide (x.1 < y.1)) then x :: y :: r else y :: insertMag x r

/-- The `n` elements of largest magnitude, ties to the lower position (R275). -/
def topMag (n : Nat) (l : List (Nat × Num)) : List (Nat × Num) := (l.foldr insertMag []).take n

/-- Block number of an element. -/
def Geo.blockOf (g : Geo) (i : Nat) : Nat :=
  let p := g.place i
  p.1 * (g.lineLen / blockLen g.sgeo) + p.2 / blockLen g.sgeo

/-- Candidates for election (R275): index and value. -/
def candidates (g : Geo) (p : Word) (vals : List (Nat × Num)) : List (Nat × Num) :=
  let real := vals.filter fun v => !v.2.isNan
  match fld p 11 10 with
  | 1 => real.filter fun v => magLt (fp32.decode (fld p 63 32)) v.2
  | 2 => (List.range g.blocks).flatMap fun b => topMag (fld p 63 32) (real.filter fun v => g.blockOf v.1 == b)
  | _ => []

/-- Scale index of a block (R275): the smallest scale that reaches amax ÷ Fmax, else the largest; ties to the least index. -/
def scaleIndex (z : Scales) (fmt : Nat) (amax : Num) : Nat :=
  let fm := Num.ofInt (fmaxOf fmt)
  let ok := (List.range 16).filter fun i => !magLt ((z.get i).mul fm) amax
  match ok with
  | i :: is => is.foldl (fun b k => if magLt (z.get k) (z.get b) then k else b) i
  | [] => (List.range 16).foldl (fun b k => if magLt (z.get b) (z.get k) then k else b) 0

/-- The typing rule of `xquant`: geometries and the result type without OCNT. -/
def xquantTyping (ta td : Nat) (p : Word) (t : TypeWord) : TyM (Geo × Geo × TypeWord) :=
  atDest (tileOpnd 3 td) do
    let oa := tileOpnd 0 ta
    checkWord oa t
    needCond ([2, 3, 4].contains (tyFmt t)) oa 5 (tyFmt t)
    needField oa 7 0 (tySgeo t)
    needField oa 8 0 (b2n (tyEsc t))
    needField oa 9 0 (tyDens t)
    let new := mkTy (tyRank t) (fld p 4 0) (tyLayout t) (fld p 6 5) true (fld p 11 10 != 0) 0 0 0 (t.extractLsb' 0 64)
    let g ← geoOfSource oa t
    let gn ← checkResult td new
    pure (g, gn, new)

/-- The quantised tile: data and flags. -/
def quantise (gn : Geo) (p : Word) (z : Scales) (vals cand : List (Nat × Num)) : TileData × Flags :=
  let m := rmode (fld p 9 8)
  let isCand (i : Nat) : Bool := cand.any fun c => c.1 == i
  let amax : Array Num := ((List.range gn.blocks).map fun b =>
    (vals.filter fun v => gn.blockOf v.1 == b && !v.2.isNan && !isCand v.1).foldl
      (fun a v => if magLt a v.2 then v.2.abs else a) (.fin false 0 0)).toArray
  let idx := amax.map (scaleIndex z gn.fmt)
  let codes := vals.map fun v =>
    if isCand v.1 then (escCode gn.fmt, (0 : Flags))
    else
      let q := v.2.div (z.get (idx[gn.blockOf v.1]?.getD 0))
      toCode gn.fmt gn.esc m q.1
  let outs := (vals.filter fun v => isCand v.1).map fun v =>
    let r := fp32.round .rne v.2
    (v.1, BitVec.ofNat 32 r.1, r.2)
  let data := gn.build (codes.map fun c => some c.1).toArray
  let si := idx.toList.zipIdx.foldl (fun (acc : Nat) q => acc ||| (q.1 <<< (8 * gn.idxOff + 4 * q.2))) 0
  let tail := outs.zipIdx.foldl (fun (acc : TileData) q => acc ||| outlierBits q.2 q.1.1 q.1.2.1) 0
  (data ||| BitVec.ofNat 65536 si ||| tail,
    (codes.foldl (fun a c => a ||| c.2) 0) ||| (outs.foldl (fun a q => a ||| q.2.2) 0))

/-- `xquant` and `xquant.sat`. -/
def quantOp (i : Instr) (h : Hdr) (o : XF) (sat : Bool) : SlotOp :=
  mkOp i h fun x => do
    let (ty, data) ← x.xTile o.ta
    let p ← x.xParam o
    x.need (xquantOk p) p 0
    let (g, gn, new) ← x.typing (xquantTyping o.ta.toNat o.td.toNat p ty)
    let z : Scales := { base := x.c.e.sba, st := x.c.e.st }
    let vals := ((tileSource g data z x.c.e.cbt0).values.toList.zipIdx).filterMap fun v => v.1.map fun n => (v.2, n)
    let cand := candidates gn p vals
    let clip := decide (64 < cand.length)
    if clip && !sat then x.fail 0x0A 0 (word cand.length) 0
    let cand := if clip then topMag 64 cand else cand
    let r := quantise gn p z vals cand
    x.wT o.td.toNat r.1 (setOcnt new cand.length) 10 r.2 clip

/-- `xquant`. -/
def xquantOp (h : Hdr) (o : XF) : SlotOp := quantOp (.xquant h o) h o false
/-- `xquant.sat`. -/
def xquantSatOp (h : Hdr) (o : XF) : SlotOp := quantOp (.xquantSat h o) h o true

/-! ### `xexp`, `xresh`, `xcast` (R276, R277) -/

/-- `xexp`. -/
def xexpOp (h : Hdr) (o : XF) : SlotOp :=
  mkOp (.xexp h o) h fun x => do
    let (ty, data) ← x.xTile o.ta
    let (g, gn, new) ← x.typing (atDest (tileOpnd 3 o.td.toNat) do
      let g ← xSource o.ta.toNat ty
      let new := putBits ty 86 19 0
      let gn ← checkDerived (tileOpnd 3 o.td.toNat) new
      pure (g, gn, new))
    let codes := (g.codes data).map fun c => some (c.getD 0)
    let res := gn.build codes.toArray
    x.wT o.td.toNat (res ||| copyIdx g gn data ||| copyTail data (tyOcnt ty)) new 6

/-- The new type word of `xresh`: extents from the parameter, rank from the last extent that is not the constant 1. -/
def reshWord (p : Word) (t : TypeWord) : TypeWord :=
  let e (k : Nat) : BitVec 16 := p.extractLsb' (16 * k) 16
  let last := (List.range 4).foldl (fun m k => if e k = 1 then m else k) 0
  putBits (putBits t 125 2 last) 0 64 p.toNat

/-- The checks of `xresh` (R57, R277). Where source and result both name unbound variables the result is reported (log entry 56). -/
def xreshTyping (t0 : Nat) (p : Word) (t : TypeWord) : TyM TypeWord :=
  atDest (tileOpnd 3 t0) do
    let oa := tileOpnd 0 t0
    let od := tileOpnd 3 t0
    checkWord oa t
    let new := reshWord p t
    let bad := (List.range 4).any fun k =>
      let e := tyExt new k
      if bit e 15 then fld e 14 4 != 0 else fld e 14 12 != 0 || fld e 11 0 == 0
    if bad then throw (formFault od new)
    let en ← resolved od new
    let ea ← resolved oa t
    let prod (l : List Nat) : Nat := l.foldl (· * ·) 1
    if prod ea ≠ prod en then throw (shape od 0 1 (word (prod ea)) (word (prod en)))
    needField oa 6 0 (tyLayout t)
    if tyDens t ≠ 0 then throw (shape oa 0 6 0 (word (tyDens t)))
    let c (l : List Nat) (w : TypeWord) : Nat := l[tyRank w]?.getD 1
    if tySgeo t ≠ 0 ∧ c ea t ≠ c en new then throw (shape od 0 6 (word (c ea t)) (word (c en new)))
    let _ ← checkDerived od new
    pure new

/-- `xresh`. -/
def xreshOp (h : Hdr) (o : XF) : SlotOp :=
  mkOp (.xresh h o) h fun x => do
    let (ty, _) ← x.xTile o.ta
    let p ← x.xParam o
    x.need (o.td == o.ta) 0 0
    let new ← x.typing (xreshTyping o.td.toNat p ty)
    x.land 0 (.ty o.td.toNat new)

/-- The checks of `xcast` (R57, R277). -/
def xcastTyping (t0 : Nat) (p : Word) (t : TypeWord) : TyM TypeWord :=
  atDest (tileOpnd 3 t0) do
    let od := tileOpnd 3 t0
    checkWord (tileOpnd 0 t0) t
    let new := setFmt t (fld p 4 0)
    if fmtBits (tyFmt t) ≠ fmtBits (fld p 4 0) ∨ tySgeo t ≠ 0 ∨ tyEsc t ∨ tyDens t ≠ 0 then throw (formFault od new)
    let _ ← resolved (tileOpnd 0 t0) t
    let _ ← checkDerived od new
    pure new

/-- `xcast`. -/
def xcastOp (h : Hdr) (o : XF) : SlotOp :=
  mkOp (.xcast h o) h fun x => do
    let (ty, _) ← x.xTile o.ta
    let p ← x.xParam o
    x.need (o.td == o.ta) 0 0
    x.need (decide (p.toNat < 32) && decide (1 ≤ fld p 4 0) && decide (fld p 4 0 ≤ 12)) 0 0
    let new ← x.typing (xcastTyping o.td.toNat p ty)
    x.land 0 (.ty o.td.toNat new)

/-! ### `xadd`, `xmov`, `xch` (R278 to R280) -/

/-- One element of `xadd`. -/
def addCode (fmt a b : Nat) : Nat × Flags :=
  match ffmtOf fmt with
  | some f => f.round .rne (exactSum .rne [f.decode a, f.decode b])
  | none => ((a + b) % 2 ^ fmtBits fmt, 0)

/-- The typing rule of `xadd`. -/
def xaddTyping (ta td : Nat) (a b : TypeWord) : TyM Geo :=
  atDest (tileOpnd 3 td) do
    let oa := tileOpnd 0 ta
    let ob := tileOpnd 1 td
    checkWord oa a
    checkWord ob b
    unifyAll oa a ob b
    needCond ([1, 2, 3, 4, 8].contains (tyFmt a)) oa 5 (tyFmt a)
    needField oa 7 0 (tySgeo a)
    needField oa 8 0 (b2n (tyEsc a))
    needField oa 9 0 (tyDens a)
    let _ ← geoOfSource oa a
    checkDerived (tileOpnd 3 td) a

/-- `xadd`. -/
def xaddOp (h : Hdr) (o : XF) : SlotOp :=
  mkOp (.xadd h o) h fun x => do
    let (ty, data) ← x.xTile o.ta
    let (tb, db) ← x.xTile o.td
    let g ← x.typing (xaddTyping o.ta.toNat o.td.toNat ty tb)
    let codes := ((g.codes data).zip (g.codes db)).map fun p => addCode g.fmt (p.1.getD 0) (p.2.getD 0)
    let flags := codes.foldl (fun (a : Flags) c => a ||| c.2) 0
    x.wT o.td.toNat (g.build (codes.map fun c => some c.1).toArray) ty 6 flags

/-- `xmov`. -/
def xmovOp (h : Hdr) (o : XF) : SlotOp :=
  mkOp (.xmov h o) h fun x => do
    let (ty, data) ← x.xTile o.ta
    x.wT o.td.toNat data ty 6

/-- A type word with its bound extents made constant (R61, R280), or the extent that cannot be carried. -/
def constExts (d : Dims) (t : TypeWord) : Except (Nat × Word × Word) TypeWord :=
  match (List.range 4).find? fun k =>
      match extVal d (tyExt t k) with | some v => decide (4095 < v) | none => true with
  | some k =>
    match extVal d (tyExt t k) with
    | some v => .error (k, 4095, word v)
    | none => .error (k, extMark d (tyExt t k), extMark d (tyExt t k))
  | none => .ok ((List.range 4).foldl (fun w k => putBits w (16 * k) 16 ((extVal d (tyExt t k)).getD 1)) t)

/-- `xch`: the half is supplied and the partner's half taken when the bundle comes to issue. A partner lost before it supplied
its half is the last of its causes (R326; log entry 55). -/
def xchOp (h : Hdr) (o : XF) : SlotOp :=
  mkOp (.xch h o) h fun x => do
    let (ty, data) ← x.xTile o.ta
    x.need x.lh.pairLevel.isSome 0 0
    match constExts (← get).dims ty with
    | .error e => x.fail 0x03 (typeSynd (tileOpnd 0 o.ta.toNat) e.1 2) e.2.1 e.2.2
    | .ok own =>
      x.land 40 (.t o.td.toNat 0 0) (xch := true)
      if x.s.partnerLost x.i x.c.e.xnum then x.fail 0x0F 0 (word x.c.e.xnum) (x.s.partnerCause x.i)
      modify fun b => { b with pair := some { ta := o.ta.toNat, td := o.td.toNat, data := data, ty := own } }

/-! ### Meanings of single operations: a bundle that holds the operation and nothing else -/

/-- Meaning of XPOSE. -/
def execXpose (h : Hdr) (o : XF) (s : State) : Host.Outcome State Fault Refusal := issueOne (xposeOp h o) s
/-- Meaning of XCVT. -/
def execXcvt (h : Hdr) (o : XF) (s : State) : Host.Outcome State Fault Refusal := issueOne (xcvtOp h o) s
/-- Meaning of XQUANT. -/
def execXquant (h : Hdr) (o : XF) (s : State) : Host.Outcome State Fault Refusal := issueOne (xquantOp h o) s
/-- Meaning of XQUANT_SAT. -/
def execXquantSat (h : Hdr) (o : XF) (s : State) : Host.Outcome State Fault Refusal := issueOne (xquantSatOp h o) s
/-- Meaning of XEXP. -/
def execXexp (h : Hdr) (o : XF) (s : State) : Host.Outcome State Fault Refusal := issueOne (xexpOp h o) s
/-- Meaning of XRESH. -/
def execXresh (h : Hdr) (o : XF) (s : State) : Host.Outcome State Fault Refusal := issueOne (xreshOp h o) s
/-- Meaning of XCAST. -/
def execXcast (h : Hdr) (o : XF) (s : State) : Host.Outcome State Fault Refusal := issueOne (xcastOp h o) s
/-- Meaning of XADD. -/
def execXadd (h : Hdr) (o : XF) (s : State) : Host.Outcome State Fault Refusal := issueOne (xaddOp h o) s
/-- Meaning of XMOV. -/
def execXmov (h : Hdr) (o : XF) (s : State) : Host.Outcome State Fault Refusal := issueOne (xmovOp h o) s
/-- Meaning of XCH. -/
def execXch (h : Hdr) (o : XF) (s : State) : Host.Outcome State Fault Refusal := issueOne (xchOp h o) s

end Sys2Proof.Machine
end

