-- ==== Sys2Proof/Machine/Slots.lean ====
section
/-! DEFINITION. The slot operation that each decoded operation stands for, and the meanings of an empty slot, a lone
branch tree and a reserved encoding. -/

namespace Sys2Proof.Machine

/-- A reserved encoding raises the illegal-operation trap of its slot (R101). -/
def reservedOp (slot : Slot) : SlotOp :=
  { hdr := { slot := slot, guard := 0, tag := 0 }, wf := false, noTree := false, run := fun _ => pure () }

/-- The slot operation of an operation, none for `nop`, the tree, events and commands. -/
def slotOpOf : Instr → Option SlotOp
  | .add h o => some (addOp h o)
  | .sub h o => some (subOp h o)
  | .and h o => some (andOp h o)
  | .or h o => some (orOp h o)
  | .xor h o => some (xorOp h o)
  | .sll h o => some (sllOp h o)
  | .srl h o => some (srlOp h o)
  | .sra h o => some (sraOp h o)
  | .min h o => some (minOp h o)
  | .max h o => some (maxOp h o)
  | .minu h o => some (minuOp h o)
  | .maxu h o => some (maxuOp h o)
  | .shadd h o => some (shaddOp h o)
  | .clz h o => some (clzOp h o)
  | .ctz h o => some (ctzOp h o)
  | .popc h o => some (popcOp h o)
  | .bext h o => some (bextOp h o)
  | .bins h o => some (binsOp h o)
  | .mul h o => some (mulOp h o)
  | .mulh h o => some (mulhOp h o)
  | .mulhu h o => some (mulhuOp h o)
  | .div h o => some (divOp h o)
  | .divu h o => some (divuOp h o)
  | .rem h o => some (remOp h o)
  | .remu h o => some (remuOp h o)
  | .sel h o => some (selOp h o)
  | .addi h o => some (addiOp h o)
  | .andi h o => some (andiOp h o)
  | .ori h o => some (oriOp h o)
  | .xori h o => some (xoriOp h o)
  | .slli h o => some (slliOp h o)
  | .srli h o => some (srliOp h o)
  | .srai h o => some (sraiOp h o)
  | .li h o => some (liOp h o)
  | .lih h o => some (lihOp h o)
  | .cmp h o => some (cmpOp h o)
  | .cmpi h o => some (cmpiOp h o)
  | .pand h o => some (pandOp h o)
  | .por h o => some (porOp h o)
  | .pxor h o => some (pxorOp h o)
  | .pandn h o => some (pandnOp h o)
  | .ptst h o => some (ptstOp h o)
  | .bli h o => some (bliOp h o)
  | .bmov h o => some (bmovOp h o)
  | .bget h o => some (bgetOp h o)
  | .loop h o => some (loopOp h o)
  | .lbrk h o => some (lbrkOp h o)
  | .lget h o => some (lgetOp h o)
  | .rotcfg h o => some (rotcfgOp h o)
  | .swp h o => some (swpOp h o)
  | .bsel h o => some (bselOp h o)
  | .dbind h o => some (dbindOp h o)
  | .dfree h o => some (dfreeOp h o)
  | .dget h o => some (dgetOp h o)
  | .tyget h o => some (tygetOp h o)
  | .tyset h o => some (tysetOp h o)
  | .csrr h o => some (csrrOp h o)
  | .csrw h o => some (csrwOp h o)
  | .csrs h o => some (csrsOp h o)
  | .csrc h o => some (csrcOp h o)
  | .trap h o => some (trapOp h o)
  | .tret h o => some (tretOp h o)
  | .exit h o => some (exitOp h o)
  | .wait h o => some (waitOp h o)
  | .bar h o => some (barOp h o)
  | .vfadd h o => some (vfaddOp h o)
  | .vfsub h o => some (vfsubOp h o)
  | .vfmul h o => some (vfmulOp h o)
  | .vffma h o => some (vffmaOp h o)
  | .vffms h o => some (vffmsOp h o)
  | .vfmin h o => some (vfminOp h o)
  | .vfmax h o => some (vfmaxOp h o)
  | .vfabs h o => some (vfabsOp h o)
  | .vfneg h o => some (vfnegOp h o)
  | .vfdiv h o => some (vfdivOp h o)
  | .vfsqrt h o => some (vfsqrtOp h o)
  | .vfexp2 h o => some (vfexp2Op h o)
  | .vflog2 h o => some (vflog2Op h o)
  | .vfrcp h o => some (vfrcpOp h o)
  | .vfrsq h o => some (vfrsqOp h o)
  | .vadd h o => some (vaddOp h o)
  | .vsub h o => some (vsubOp h o)
  | .vmul h o => some (vmulOp h o)
  | .vmulh h o => some (vmulhOp h o)
  | .vand h o => some (vandOp h o)
  | .vor h o => some (vorOp h o)
  | .vxor h o => some (vxorOp h o)
  | .vandn h o => some (vandnOp h o)
  | .vsll h o => some (vsllOp h o)
  | .vsrl h o => some (vsrlOp h o)
  | .vsra h o => some (vsraOp h o)
  | .vmin h o => some (vminOp h o)
  | .vmax h o => some (vmaxOp h o)
  | .vabs h o => some (vabsOp h o)
  | .vcvt h o => some (vcvtOp h o)
  | .vmerge h o => some (vmergeOp h o)
  | .vfcmp h o => some (vfcmpOp h o)
  | .vcmp h o => some (vcmpOp h o)
  | .vperm h o => some (vpermOp h o)
  | .vslide h o => some (vslideOp h o)
  | .vbcast h o => some (vbcastOp h o)
  | .vlane h o => some (vlaneOp h o)
  | .vmovs h o => some (vmovsOp h o)
  | .vmovsIns h o => some (vmovsInsOp h o)
  | .vfred h o => some (vfredOp h o)
  | .vred h o => some (vredOp h o)
  | .vfscan h o => some (vfscanOp h o)
  | .vscan h o => some (vscanOp h o)
  | .mand h o => some (mandOp h o)
  | .mor h o => some (morOp h o)
  | .mxor h o => some (mxorOp h o)
  | .mandn h o => some (mandnOp h o)
  | .mpop h o => some (mpopOp h o)
  | .vtrow h o => some (vtrowOp h o)
  | .vtwr h o => some (vtwrOp h o)
  | .vld h o => some (vldOp h o)
  | .vst h o => some (vstOp h o)
  | .vgat h o => some (vgatOp h o)
  | .vsca h o => some (vscaOp h o)
  | .vatom h o => some (vatomOp h o)
  | .fpush h o => some (fpushOp h o)
  | .fpop h o => some (fpopOp h o)
  | .ypush h o => some (ypushOp h o)
  | .tmma h o => some (tmmaOp h o)
  | .tmmas h o => some (tmmasOp h o)
  | .tmmac h o => some (tmmacOp h o)
  | .tzero h o => some (tzeroOp h o)
  | .xpose h o => some (xposeOp h o)
  | .xcvt h o => some (xcvtOp h o)
  | .xquant h o => some (xquantOp h o)
  | .xquantSat h o => some (xquantSatOp h o)
  | .xexp h o => some (xexpOp h o)
  | .xresh h o => some (xreshOp h o)
  | .xcast h o => some (xcastOp h o)
  | .xadd h o => some (xaddOp h o)
  | .xmov h o => some (xmovOp h o)
  | .xch h o => some (xchOp h o)
  | .kscl h o => some (ksclOp h o)
  | .kcode h o => some (kcodeOp h o)
  | .kgrant h o => some (kgrantOp h o)
  | .kpad h o => some (kpadOp h o)
  | .kmode h o => some (kmodeOp h o)
  | .ld h o => some (ldOp h o)
  | .ldW h o => some (ldWOp h o)
  | .ldH h o => some (ldHOp h o)
  | .ldB h o => some (ldBOp h o)
  | .st h o => some (stOp h o)
  | .stW h o => some (stWOp h o)
  | .stH h o => some (stHOp h o)
  | .stB h o => some (stBOp h o)
  | .vldm h o => some (vldmOp h o)
  | .vstm h o => some (vstmOp h o)
  | .tld h o => some (tldOp h o)
  | .tst h o => some (tstOp h o)
  | .amo h o => some (amoOp h o)
  | .cas h o => some (casOp h o)
  | .acq h o => some (acqOp h o)
  | .rel h o => some (relOp h o)
  | .xfence h o => some (xfenceOp h o)
  | .fence h o => some (fenceOp h o)
  | .waitge h o => some (waitgeOp h o)
  | .copy h o => some (copyOp h o)
  | .copy2d h o => some (copy2dOp h o)
  | .copywLd h o => some (copywLdOp h o)
  | .copywSt h o => some (copywStOp h o)
  | .gath h o => some (gathOp h o)
  | .scat h o => some (scatOp h o)
  | .cexp h o => some (cexpOp h o)
  | .cred h o => some (credOp h o)
  | .put h o => some (putOp h o)
  | .get h o => some (getOp h o)
  | .ssend h o => some (ssendOp h o)
  | .cadd h o => some (caddOp h o)
  | .reservedOpcode slot _ => some (reservedOp slot)
  | _ => none

/-- Meaning of NOP (R86): an empty bundle issues. -/
def execNop (_slot : Slot) (s : State) : Host.Outcome State Fault Refusal := issueBundle s.plainHead [] s
/-- Meaning of BRANCH_TREE (R88): a bundle that holds the tree and nothing else. -/
def execBranchTree (drain : Bool) (tests : List Test) (s : State) : Host.Outcome State Fault Refusal :=
  issueBundle { s.plainHead with drain := drain, tests := tests } [] s
/-- Meaning of RESERVED_OPCODE (R101). -/
def execReservedOpcode (slot : Slot) (_raw : BitVec 56) (s : State) : Host.Outcome State Fault Refusal := issueOne (reservedOp slot) s
/-- Meaning of ILLEGAL_CODE (R101, R102): the code at the position is illegal. SYND0 holds it, 0 beyond the stream. -/
def execIllegalCode (s : State) : Host.Outcome State Fault Refusal :=
  issueBundle { s.plainHead with code := some (((s.core s.cur).stream[(s.core s.cur).pos]?.map BitVec.toNat).getD 0) } [] s

/-- What the sequencer of a core finds at its position (R101, R102). -/
def Core.fetch (c : Core) : Fetched := fetchCode c.dict c.stream c.pos

/-- The bundle at a core's position, with its slot operations: an illegal code has none (R101). -/
def Core.fetched (c : Core) : Head × List SlotOp :=
  match c.fetch with
  | .illegal code => ({ code := some code, bad := false, drain := false, tests := [], fall := c.pos + 1 }, [])
  | .bundle b next =>
    ({ code := none, bad := b.bad, drain := b.drain, tests := b.tests, fall := next }, b.ops.filterMap slotOpOf)

end Sys2Proof.Machine
end

