-- ==== Sys2Proof/Machine/CoreEvents.lean ====
section
/-! DEFINITION. What happens to a core besides issuing: landings (R22, R165), ends of stalls, asynchronous traps (R308, R312), page
and spill service (R193, R313), hard faults (R324), the watchdog (R321), pair events (R281, R326), saves and resumes (R33,
R318 to R320). -/

namespace Sys2Proof.Machine

/-- An event that happens where its condition holds. -/
def when (name : String) (ok : Bool) (t : State) : Host.Outcome State Fault Refusal :=
  if ok then .next t else .refused (.notEnabled name)

/-! ### Landings and stalls -/

/-- A result that is not a V1 commit is due to land, or a V1 commit is, as `commit` says. -/
def Core.hasDue (c : Core) (commit : Bool) : Bool := c.due.any fun f => f.land.isCommit == commit

/-- Meaning of RESULT_LANDING (R22, R317): results due at the core's issue cycle land. -/
def execResultLanding (core : Nat) (s : State) : Host.Outcome State Fault Refusal :=
  when "RESULT_LANDING" (s.powered && decide (core < 256) && (s.core core).canIssue s.pcc && (s.core core).hasDue false)
    (s.landWhere core fun l => !l.isCommit)

/-- Meaning of V1_COMMIT (R165). -/
def execV1Commit (core : Nat) (s : State) : Host.Outcome State Fault Refusal :=
  when "V1_COMMIT" (s.powered && decide (core < 256) && (s.core core).canIssue s.pcc && (s.core core).hasDue true)
    (s.landWhere core Land.isCommit)

/-- A bank-conflict stall has run out (R26). -/
def Core.stallOver (c : Core) (pcc : Nat) : Bool := match c.stallEnd with | some t => decide (t ≤ pcc) | none => false

/-- Meaning of SCRATCHPAD_STALL_END (R26). -/
def execScratchpadStallEnd (core : Nat) (s : State) : Host.Outcome State Fault Refusal :=
  when "SCRATCHPAD_STALL_END" (s.powered && decide (core < 256) && (s.core core).stallOver s.pcc)
    (s.modCore core fun c => { c with stallEnd := none })

/-! ### Traps -/

/-- An asynchronous cause is to be taken before the bundle that comes to issue (R308). -/
def Core.asyncDue (c : Core) (pcc : Nat) : Bool := c.canIssue pcc && c.bubbles == 0 && c.nextAsync.isSome

/-- Meaning of ASYNC_TRAP (R308, R312). -/
def execAsyncTrap (core : Nat) (s : State) : Host.Outcome State Fault Refusal :=
  match (s.core core).nextAsync with
  | some a =>
    when "ASYNC_TRAP" (s.powered && decide (core < 256) && (s.core core).asyncDue s.pcc)
      (((s.landDue core).modCore core fun c => { c with asyncs := c.asyncs.erase a }).takeTrap core a.cause)
  | none => .refused (.notEnabled "ASYNC_TRAP")

/-- The page fault of Ridge or Comb that an access waits for. -/
def State.askOf (s : State) (w : Asker) : Option Ask := s.asks.find? fun a => a.who == w

/-- An access of Ridge or Comb meets a page fault, which the control node is to service (R193). -/
def State.ask (s : State) (w : Asker) : State := { s with asks := s.asks ++ [{ who := w, failed := false }] }

/-- The access waits no longer. -/
def State.unask (s : State) (w : Asker) : State := { s with asks := s.asks.filter fun a => a.who != w }

/-- Service of the oldest page fault of Ridge or Comb ends: its access is made again, or finds that service has failed. -/
def State.serveAsk (s : State) (ok : Bool) : Option State :=
  (s.asks.find? fun a => !a.failed).map fun a =>
    if ok then s.unask a.who else { s with asks := s.asks.map fun b => if b = a then { b with failed := true } else b }

/-- The agent number of Ridge (R333). -/
def ridgeAgent : Nat := 260

/-- Meaning of PAGE_FAULT_SERVICE (R193, R313): after a good service the bundle issues again, or is saved where a
pre-emption request waits (R330); a failed one goes to containment. Ridge's number stands for a fault of Ridge or Comb. -/
def execPageFaultService (core : Nat) (ok : Bool) (s : State) : Host.Outcome State Fault Refusal :=
  let c := s.core core
  let s0 := s.modCore core fun c => { c with serving := none, wake := s.pcc + 1 }
  if core = ridgeAgent then
    match s.serveAsk ok with
    | some t => when "PAGE_FAULT_SERVICE" s.powered t
    | none => .refused (.notEnabled "PAGE_FAULT_SERVICE")
  else when "PAGE_FAULT_SERVICE" (s.powered && decide (core < 256) && c.phase == .service)
    (if ok then
      s0.modCore core fun c => if c.preempt.isSome then { c.reissue.beginSave with reland := true } else c.reissue
     else match c.serving with
      | some k => (s0.modCore core fun c => { c with phase := .run }).contain core k
      | none => s0)

/-- The kinds of R375 that belong to a core. -/
def coreKind (kind : Nat) : Bool := (decide (1 ≤ kind) && decide (kind ≤ 0x0F)) || kind == 0x14

/-- Meaning of CORE_HARD_FAULT (R324, R327): the physical core is retired; its instance takes the fault before its next
bundle. -/
def execCoreHardFault (core kind idx : Nat) (s : State) : Host.Outcome State Fault Refusal :=
  let c := s.core core
  let s' := s.modCore core fun c => { c with spareDue := true }
  when "CORE_HARD_FAULT" (s.powered && decide (core < 256) && coreKind kind && decide (idx < 256) && !c.spareDue && !c.unplaceable)
    (match c.inst with
     | some inst => s'.postAsync inst.uid (bundleCause 0x15 ((unitCode core idx kind).setWidth 64) 0 0)
     | none => s')

/-- The watchdog limit of a core's partition as a power of two (R321). -/
def State.watchLog (s : State) (c : Core) : Nat :=
  match c.inst with
  | some x => match s.part x.part with | some p => p.wlog | none => 32
  | none => 32

/-- The hold has passed the watchdog limit. -/
def State.watchDue (s : State) (i : Nat) : Bool :=
  (s.core i).phase == .run && decide (2 ^ s.watchLog (s.core i) < (s.core i).heldFor s.pcc)

/-- Meaning of WATCHDOG (R321). -/
def execWatchdog (core : Nat) (s : State) : Host.Outcome State Fault Refusal :=
  when "WATCHDOG" (s.powered && decide (core < 256) && s.watchDue core)
    (s.takeTrap core (bundleCause 0x16 0 (word ((s.core core).heldFor s.pcc)) 0))

/-! ### Pairs (R280, R281, R326) -/

/-- The core is in a pair stall. -/
def Core.pairStalled (c : Core) : Bool := c.phase == .run && match c.stall with | some (.pair, _) => true | _ => false

/-- The half that releases a pair stall is present. -/
def State.halfHere (s : State) (i : Nat) : Bool := (s.core i).pairStalled && (s.partnerHalf i (s.core i).e.xnum).isSome

/-- Meaning of XCH_HALF_ARRIVAL (R280): the stalled bundle issues in the cycle its partner's half arrives. -/
def execXchHalfArrival (core : Nat) (s : State) : Host.Outcome State Fault Refusal :=
  when "XCH_HALF_ARRIVAL" (s.powered && decide (core < 256) && s.halfHere core)
    (s.modCore core fun c => if s.pcc < c.wake then { c with wake := s.pcc, stalls := c.stalls - 1 } else c)

/-- A pair stall has lasted 2^PTO PCC cycles (R326 item 2). -/
def State.pairLate (s : State) (i : Nat) : Bool :=
  let c := s.core i
  match c.stall, c.inst with
  | some (.pair, t), some x => c.phase == .run && decide (t + 2 ^ x.lh.pto ≤ s.pcc) && !s.halfHere i
  | _, _ => false

/-- Meaning of PAIR_TIMEOUT (R281, R326). -/
def execPairTimeout (core : Nat) (s : State) : Host.Outcome State Fault Refusal :=
  when "PAIR_TIMEOUT" (s.powered && decide (core < 256) && s.pairLate core)
    (s.takeTrap core (slotCause 0x0E .X 0 (word (s.core core).e.xnum) 0))

/-- The partner left before it supplied the half a stalled member waits for (R326 item 3). -/
def State.partnerGone (s : State) (i : Nat) : Bool := (s.core i).pairStalled && s.partnerLost i (s.core i).e.xnum

/-- Meaning of PARTNER_FAULT (R326). -/
def execPartnerFault (core : Nat) (s : State) : Host.Outcome State Fault Refusal :=
  when "PARTNER_FAULT" (s.powered && decide (core < 256) && s.partnerGone core)
    (s.takeTrap core (slotCause 0x0F .X 0 (word (s.core core).e.xnum) (s.partnerCause core)))

/-! ### Pre-emption, saves and resumes -/

/-- A pre-emption request reaches one core (R33); one that reaches a saved instance on its way back is honoured once it runs. -/
def Core.request (c : Core) : Core :=
  match c.phase, c.preempt with
  | .run, none | .service, none | .resuming, none => { c with preempt := some c.cycle }
  | _, _ => c

/-- The partner core of a paired instance on core i. -/
def State.partnerCore (s : State) (i : Nat) : Option Nat :=
  match (s.core i).inst with
  | some inst =>
    let p := partnerOf i
    if inst.lh.pairLevel.isSome && (s.core p).runs inst.graph inst.node && (s.core p).idx == partnerIdx inst.idx then some p else none
  | none => none

/-- A request for a member of a pair goes to both (R326 item 1). -/
def State.requestSave (s : State) (i : Nat) : State :=
  let t := s.modCore i Core.request
  match s.partnerCore i with | some p => t.modCore p Core.request | none => t

/-- Meaning of PREEMPT_REQUEST (R33). -/
def execPreemptRequest (core : Nat) (s : State) : Host.Outcome State Fault Refusal :=
  let c := s.core core
  when "PREEMPT_REQUEST" (s.powered && decide (core < 256) && c.inst.isSome && c.preempt.isNone && (c.phase == .run || c.phase == .service || c.phase == .resuming))
    (s.requestSave core)

/-- No drain point has come within 65,536 issue cycles, and a bundle comes to issue (R33). -/
def Core.forcedDue (c : Core) (pcc : Nat) : Bool :=
  c.canIssue pcc && c.bubbles == 0 && match c.preempt with | some r => decide (65536 ≤ c.cycle - r) | none => false

/-- Meaning of FORCED_SAVE (R33): the next bundle comes to issue and is saved there, unless it has a cause to trap, which is
taken first (R35, R319). -/
def execForcedSave (core : Nat) (s : State) : Host.Outcome State Fault Refusal :=
  when "FORCED_SAVE" (s.powered && decide (core < 256) && (s.core core).forcedDue s.pcc && !(s.core core).asyncDue s.pcc)
    (let b := (s.core core).fetched
     (s.landDue core).issueOn core b.1 b.2)

/-- A save may be performed: L, S and T are zero (R319). -/
def Core.saveReady (c : Core) : Bool := c.phase == .saving && c.cnt.l == 0 && c.cnt.s == 0 && c.cnt.t == 0 && c.inst.isSome

/-- The entries of a channel that belong to an instance, on chip first (R243). -/
def Channel.entriesOf (h : Channel) (uid : Nat) : List CopyEntry := (h.queue ++ h.spilled).filter fun e => e.own.uid == uid

/-- A channel without the entries of an instance. -/
def Channel.without (h : Channel) (uid : Nat) : Channel :=
  { h with queue := h.queue.filter (fun e => e.own.uid != uid), spilled := h.spilled.filter fun e => e.own.uid != uid }

/-- What a save keeps of a core (R318), and how long its bundle has been held until now (R321). -/
def Core.saved (c : Core) (pcc : Nat) : Core :=
  let d := c.saveFlights
  { d with
    phase := .saving
    pendS := 0, pendV := 0, pendT := 0
    grant := default, preempt := none, hold := none, stall := none, held := c.heldFor pcc, reland := true
    ch := c.ch.map fun h => { (default : Channel) with queue := h.entriesOf c.uid }
    mem := { (default : CoreMem) with rels := c.mem.rels } }

/-- The save is performed (R318, R319, R210): dirty bytes go to their homes, results in flight to replay registers, the
core is free. -/
def State.saveCore (s : State) (i : Nat) : State :=
  let s := s.flushL1 i
  let c := s.core i
  match c.inst with
  | none => s
  | some inst =>
    let k := clusterOf i
    let v : Saved := { core := c.saved s.pcc, inst := inst, cluster := if (s.cluster k).holdsBanks inst.uid then some k else none, local_ := i % 4 }
    let s := s.modDie (dieOf i) fun d => { d with queue := d.queue.filter fun q => q.core != i }
    let s := s.modCore i fun c => { ({ c with grant := default } : Core).freed with ch := c.ch.map fun h => h.without inst.uid }
    { s with saved := s.saved ++ [v] }.reprio

/-- The level whose group a fault that must kill ends (R318, R322): the first that is not kill-parent. -/
def killLevel (h : Header) : Nat := ((List.range (h.nf + 1)).find? fun l => h.policy l != 3).getD h.nf

/-- Meaning of CONTEXT_SAVE (R318, R319). Where the save area cannot be written the instance is killed (CODE 0x18). -/
def execContextSave (core : Nat) (ok : Bool) (s : State) : Host.Outcome State Fault Refusal :=
  let c := s.core core
  when "CONTEXT_SAVE" (s.powered && decide (core < 256) && c.saveReady)
    (if ok then s.saveCore core
     else match c.inst with
      | some inst => (s.modCore core fun c => c.saveFlights.noteTrap (bundleCause 0x18 (Config.saveArea inst.uid) 0 0)).killGroup inst.graph
          inst.node (killLevel inst.lh) inst.idx
      | none => s)

/-- Started commands of an instance have completed (R243). -/
def State.copiesDone (s : State) (uid : Nat) : Bool := !(s.copies.any fun r => r.e.own.uid == uid)

/-- Meaning of CONTEXT_RESUME (R243, R320): the instance that Ridge has placed goes on with its saved bundle. -/
def execContextResume (core : Nat) (s : State) : Host.Outcome State Fault Refusal :=
  let c := s.core core
  when "CONTEXT_RESUME" (s.powered && decide (core < 256) && c.phase == .resuming && s.copiesDone c.uid)
    (s.modCore core fun c =>
      { c with phase := .run, wake := s.pcc + 1
               cnt := { c.cnt with c := (c.ch.toList.map fun h => (h.entriesOf c.uid).length).foldl (· + ·) 0 } })

end Sys2Proof.Machine
end

