-- ==== Sys2Proof/Machine/Fit.lean ====
section
/-! DEFINITION. Units of a launch and their placements (R300), launches that no placement can hold (R302, R328). -/

namespace Sys2Proof.Machine

/-! ### The unit to place next -/

/-- A unit waiting to be placed: its first instance index, how many indices it spans, the saved instances it resumes, or none
for a unit that starts. -/
structure UnitReq where
  first : Nat
  size  : Nat
  saved : List Saved
  deriving DecidableEq, Repr

/-- Index `i` lies in the unit. -/
def UnitReq.has (u : UnitReq) (i : Nat) : Bool :=
  decide (u.first ≤ i) && decide (i < u.first + u.size) && (u.saved.isEmpty || u.saved.any fun v => v.inst.idx == i)

/-- Some core still runs an instance of the index range. -/
def State.onCores (s : State) (g n lo hi : Nat) : Bool :=
  (List.range 256).any fun k => (s.core k).runs g n && decide (lo ≤ (s.core k).idx) && decide ((s.core k).idx < hi)

/-- Units of saved instances whose members are all off their cores (R303). -/
def State.savedUnits (s : State) (g n : Nat) (l : Launch) : List UnitReq :=
  let u := max 1 l.lh.unitSize
  let mine := s.saved.filter fun v => v.inst.graph == g && v.inst.node == n
  let firsts := ((mine.map fun v => v.inst.idx / u * u).eraseDups).filter fun f => !s.onCores g n f (f + u)
  firsts.map fun f => { first := f, size := u, saved := mine.filter fun v => v.inst.idx / u * u == f }

/-- Units of a launch that wait to be placed, in ascending WID order (R300, R302); of those that have never run, the
first. -/
def State.unitsWaiting (s : State) (g n : Nat) (l : Launch) : List UnitReq :=
  let fresh : List UnitReq := if l.nextUnit < l.total then [{ first := l.nextUnit, size := max 1 l.lh.unitSize, saved := [] }] else []
  let redo : List UnitReq := l.redo.map fun r => { first := r.1, size := r.2, saved := [] }
  sortBy UnitReq.first (s.savedUnits g n l ++ redo ++ fresh)

/-- The unit of a launch to place next. -/
def State.nextUnit (s : State) (g n : Nat) (l : Launch) : Option UnitReq := (s.unitsWaiting g n l).head?

/-- A relaunched group starts only after its old members have left and their started copies are complete (R324, R330). -/
def State.unitClear (s : State) (g n : Nat) (u : UnitReq) : Bool :=
  !u.saved.isEmpty ||
  (!s.onCores g n u.first (u.first + u.size) &&
   !(s.copies.any fun r => r.e.own.graph == g && r.e.own.node == n && u.has r.e.own.idx))

/-- Cores of a partition that R328 has not made unplaceable (R15). -/
def State.placeable (s : State) (part : Nat) : List Nat :=
  match s.part part with
  | some p => (List.range 256).filter fun i => p.clusters.testBit (clusterOf i) && !(s.core i).unplaceable
  | none => []

/-! ### Placements (R300) -/

/-- The region of a placement code that a core lies in (R14). -/
def regionKey (code c : Nat) : Nat := if code = 1 then c / 4 else if code = 2 then c / 8 else if code = 3 then c / 64 else 0

/-- Cuts cores into the regions of a placement code, in ascending order. -/
def splitRegion (code : Nat) (cores : List Nat) : List (List Nat) :=
  ((cores.map (regionKey code)).eraseDups).map fun k => cores.filter fun c => regionKey code c == k

/-- What a placement needs to know of a unit: which indices it holds, the cluster that an index is bound to by its banks (R180),
the clusters of the partition, whether every index is present. -/
structure Fit where
  has   : Nat → Bool
  bound : Nat → Option Nat
  owns  : Nat → Bool
  whole : Bool

/-- A ganged level, outermost first: group size, placement code, paired. -/
structure GangLevel where
  size : Nat
  code : Nat
  pair : Bool
  deriving DecidableEq, Repr

/-- A placement in the making: instance indices with their cores. -/
abbrev Placed := List (Nat × Nat)

/-- The index has its core, or needs none. -/
def Fit.settled (f : Fit) (pl : Placed) (i : Nat) : Bool := !f.has i || pl.any fun p => p.1 == i

/-- The core may take the index. -/
def Fit.can (f : Fit) (cores : List Nat) (pl : Placed) (i c : Nat) : Bool :=
  cores.contains c && !(pl.any fun p => p.2 == c) && (match f.bound i with | some k => clusterOf c == k | none => true)

/-- The placements of a pair: its members on core c of an even cluster and core c + 4, lowest first (R16). -/
def Fit.pairs (f : Fit) (first : Nat) (cores : List Nat) (pl : Placed) : List Placed :=
  if f.settled pl first && f.settled pl (first + 1) then [pl]
  else
    let at_ := ((List.range 32).flatMap fun q => (List.range 4).map fun j => 8 * q + j).filter fun c =>
      f.owns (clusterOf c) && f.owns (clusterOf c + 1) && (!f.has first || f.can cores pl first c) &&
        (!f.has (first + 1) || f.can cores pl (first + 1) (c + 4))
    let all := at_.map fun c => pl ++ (if f.has first then [(first, c)] else []) ++ (if f.has (first + 1) then [(first + 1, c + 4)] else [])
    if f.whole then all.take 1 else all

/-- Completes the placement of a group whose ganged levels, outermost first, are given, on some of the cores (R300). Groups of a
whole unit are alike, so the lowest placement of one hinders no other, and is the only one given; where members have retired, all
are. -/
def Fit.place (f : Fit) : List GangLevel → Nat → List Nat → Placed → List Placed
  | [], first, cores, pl =>
    if f.settled pl first then [pl]
    else match cores.find? (f.can cores pl first) with | some c => [pl ++ [(first, c)]] | none => []
  | g :: lv, first, cores, pl =>
    if g.pair then f.pairs first cores pl
    else
      let subs := match pl.find? fun p => decide (first ≤ p.1) && decide (p.1 < first + g.size) with
        | some p => [cores.filter fun c => regionKey g.code c == regionKey g.code p.2]
        | none => splitRegion g.code cores
      let m := max 1 (match lv with | l :: _ => l.size | [] => 1)
      let fill (sub : List Nat) : List Placed :=
        (List.range (g.size / m)).foldl (fun pls k => pls.flatMap (f.place lv (first + m * k) sub)) [pl]
      if f.whole then (subs.findSome? fun sub => (fill sub).head?).toList else subs.flatMap fill

/-- Ganged levels of a unit, outermost first. A relaunched group of a level that is not ganged is one unit on any cores. -/
def unitLevels (h : Header) (size : Nat) : List GangLevel :=
  let ls := ((List.range (h.nf + 1)).filter fun l => h.ganged l && decide (h.groupSize l ≤ size)).reverse.map fun l =>
    ({ size := h.groupSize l, code := if h.pair l then 2 else h.place l, pair := h.pair l } : GangLevel)
  match ls with
  | l :: _ => if l.size = size then ls else { size := size, code := 0, pair := false } :: ls
  | [] => if size = 1 then [] else [{ size := size, code := 0, pair := false }]

/-- The suffixes of a list of levels, innermost level first. -/
def suffixes : List GangLevel → List (List GangLevel)
  | [] => []
  | g :: lv => suffixes lv ++ [g :: lv]

/-- The cores that the codes of levels leave to a group within them, by the members placed so far. -/
def regionsLeft (ls : List GangLevel) (first : Nat) (pl : Placed) (cores : List Nat) : List Nat :=
  cores.filter fun c => ls.all fun g => match pl.find? fun p => p.1 / g.size == first / g.size with
    | some p => regionKey g.code c == regionKey g.code p.2
    | none => true

/-- Members of one group lie in one region of its level's code. -/
def Placed.inRegions (pl : Placed) (ls : List GangLevel) : Bool :=
  ls.all fun g => pl.all fun p => pl.all fun q => p.1 / g.size != q.1 / g.size || regionKey g.code p.2 == regionKey g.code q.2

/-- The placements of a unit: members bound to a cluster first, then outward from the innermost level the groups that hold one of
those placed, on cores that every outer code allows, then the rest. -/
def Fit.all (f : Fit) (ls : List GangLevel) (first size : Nat) (cores : List Nat) : List Placed :=
  let is := ((List.range size).map fun k => first + k).filter fun i => f.has i && (f.bound i).isSome
  let start : List Placed :=
    if ls.any GangLevel.pair then
      is.foldl (fun pls i => pls.flatMap (f.pairs (i / 2 * 2) cores)) [[]]
    else is.foldl (fun pls i => pls.flatMap (f.place [] i cores)) [[]]
  let start := start.filter fun pl => pl.inRegions ls
  if ls.isEmpty then start.flatMap (f.place [] first cores)
  else
    (suffixes ls).foldl (fun pls lv =>
      let m := max 1 (lv.headD { size := 1, code := 0, pair := false }).size
      let outer := ls.filter fun g => decide (m < g.size)
      pls.flatMap fun pl => (List.range (size / m)).foldl (fun pls k =>
        if m = size ∨ pl.any (fun p => decide (first + m * k ≤ p.1) && decide (p.1 < first + m * (k + 1)))
        then pls.flatMap fun q => f.place lv (first + m * k) (regionsLeft outer (first + m * k) q cores) q else pls) [pl]) start

/-- The first list is lower, comparing the lowest cores first. -/
def lowerCores : List Nat → List Nat → Bool
  | [], _ => true
  | _, [] => false
  | a :: as_, b :: bs => decide (a < b) || (a == b && lowerCores as_ bs)

/-- Cores of a placement, ascending. -/
def sortedCores (pl : Placed) : List Nat := sortBy id (pl.map (·.2))

/-- The better of two placements: the lower core numbers. -/
def betterOf (a b : Option Placed) : Option Placed :=
  match a, b with
  | some x, some y => if lowerCores (sortedCores x) (sortedCores y) then a else b
  | some _, none => a
  | none, _ => b

/-- The partition owns the cluster. -/
def State.owns (s : State) (part k : Nat) : Bool := match s.part part with | some p => p.clusters.testBit k | none => false

/-- What a unit asks of its cores. -/
def UnitReq.fit (u : UnitReq) (owns : Nat → Bool) : Fit :=
  { has := u.has, bound := fun i => (u.saved.find? fun v => v.inst.idx == i).bind Saved.cluster, owns := owns
    whole := u.saved.isEmpty || u.saved.length == u.size }

/-- The placement of a unit on some of the given cores: the one of the lowest cores (R300). -/
def UnitReq.placeOn (u : UnitReq) (h : Header) (owns : Nat → Bool) (cores : List Nat) : Option Placed :=
  (((u.fit owns).all (unitLevels h u.size) u.first u.size cores).map some).foldl betterOf none

/-- The partition's placeable cores can hold the unit, even if only with every core free. -/
def State.holdable (s : State) (part : Nat) (h : Header) (u : UnitReq) : Bool := (u.placeOn h (s.owns part) (s.placeable part)).isSome

/-! ### Launches that cannot be held (R302, R328) -/

/-- A launch that no placement can hold ends (R302, R328): its instances are killed, and its record takes KILLED and
REFUSED. -/
def State.endLaunch (s : State) (g n : Nat) : State := (s.modLaunch g n fun l => { l with refused := true }).killLaunch g n

/-- A unit of the launch, of those dispatched and those to come, that the partition's placeable cores cannot hold. -/
def State.unheld (s : State) (part g n : Nat) (l : Launch) : Bool :=
  let units := { first := 0, size := max 1 l.lh.unitSize, saved := [] } :: s.unitsWaiting g n l
  decide (l.gone < l.total) && units.any fun u => !s.holdable part l.lh u

/-- Launches of a partition with a unit, running or waiting, that its placeable cores no longer hold end (R328). -/
def State.endUnheld (s : State) (part : Nat) : State :=
  let bad := (s.graphs.filter fun g => g.2.part == part).flatMap fun g =>
    g.2.nodes.zipIdx.filterMap fun nd => match nd.1.launch with
      | some l => if s.unheld part g.1 nd.2 l then some (g.1, nd.2) else none
      | none => none
  bad.foldl (fun s x => s.endLaunch x.1 x.2) s

end Sys2Proof.Machine
end

