-- ==== Sys2Proof/Machine/Ridge.lean ====
section
/-! DEFINITION. Ridge: launch headers and windows checked (R59, R295 to R298), nodes taking effect (R292, R293), grid and graph records
(R299, R371). -/

namespace Sys2Proof.Machine

/-! ### Launch headers -/

/-- Largest gang group of a placement code (R14); code 0 is limited by the partition alone. -/
def placeLimit (code : Nat) : Nat := if code = 1 then 4 else if code = 2 then 8 else if code = 3 then 64 else 256

/-- The cut of a launch satisfies R11 and R14 to R16 on a partition with `n` placeable cores. A pair lies inside every gang group of
two instances or more at another level, for groups of levels nest: one of code 1 is refused. -/
def Header.cutOk (h : Header) (n : Nat) : Bool :=
  let w (f : Nat) : Nat := h.widths[f]?.getD 0
  let c (f : Nat) : Nat := h.counts[f]?.getD 0
  decide (h.nf ≤ 6) &&
  ((List.range h.nf).all fun f => decide (1 ≤ w f) && decide (w f ≤ 32) && decide (1 ≤ c f) && decide (c f ≤ 2 ^ w f) &&
    decide (c f ≤ 2 ^ 32 - 1)) &&
  decide ((h.widths.take h.nf).foldl (· + ·) 0 ≤ 64) &&
  ((List.range 6).all fun f => decide (f < h.nf) || (w f == 0 && c f == 0)) &&
  !h.gang 0 && !h.pair 0 && h.place 0 == 0 &&
  decide (((List.range (h.nf + 1)).filter fun l => h.pair l).length ≤ 1) &&
  (List.range (h.nf + 1)).all fun l =>
    l == 0 ||
    (decide (h.place l ≤ 4) && (!h.pair l || h.groupSize l == 2) &&
     (!h.ganged l || (decide (h.groupSize l ≤ placeLimit (if h.pair l then 2 else h.place l)) && decide (h.groupSize l ≤ n))) &&
     !(h.gang l && h.place l == 1 && decide (2 ≤ h.groupSize l) && (List.range (h.nf + 1)).any fun k => k != l && h.pair k))

/-- A region entry (R297). -/
def regionOf (b : List Byte) : Region :=
  let x := ofBytes b
  { base := x % 2 ^ 56, size := x >>> 56 % 2 ^ 40, obj := x >>> 96 % 2 ^ 16 }

/-- The header of its fixed part and region entries (R295). -/
def headerOf (x : WindowWord) (regs : List (List Byte)) : Header :=
  { nf := fld x 230 228, widths := (List.range 6).map fun f => fld x (197 + 6 * f) (192 + 6 * f)
    counts := (List.range 6).map fun f => fld x (32 * f + 31) (32 * f)
    levels := (List.range 7).map fun l => x.extractLsb' (256 + 8 * l) 8
    arg := word (fld x 375 320), tven := bit x 434, tvec := fld x 415 384, ilk := bit x 435, pto := fld x 440 436
    regions := regs.map regionOf }

/-- Regions neither misaligned, beyond 2^56, nor overlapping (R297, R298). -/
def regionsOk (rs : List Region) : Bool :=
  let sorted := sortBy Region.base rs
  (rs.all fun r => r.base % 128 == 0 && r.size % 128 == 0 && decide (128 ≤ r.size) && decide (r.base + r.size ≤ 2 ^ 56)) &&
  (sorted.zip (sorted.drop 1)).all fun p => decide (p.1.base + p.1.size ≤ p.2.base)

/-- The checks of R298 on a header as submitted, for an image of `islen` halfwords. -/
def headerOk (x : WindowWord) (regs : List (List Byte)) (h : Header) (n islen : Nat) : Bool :=
  fld x 511 448 == 0 && fld x 433 416 == 0 && fld x 383 376 == 0 && fld x 319 312 == 0 && fld x 255 231 == 0 &&
  decide (fld x 447 441 ≤ 64) && (regs.all fun r => ofBytes r / 2 ^ 112 == 0) && h.cutOk n &&
  ((List.range 7).all fun l => decide (l ≤ h.nf) || h.lvl l == 0) &&
  (if h.pairLevel.isSome then decide (10 ≤ h.pto) && decide (h.pto ≤ 30) else h.pto == 0) &&
  (if h.tven then decide (h.tvec < islen) else h.tvec == 0) && h.arg.toNat % 8 == 0 && regionsOk h.regions

/-- A window descriptor passes R59. Of a full line, only whole groups of 8 positions count as stored (log entry 57). -/
def windowOk (w : WindowWord) : Bool :=
  if !winValid w then true
  else
    let box := boxType w
    let scale := fld w 479 448
    let r := winRank w
    let full (k : Nat) : Nat := winFull w k
    let c := contig r (winLayout w)
    let line := if winFmt w = 12 then full r / 8 * 16
      else (if winDens w = 0 then full r else full r * winDens w / 8) * fmtBits (winFmt w)
    fld w 383 376 == 0 && fld w 127 108 == 0 && decide (1 ≤ winFmt w) && decide (winFmt w ≤ 12) && decide (winLayout w ≤ 5) &&
    scale / 2 ^ 31 == 0 && scale != 0 && decide (scale / 2 ^ 23 < 255) &&
    tyStatic box && formOk (Vector.replicate 16 none) box &&
    (winSgeo w == 0 || full c % blockLen (winSgeo w) == 0) && (winDens w == 0 || full c % 8 == 0) && line % 8 == 0

/-! ### Ridge's memory accesses (R292) -/

/-- What Ridge is the owner of: a node's requests. -/
def ridgeOwner (part g n : Nat) : Owner := { uid := 0, part := part, graph := g, node := n, idx := 0, core := ridgeAgent }

/-- A page as Ridge finds it: by a walk of the partition's table. The SRAM window belongs to cores. -/
def State.ridgePage (s : State) (part : Nat) (a : Access) (page : Nat) : PageRes :=
  let va := 4096 * page
  if Config.vaLimit ≤ va then .fault { kind := 2, level := 7, entry := 0 }
  else if Config.windowBase ≤ va then .fault { kind := 5, level := 7, entry := 0 }
  else match s.walk part va with | .inl t => t.use a va | .inr f => .fault f

/-- Translates `n` bytes at a VA for Ridge. -/
def State.ridgeSpan (s : State) (part : Nat) (a : Access) (va n : Nat) : Option Span :=
  let r := spanOf (s.ridgePage part a) [(va, n)]
  if r.2.2.isSome then none else some r.1

/-- Table entries that Ridge's walks for `n` bytes at a VA read, where errors are to be met (R189). -/
def State.ridgeWalks (s : State) (part va n : Nat) : List Nat :=
  if s.errs.isEmpty then [] else (touched [(va, n)]).flatMap fun p => if Config.windowBase ≤ 4096 * p.2 then [] else s.walkReads part (4096 * p.2)

/-- What a read by Ridge gives: the bytes, an unreadable word, a page fault, or bytes that the fabric has not supplied as `remote`. -/
inductive RidgeRead where
  | bytes (b : List Byte)
  | failed
  | fault
  | short
  deriving DecidableEq, Repr

/-- A read of `n` bytes by Ridge at their homes (R292). -/
def State.ridgeRead (s : State) (part va n : Nat) (remote : List Byte) : RidgeRead :=
  match s.ridgeSpan part .read va n with
  | none => if remote.isEmpty then .fault else .short
  | some sp =>
    let far := sp.keys.filter isRemote
    if remote.length ≠ far.length then .short
    else if (s.errsAt (s.ridgeWalks part va n ++ sp.keys.filter fun k => !isRemote k)).any fun e => decide (2 ≤ e.bits) then .failed
    else .bytes (sp.keys.map fun k => match (far.zip remote).find? fun c => c.1 == k with | some c => c.2 | none => s.readHome k)

/-- The effect that a read by Ridge has besides its value: single-bit errors are corrected, an uncorrectable one is counted (R189). -/
def State.ridgeTouch (s : State) (part va n : Nat) : State :=
  let near := match s.ridgeSpan part .read va n with | none => [] | some sp => sp.keys.filter fun k => !isRemote k
  (s.checkRead (s.ridgeWalks part va n ++ near)).1

/-- Ridge has added to a counter of this package: the add takes its place, and an agent that reads its words sees what it publishes
(R206, R209). -/
def State.ridgePlace (s : State) (part : Nat) (keys : List Nat) : State :=
  let words := (keys.map (· / 8)).eraseDups
  { s with news := words.filter (fun w => !s.news.contains w) ++ s.news }.takePlace
    (s.event (ridgeOwner part 0 0) ridgeAgent 3 (.add (keys.headD 0)))

/-- A record step by Ridge (R299, R371): at once at a home of this package; sent where it lies elsewhere. None where the
record does not translate. The flag says that its answer is awaited. -/
def State.ridgeRecord (s : State) (part g n va : Nat) (status : Word) : State × Bool :=
  let w := s.checkRead (s.ridgeWalks part va 16)
  if w.2.isSome then (w.1.openReport, false)
  else
  let s := w.1
  match s.ridgeSpan part .atomic va 16 with
  | none => (s, false)
  | some sp =>
    let k := sp.key va
    if isRemote k then (s.sendRecord (ridgeOwner part g n) ridgeAgent 0 0 0 va k 1 status, true)
    else
      let y := s.recordTry none sp.keys 1 status
      (if y.2.isSome then y.1.openReport else y.1.ridgePlace part sp.keys, false)

/-! ### Nodes (R291) -/

/-- Number of the partition a graph runs in. -/
def State.graphPart (s : State) (g : Nat) : Nat := match assoc s.graphs g with | some gr => gr.part | none => 0

/-- A node of a graph. -/
def State.node (s : State) (g n : Nat) : Option Node :=
  match assoc s.graphs g with | some gr => gr.nodes[n]? | none => none

/-- A waiting node as its predecessors leave it. -/
def settleNode (pcc : Nat) (nodes : List Node) (nd : Node) : Node :=
  let st (e : Nat × Nat) : NodeState := (nodes[e.2]?.map (·.state)).getD .waiting
  if nd.state = .waiting then
    if (ndEdges nd.word).any fun e => edgeDead e.1 (st e) then { nd with state := .skipped }
    else if (ndEdges nd.word).all fun e => edgeMet e.1 (st e) then { nd with state := .ready, since := pcc }
    else nd
  else nd

/-- Every node of a graph settled, lowest index first; bodies are never ready, the end node is when all others have ended
(R291). -/
def settleNodes (pcc : Nat) (nodes : List Node) : List Node :=
  let bs := bodies nodes
  let free (k : Nat) (nd : Node) : Bool := !bs.contains k && ndKind nd.word != 5
  let ns : List Node := (List.range nodes.length).foldl (fun (ns : List Node) k =>
    ns.mapIdx fun i nd => if i = k ∧ free i nd then settleNode pcc ns nd else nd) nodes
  let done : Bool := ns.zipIdx.all fun p => !free p.2 p.1 || p.1.state.ended
  ns.map fun nd => if ndKind nd.word = 5 ∧ nd.state = .waiting ∧ done then { nd with state := .ready, since := pcc } else nd

/-- A skipped launch with a record writes SKIPPED (R291). -/
def State.skipRecord (s : State) (g n : Nat) : State :=
  match s.node g n with
  | some nd =>
    if ndKind nd.word = 0 ∧ ndRec nd.word ≠ 0 then (s.ridgeRecord (s.graphPart g) g n (ndRec nd.word) 4).1 else s
  | none => s

/-- Settles a graph after a change, writes the records of launches now skipped, and recomputes priorities. -/
def State.settleGraph (s : State) (g : Nat) : State :=
  match assoc s.graphs g with
  | none => s
  | some gr =>
    let ns := settleNodes s.pcc gr.nodes
    let skipped := (List.range ns.length).filter fun k =>
      (ns[k]?.map (·.state)) == some .skipped && (gr.nodes[k]?.map (·.state)) != some .skipped
    let s := { s with graphs := assocMod s.graphs g fun x => { x with nodes := ns } }
    (skipped.foldl (fun s k => s.skipRecord g k) s).reprio

/-- A node takes a state, and its graph settles. -/
def State.nodeTo (s : State) (g n : Nat) (st : NodeState) : State :=
  (s.modNode g n fun nd => { nd with state := st }).settleGraph g

/-- Sets status bits of a graph (R371): 1 KILLED, 2 ABORTED, 4 NODEFAULT. -/
def State.markGraph (s : State) (g : Nat) (b : BitVec 3) : State :=
  { s with graphs := assocMod s.graphs g fun x => { x with status := x.status ||| b } }

/-- A node whose word cannot be read or written is skipped, the fault is reported to the control node, and the graph takes NODEFAULT
(R292). -/
def State.nodeFault (s : State) (g n : Nat) : State := ((s.markGraph g 4).nodeTo g n .skipped).openReport

/-- The node of this kind is ready. -/
def State.nodeReady (s : State) (g n kind : Nat) : Option Node :=
  match s.node g n with
  | some nd => if s.powered && nd.state == .ready && ndKind nd.word == kind then some nd else none
  | none => none

/-- A launch of a header over an image (R292, R295). -/
def newLaunch (lh : Header) (im : Image) : Launch :=
  { lh := lh, windows := im.windows, image := im, total := lh.total, next := 0, gone := 0, redo := [], dead := [], killed := false
    refused := false, left := [] }

/-- A launch just created: effective priorities are recomputed, and it ends at once where a unit of it cannot be placed (R302, R328). -/
def State.settleLaunch (s : State) (g n : Nat) (lh : Header) : State :=
  if s.holdable (s.graphPart g) lh { first := 0, size := max 1 lh.unitSize, saved := [] } then s.reprio else s.endLaunch g n

/-- Creates the launch of a node (R17): it runs, and its instances are dispatched from now on. -/
def State.startLaunch (s : State) (g n : Nat) (lh : Header) : State :=
  match s.node g n with
  | none => s
  | some nd =>
    match assoc s.images (ndImg nd.word) with
    | none => s
    | some im => (s.modNode g n fun nd => { nd with state := .running, launch := some (newLaunch lh im), sent := false }).settleLaunch g n lh

/-- Meaning of LAUNCH_NODE (R292). -/
def execLaunchNode (graph node : Nat) (s : State) : Host.Outcome State Fault Refusal :=
  match s.nodeReady graph node 0 with
  | some nd => match nd.lh with
    | some lh => .next (s.startLaunch graph node lh)
    | none => .refused (.notEnabled "LAUNCH_NODE")
  | none => .refused (.notEnabled "LAUNCH_NODE")

/-- Ridge awaits a node's remote word. -/
def State.nodeAsked (s : State) (g n : Nat) : Bool :=
  s.remote.any fun q => q.agent == ridgeAgent && q.access == 0 && q.own.graph == g && q.own.node == n

/-- One read of a node's word (R292): `k` is what follows with the word read. A page fault is first serviced (R193), and faults the
node where that fails; a word elsewhere is asked for. None where the node still waits for either. -/
def State.nodeWord (s : State) (g n : Nat) (nd : Node) (remote : List Byte) (k : State → Nat → State) : Option State :=
  let part := s.graphPart g
  let va := ndAddr nd.word
  match s.askOf (.node g n) with
  | some a => if a.failed then some ((s.unask (.node g n)).nodeFault g n) else none
  | none =>
    let t := s.ridgeTouch part va 8
    match s.ridgeRead part va 8 remote with
    | .bytes b => some (k { t with remote := t.remote.filter fun q =>
        !(q.agent == ridgeAgent && q.access == 0 && q.own.graph == g && q.own.node == n) } (ofBytes b))
    | .failed => some (t.nodeFault g n)
    | .fault => some (s.ask (.node g n))
    | .short =>
      match s.ridgeSpan part .read va 8 with
      | some sp => if remote.isEmpty && !s.nodeAsked g n then some (s.askReads (ridgeOwner part g n) ridgeAgent 0 va (sp.keys.filter isRemote))
        else none
      | none => none

/-- Meaning of COND_NODE (R292). `remote` is what the fabric returned for a word elsewhere. -/
def execCondNode (graph node : Nat) (remote : List Byte) (s : State) : Host.Outcome State Fault Refusal :=
  match s.nodeReady graph node 1 with
  | none => .refused (.notEnabled "COND_NODE")
  | some nd =>
    match s.nodeWord graph node nd remote fun t w => t.nodeTo graph node (.completed (w != 0)) with
    | some t => .next t
    | none => .refused (.notEnabled "COND_NODE")

/-- A wait node reads its counter: it completes, or notes the poll. -/
def State.pollNode (s : State) (g n : Nat) (nd : Node) (remote : List Byte) : Option State :=
  (s.nodeWord g n nd remote fun t w => if ndVal nd.word ≤ w then t.nodeTo g n (.completed true) else t).map fun t =>
    t.modNode g n fun x => { x with polled := some s.pcc }

/-- Meaning of WAIT_NODE_POLL (R292): one read of the counter. -/
def execWaitNodePoll (graph node : Nat) (remote : List Byte) (s : State) : Host.Outcome State Fault Refusal :=
  match s.nodeReady graph node 3 with
  | none => .refused (.notEnabled "WAIT_NODE_POLL")
  | some nd =>
    match s.pollNode graph node nd remote with
    | some t => .next t
    | none => .refused (.notEnabled "WAIT_NODE_POLL")

/-- A wait node is to be polled: once in each PCC cycle that is a multiple of 64 (R292). -/
def State.pollDue (s : State) (g n : Nat) : Bool :=
  s.pcc % 64 == 0 && match s.nodeReady g n 3 with
    | some nd => nd.polled != some s.pcc && (s.pollNode g n nd []).isSome
    | none => false

/-- Adds a number to an 8-byte counter at its home, modulo 2^64. -/
def State.addCounter (s : State) (keys : List Nat) (x : Nat) : State :=
  s.writeHomes (keys.zip (toBytes 8 ((ofBytes (keys.map s.readHome) + x) % 2 ^ 64)))

/-- Sends an add to a counter on another accelerator (R334), and notes that Ridge awaits its response. -/
def State.sendAdd (s : State) (own : Owner) (agent va key x : Nat) : State :=
  let pl := atomicPayload 0 1 false false x 0
  s.request own agent 0 0 0 false va key 2 2 pl.length pl

/-- Meaning of SIGNAL_NODE (R292): the add, after the release of what its predecessors published. -/
def execSignalNode (graph node : Nat) (s : State) : Host.Outcome State Fault Refusal :=
  match s.nodeReady graph node 4 with
  | none => .refused (.notEnabled "SIGNAL_NODE")
  | some nd =>
    let part := s.graphPart graph
    let va := ndAddr nd.word
    let w := s.checkRead (s.ridgeWalks part va 8)
    if w.2.isSome && (s.askOf (.node graph node)).isNone then .next (w.1.nodeFault graph node)
    else match s.askOf (.node graph node), s.ridgeSpan part .atomic va 8 with
    | some a, _ => when "SIGNAL_NODE" a.failed ((s.unask (.node graph node)).nodeFault graph node)
    | none, none => .next (s.ask (.node graph node))
    | none, some sp =>
      let s := w.1
      let k := sp.key va
      if isRemote k then
        .next ((s.sendAdd (ridgeOwner part graph node) ridgeAgent va k (ndVal nd.word)).modNode graph node fun x =>
          { x with state := .running, sent := true })
      else if (s.checkRead sp.keys).2.isSome then .next ((s.checkRead sp.keys).1.nodeFault graph node)
      else .next ((((s.checkRead sp.keys).1.addCounter sp.keys (ndVal nd.word)).ridgePlace part sp.keys).nodeTo graph node (.completed true))

/-! ### While nodes (R293) -/

/-- The cut that a condition word gives a pass of a body, or none where it is the header's own. -/
def passHeader (h : Header) (w : Nat) : Header :=
  let nf := w >>> 36 % 8
  if nf = 0 then h
  else
    let ws := (List.range 6).map fun f => w >>> (6 * f) % 64
    { h with nf := nf, widths := ws
             counts := (List.range 6).map fun f => if f < nf then min (2 ^ (ws[f]?.getD 0)) (2 ^ 32 - 1) else 0 }

/-- A refused pass writes the body's record with REFUSED (R293). -/
def State.refusePass (s : State) (g b : Nat) : State :=
  match s.node g b with
  | some nd => if ndRec nd.word = 0 then s else (s.ridgeRecord (s.graphPart g) g b (ndRec nd.word) 2).1
  | none => s

/-- The while node is between passes. -/
def State.whileIdle (s : State) (g n : Nat) : Option Node :=
  match s.node g n with
  | some nd =>
    if s.powered && ndKind nd.word == 2 && (nd.state == .ready || nd.state == .running) &&
        (match s.node g (ndBody nd.word) with | some b => b.launch.isNone | none => false) then some nd else none
  | none => none

/-- A pass of a while node is launched: the body runs with its cut, ready from now (R293, R301). -/
def State.pass (s : State) (g n b : Nat) (lh : Header) : State :=
  (((s.modNode g n fun x => { x with state := .running }).modNode g b fun x => { x with since := s.pcc }).startLaunch g b lh).reprio

/-- What a while node does with its condition word (R293). -/
def State.whileWord (s : State) (g n body w : Nat) : State :=
  if w >>> 63 = 0 then s.nodeTo g n (.completed true)
  else
    let h := passHeader (((s.node g body).bind Node.lh).getD default) w
    if w >>> 39 % 2 ^ 24 ≠ 0 ∨ !h.cutOk (s.placeable (s.graphPart g)).length then (s.refusePass g body).nodeTo g n (.completed true)
    else s.pass g n body h

/-- The graph has been aborted. -/
def State.aborted (s : State) (g : Nat) : Bool := match assoc s.graphs g with | some gr => bit gr.status 1 | none => false

/-- Meaning of WHILE_NODE (R293): one reading of the condition word, and a pass or the end. -/
def execWhileNode (graph node : Nat) (remote : List Byte) (s : State) : Host.Outcome State Fault Refusal :=
  match s.whileIdle graph node with
  | none => .refused (.notEnabled "WHILE_NODE")
  | some nd =>
    if s.aborted graph then .next ((s.unask (.node graph node)).nodeTo graph node (.completed true))
    else match s.nodeWord graph node nd remote fun t w => t.whileWord graph node (ndBody nd.word) w with
    | some t => .next t
    | none => .refused (.notEnabled "WHILE_NODE")

/-! ### Records (R299, R371) -/

/-- Everything that a grid's instances did has ended and been released (R209). -/
def State.gridQuiet (s : State) (g n : Nat) (l : Launch) : Bool :=
  let mine (o : Owner) : Bool := o.graph == g && o.node == n && o.core != ridgeAgent
  decide (l.total ≤ l.gone) && !(s.copies.any fun r => mine r.e.own) && !(s.oldRels.any fun o => mine o.own) &&
  !(s.remote.any fun q => mine q.own) &&
  s.cores.toList.all fun c => !(c.runs g n) && c.ch.toList.all fun h => !((h.queue ++ h.spilled).any fun e => mine e.own)

/-- The grid is over: its node completes, or the body of a while node is ready for its next pass. -/
def State.closeGrid (s : State) (g n : Nat) : State :=
  let isBody := match assoc s.graphs g with | some gr => (bodies gr.nodes).contains n | none => false
  let s := s.modNode g n fun nd => { nd with launch := none, sent := false }
  if isBody then s.nodeTo g n .waiting else s.nodeTo g n (.completed true)

/-- Status of a grid record (R299). -/
def Launch.status (l : Launch) : Nat := b2n l.killed + 2 * b2n l.refused

/-- Meaning of GRID_COMPLETION (R209, R299). -/
def execGridCompletion (graph node : Nat) (s : State) : Host.Outcome State Fault Refusal :=
  match s.node graph node with
  | some nd =>
    match nd.launch with
    | some l =>
      when "GRID_COMPLETION" (s.powered && !nd.sent && s.gridQuiet graph node l)
        (let s : State := if l.killed then s.markGraph graph 1 else s
         if ndRec nd.word = 0 then s.closeGrid graph node
         else
           let r := s.ridgeRecord (s.graphPart graph) graph node (ndRec nd.word) (word l.status)
           if r.2 then r.1.modNode graph node fun x => { x with sent := true } else r.1.closeGrid graph node)
    | none => .refused (.notEnabled "GRID_COMPLETION")
  | none => .refused (.notEnabled "GRID_COMPLETION")

/-- The graph stops being resident (R371). -/
def State.dropGraph (s : State) (g : Nat) : State :=
  { s with graphs := s.graphs.filter fun x => x.1 != g, plans := s.plans.filter fun p => p.graph != g
           remote := s.remote.filter fun q => !(q.agent == ridgeAgent && q.access == 0 && q.own.graph == g)
           asks := s.asks.filter fun a => match a.who with | .node h _ => h != g | _ => true }

/-- The index of the end node. -/
def Graph.endNode (gr : Graph) : Nat := (gr.nodes.findIdx? fun n => ndKind n.word == 5).getD 0

/-- Ridge awaits answers for the graph's nodes. -/
def State.ridgePending (s : State) (g : Nat) : Bool := s.remote.any fun q => q.own.core == ridgeAgent && q.own.graph == g && !q.refused && q.access != 0

/-- Meaning of END_NODE (R292, R371): the graph record takes its step and the graph is resident no longer. -/
def execEndNode (graph : Nat) (s : State) : Host.Outcome State Fault Refusal :=
  match assoc s.graphs graph with
  | none => .refused (.notEnabled "END_NODE")
  | some gr =>
    when "END_NODE" (s.powered && (s.nodeReady graph gr.endNode 5).isSome && !gr.sent && !s.ridgePending graph)
      (let r := s.ridgeRecord gr.part graph gr.endNode gr.record (gr.status.setWidth 64)
       if r.2 then { r.1 with graphs := assocMod r.1.graphs graph fun x => { x with sent := true } } else r.1.dropGraph graph)

/-- The fabric has refused a read of Ridge: its node faults (R292). -/
def State.ridgeReadRefused (s : State) (own : Owner) : State :=
  match s.node own.graph own.node with
  | some nd => if nd.state == .ready || nd.state == .running then s.nodeFault own.graph own.node else s
  | none => s

/-- An answer has come for a request of Ridge: the record or the add of a node has been performed, or refused. -/
def State.ridgeAnswer (s : State) (own : Owner) (ok : Bool) : State :=
  match assoc s.graphs own.graph with
  | none => s
  | some gr =>
    if gr.sent ∧ own.node = gr.endNode then s.dropGraph own.graph
    else
      match gr.nodes[own.node]? with
      | none => s
      | some nd =>
        if !nd.sent then s
        else
          let s := s.modNode own.graph own.node fun x => { x with sent := false }
          if nd.launch.isSome then s.closeGrid own.graph own.node
          else if ok then s.nodeTo own.graph own.node (.completed true) else s.nodeFault own.graph own.node

/-! ### Ending launches -/

/-- Changes every node of a graph. -/
def State.modNodes (s : State) (g : Nat) (f : Nat → Node → Node) : State :=
  { s with graphs := assocMod s.graphs g fun gr => { gr with nodes := gr.nodes.mapIdx f } }

/-- Aborts a graph (R367): nodes not yet started are skipped, running launches are killed under kill-self. -/
def State.abortGraph (s : State) (g : Nat) : State :=
  match assoc s.graphs g with
  | none => s
  | some gr =>
    let bs := bodies gr.nodes
    let unstarted := (List.range gr.nodes.length).filter fun k =>
      match gr.nodes[k]? with
      | some nd => !bs.contains k && ndKind nd.word != 5 && (nd.state == .waiting || nd.state == .ready)
      | none => false
    let s : State := s.markGraph g 2
    let s : State := s.modNodes g fun k nd => if unstarted.contains k then { nd with state := .skipped } else nd
    let s : State := unstarted.foldl (fun (s : State) k => s.skipRecord g k) s
    let s : State := (List.range gr.nodes.length).foldl (fun (s : State) k => s.killLaunch g k) s
    s.settleGraph g

end Sys2Proof.Machine
end

