-- ==== Sys2Proof/Machine/Place.lean ====
section
/-! DEFINITION. Placement (R300), the order of dispatch (R302), pre-emption (R303), the start and resume of instances (R18, R38, R320),
launches that no placement can hold (R328). -/

namespace Sys2Proof.Machine

/-! ### Free cores -/

/-- Ridge may start an instance on the core. -/
def State.coreFree (s : State) (i : Nat) : Bool :=
  let c := s.core i
  c.phase == .idle && c.inst.isNone && !c.spareDue && !c.unplaceable && !(s.die (dieOf i)).shut

/-- Cores of a partition that are free and not reserved. -/
def State.freeCores (s : State) (part : Nat) : List Nat :=
  (s.placeable part).filter fun i => s.coreFree i && !(s.plans.any fun p => p.cores.any fun c => c.2 == i)

/-! ### Pre-emption (R303) -/

/-- A running unit: the effective priority of its node, the cores it holds, those of them that no placement has reserved. -/
structure Victim where
  eff   : Nat
  all   : List Nat
  cores : List Nat
  deriving DecidableEq, Repr

/-- The unit of the instance on a core. -/
def Inst.unit (x : Inst) : Nat × Nat × Nat := (x.graph, x.node, x.idx / max 1 x.lh.unitSize)

/-- Running units of a partition of effective priority at most `p` that hold cores not reserved, lowest core first, with those cores. -/
def State.victims (s : State) (part p : Nat) : List Victim :=
  let here := (s.placeable part).filterMap fun i => (s.core i).inst.map fun x => (i, x)
  let units := (here.map fun x => x.2.unit).eraseDups
  let free (i : Nat) : Bool := !(s.plans.any fun q => q.cores.any fun c => c.2 == i)
  let all := units.map fun u =>
    let mine := (here.filter fun x => x.2.unit == u).map (·.1)
    ({ eff := ((s.node u.1 u.2.1).map Node.eff).getD 0, all := mine, cores := mine.filter free } : Victim)
  all.filter fun v => decide (v.eff ≤ p) && !v.cores.isEmpty

/-- The best placement that `k` of the victims make room for, besides the cores already to hand. -/
def bestOver (fit : List Nat → Option (List (Nat × Nat))) : List Victim → Nat → List Nat → Option (List (Nat × Nat))
  | _, 0, cores => fit (sortBy id cores)
  | [], _ + 1, _ => none
  | v :: vs, k + 1, cores =>
    if (fit (sortBy id (cores ++ (v :: vs).flatMap Victim.cores))).isNone then none
    else betterOf (bestOver fit vs k (cores ++ v.cores)) (bestOver fit vs (k + 1) cores)

/-- The placement that pre-emption makes room for (R303): lowest highest priority of the victims, fewest victim units, lowest
cores. -/
def State.preemptPlace (s : State) (part eff : Nat) (fit : List Nat → Option (List (Nat × Nat))) : Option (List (Nat × Nat)) :=
  (List.range eff).findSome? fun p =>
    let vs := s.victims part p
    (List.range vs.length).findSome? fun k => bestOver fit vs (k + 1) (s.freeCores part)

/-- Ridge reserves the cores of a placement and asks every member of every unit there to save (R303). -/
def State.preemptFor (s : State) (part eff g n : Nat) (u : UnitReq) (pl : List (Nat × Nat)) : State :=
  let vs := (s.victims part (eff - 1)).filter fun v => v.cores.any fun c => pl.any fun p => p.2 == c
  let s := { s with plans := s.plans ++ [{ part := part, graph := g, node := n, first := u.first, size := u.size, cores := pl }] }
  (vs.flatMap Victim.all).foldl State.requestSave s

/-! ### Starting and resuming -/

/-- LEVEL of a launch (R12). -/
def Header.level (h : Header) : Word :=
  word ((List.range 6).foldl (fun x f => x ||| (if f < h.nf then h.widths[f]?.getD 0 else 0) <<< (6 * f)) (h.nf <<< 36))

/-- GRID0 to GRID5 of a launch (R12). -/
def Header.grid (h : Header) : Vector Word 6 := Vector.ofFn fun f => if f.val < h.nf then word (h.counts[f.val]?.getD 0) else 0

/-- The registers at the start of an instance, with the argument block in s1 (R38). -/
def startRegs (h : Header) : Regs := { Regs.start with s := vset Regs.start.s 1 h.arg }

/-- An instance starts on core i (R18, R38). What belongs to the core itself stays. -/
def State.startInst (s : State) (i g n idx : Nat) (l : Launch) (spr : Vector Word 2) : State :=
  let x : Inst := { uid := s.serial + 1, part := s.graphPart g, graph := g, node := n, idx := idx, wid := l.lh.wid idx, lh := l.lh
                    windows := l.windows, entry := l.image.entry }
  let s := { s with serial := s.serial + 1 }
  s.modCore i fun c =>
    { c with phase := .run, inst := some x, dict := l.image.dict, stream := l.image.stream, r := startRegs l.lh, e := Engine.start
             spr := spr, wid := x.wid, level := l.lh.level, grid := l.lh.grid, pos := l.image.entry, cycle := 0, wake := s.pcc }

/-- The banks of a resumed instance take its new core's number (R180). -/
def Bank.moveTo (b : Bank) (uid core : Nat) : Bank :=
  { b with own := if b.ownUid = uid then core else b.own, prod := if b.prodUid = uid then core else b.prod
           cons := if b.consUid = uid then core else b.cons }

/-- A copy entry pushed again by a resumed instance (R243). -/
def CopyEntry.repush (e : CopyEntry) (i : Nat) : CopyEntry := { e with own := { e.own with core := i } }

/-- A channel takes the entries of a resumed instance behind those it holds; sixteen stay on chip (R235). -/
def Channel.repush (h : Channel) (es : List CopyEntry) : Channel :=
  let q := h.queue ++ h.spilled ++ es
  { h with queue := q.take 16, spilled := q.drop 16, ring := h.ring + ((q.drop 16).length - h.spilled.length) }

/-- A saved instance is placed on core i (R318, R320); CONTEXT_RESUME lets it go on. -/
def State.placeSaved (s : State) (i : Nat) (v : Saved) (spr : Vector Word 2) : State :=
  let s := { s with saved := s.saved.filter fun x => x.inst.uid != v.inst.uid }
  let s := s.modCore i fun c =>
    { v.core with
      phase := .resuming
      spr := spr
      ch := Vector.ofFn fun k => (vget c.ch k.val default).repush ((vget v.core.ch k.val default).queue.map fun e => e.repush i)
      mem := { v.core.mem with epoch := c.mem.epoch, sent := c.mem.sent }
      heavy := c.heavy, wake := s.pcc, unplaceable := c.unplaceable, spareDue := c.spareDue, lastCause := c.lastCause, drawn := c.drawn }
  s.modCluster (clusterOf i) fun k => { k with banks := k.banks.map fun b => b.moveTo v.inst.uid (i % 4) }

/-- The unit's members take their cores; the launch records the dispatch. `spr` gives the spill-ring bases of each member in
turn (R235). -/
def State.placeUnit (s : State) (g n : Nat) (l : Launch) (u : UnitReq) (pl : List (Nat × Nat)) (spr : List Word) : State :=
  let s := (sortBy (·.1) pl).zipIdx.foldl (fun s p =>
    let bases : Vector Word 2 := #v[spr[2 * p.2]?.getD 0, spr[2 * p.2 + 1]?.getD 0]
    match u.saved.find? fun v => v.inst.idx == p.1.1 with
    | some v => s.placeSaved p.1.2 v bases
    | none => s.startInst p.1.2 g n p.1.1 l bases) s
  let s := { s with plans := s.plans.filter fun p => !(p.graph == g && p.node == n && p.first == u.first) }
  (s.modLaunch g n fun x =>
    if !u.saved.isEmpty then x
    else if x.redo.contains (u.first, u.size) then { x with redo := x.redo.erase (u.first, u.size) }
    else { x with next := u.first + u.size }).reprio

/-! ### Dispatch (R302) -/

/-- A launch with units to dispatch: effective priority, r, order of submission, graph, node, launch. -/
structure Ready where
  eff   : Nat
  since : Nat
  order : Nat
  graph : Nat
  node  : Nat
  la    : Launch

/-- The first of two in the order of R302. -/
def Ready.before (a b : Ready) : Bool :=
  decide (b.eff < a.eff) || (a.eff == b.eff && (decide (a.since < b.since) || (a.since == b.since &&
    (decide (a.order < b.order) || (a.order == b.order && decide (a.node < b.node))))))

/-- Launches of a partition with units to dispatch. -/
def State.readyNodes (s : State) (part : Nat) : List Ready :=
  (s.graphs.filter fun g => g.2.part == part).flatMap fun g =>
    g.2.nodes.zipIdx.filterMap fun nd => match nd.1.launch with
      | some l => if s.fullyOut g.1 nd.2 l then none
        else some { eff := nd.1.eff, since := nd.1.since, order := g.2.order, graph := g.1, node := nd.2, la := l }
      | none => none

/-- The first node in order that has a unit to place. -/
def State.firstReady (s : State) (part : Nat) : Option (Ready × UnitReq) :=
  let rs := (s.readyNodes part).filterMap fun r => (s.nextUnit r.graph r.node r.la).map fun u => (r, u)
  rs.foldl (fun best x => match best with | some b => if x.1.before b.1 then some x else best | none => some x) none

/-- The unit a reservation is for, if it still waits. -/
def State.planUnit (s : State) (p : Plan) : Option (Launch × UnitReq) :=
  match s.launch p.graph p.node with
  | none => none
  | some l => ((s.unitsWaiting p.graph p.node l).find? fun u => u.first == p.first && u.size == p.size).map fun u => (l, u)

/-- Meaning of INSTANCE_DISPATCH (R300, R302, R303): a unit whose reserved cores are free is placed; else the first node's first
unit is placed, or makes room by pre-emption, or ends its launch where nothing can hold it. -/
def execInstanceDispatch (part : Nat) (spr : List Word) (s : State) : Host.Outcome State Fault Refusal :=
  let no : Host.Outcome State Fault Refusal := .refused (.notEnabled "INSTANCE_DISPATCH")
  let good (p : Plan) : Bool := p.part != part || ((s.planUnit p).isSome &&
    p.cores.all fun c => !(s.core c.2).unplaceable && !(s.die (dieOf c.2)).shut)
  let s : State := { s with plans := s.plans.filter good }
  if !s.powered then no
  else
    match s.plans.find? fun p => p.part == part && p.cores.all (fun c => s.coreFree c.2) &&
        (match s.planUnit p with | some u => s.unitClear p.graph p.node u.2 | none => false) with
    | some p => match s.planUnit p with
      | some (l, u) => .next (s.placeUnit p.graph p.node l u p.cores spr)
      | none => no
    | none =>
      match s.firstReady part with
      | none => no
      | some (r, u) =>
        if s.plans.any fun p => p.graph == r.graph && p.node == r.node && p.first == u.first then no
        else if !s.unitClear r.graph r.node u then no
        else
          let fit := u.placeOn r.la.lh (s.owns part)
          match fit (s.freeCores part) with
          | some pl => .next (s.placeUnit r.graph r.node r.la u pl spr)
          | none =>
            if !s.holdable part r.la.lh u then .next (s.endLaunch r.graph r.node)
            else match s.preemptPlace part r.eff fit with
              | some pl => .next (s.preemptFor part r.eff r.graph r.node u pl)
              | none => no

end Sys2Proof.Machine
end

