-- ==== Sys2Proof/Machine/Responses.lean ====
section
/-! DEFINITION. The fabric's responses to requests of this package: acknowledgements and refusals that reach cores, copy commands
and Ridge (R213, R338, R341). -/

namespace Sys2Proof.Machine

/-! ### Responses (R213, R238, R341) -/

/-- The record step of a command has been answered, so the command is over (R238). -/
def State.recordAnswered (s : State) (group : Nat) : State :=
  match s.run group with
  | some r => if r.sent then s.endCopy r else s
  | none => s

/-- An add to a counter on another accelerator has been performed, and takes its place (R200). -/
def State.remotePlace (s : State) (r : RemReq) : State :=
  if r.access = 2 ∧ !r.copy ∧ !r.placed then s.takePlace (s.event r.own r.agent 4 (.add r.key)) else s

/-- Meaning of WRITE_ACKNOWLEDGEMENT (R334, R341): a remote write or record step of the agent has been performed. A merge is answered with data
instead. -/
def execWriteAcknowledgement (agent id : Nat) (s : State) : Host.Outcome State Fault Refusal :=
  match s.remote.find? fun r => r.id == id && r.agent == agent && !r.refused && r.access != 0 && r.merge.isNone with
  | some r =>
    let t := { s with remote := s.remote.filter fun q => q.id != id }.remotePlace r
    if !s.powered then .refused (.notEnabled "WRITE_ACKNOWLEDGEMENT")
    else if 256 ≤ agent then .next (t.ridgeAnswer r.own true)
    else .next ((t.closeGroup r.group).recordAnswered r.group)
  | none => .refused (.notEnabled "WRITE_ACKNOWLEDGEMENT")

/-- A remote access of a copy command is refused: status KEY, or ECC for code 8 (R338, R239). -/
def CopyRun.refuse (r : CopyRun) (code : Nat) : CopyRun := { r with status := r.status ||| (if code = 8 then 4 else 16) }

/-- The refused access read the next chunk, which writes nothing; a typed send or stream is over. -/
def CopyRun.refuseRead (r : CopyRun) (code : Nat) : CopyRun :=
  if r.e.kind = .put ∨ r.e.kind = .ssend then (r.refuse code).finish 0 else (r.refuse code).miss

/-- A write that awaits its response is marked refused. -/
def State.markRefused (s : State) (id : Nat) : State :=
  { s with remote := s.remote.map fun q => { q with refused := q.refused || q.id == id } }

/-- A write of a command in progress is refused. -/
def State.refuseCopy (s : State) (id code : Nat) : State :=
  { s with copies := s.copies.map fun c => if c.id = id then c.refuse code else c }

/-- A read of a command in progress, or its typed send, is refused. -/
def State.refuseCopyRead (s : State) (id code : Nat) : State :=
  { s with copies := s.copies.map fun c => if c.id = id then c.refuseRead code else c }

/-- A step of Yelm that made the refused write ends with FAULT (R359). -/
def State.faultStep (s : State) (id : Nat) : State :=
  { s with dies := s.dies.map fun d =>
      { d with yelm := { d.yelm with steps := d.yelm.steps.map fun t => if t.id = id ∧ t.wrote then { t with fault := true } else t } } }

/-- A read of Ridge or Yelm is refused: the node faults, the queue's processor finds the read failed (R292, R353, R359). -/
def State.readRefused (s : State) (own : Owner) : State :=
  if own.graph = 2 ^ 20 then s.modDie own.node fun d => { d with yelm := { d.yelm with readErr := true } }
  else s.ridgeReadRefused own

/-- Meaning of ERROR_RESPONSE_ARRIVAL (R213, R338): a refusal reaches the agent that made request `id`. `code` names the refusal with the
accelerator whose access it refuses, code + 16 · accelerator. -/
def execErrorResponseArrival (agent id code : Nat) (s : State) : Host.Outcome State Fault Refusal :=
  let no : Host.Outcome State Fault Refusal := .refused (.notEnabled "ERROR_RESPONSE_ARRIVAL")
  let why := code % 16
  let acc := code / 16
  if !s.powered || !(decide (1 ≤ why) && decide (why ≤ 9)) then no
  else
    let own := s.bounced.contains (agent, id, code)
    let s : State := { s with bounced := s.bounced.erase (agent, id, code) }
    match s.remote.find? fun r => r.id == id && r.agent == agent && r.acc == acc && !r.refused with
    | some r =>
      let t : State := { s with remote := s.remote.filter fun q => q.id != id }
      if 256 ≤ agent then .next (if r.access = 0 then t.readRefused r.own else (t.ridgeAnswer r.own false).faultStep r.group)
      else if r.copy then
        .next ({ s with remote := s.remote.filter fun q => q.id != id }.refuseCopy r.group why)
      else .next (((s.markRefused id).closeGroup r.group).recordAnswered r.group)
    | none =>
      match (s.core agent).mem.loads.find? fun l => l.id == id && (farKeys l.span l.fwd).any fun k => keyAcc k == acc with
      | some l => .next (s.refuseLoad agent l why acc)
      | none =>
        match (s.core agent).mem.tlds.find? fun l => l.id == id && (l.vaOn acc).isSome with
        | some l => .next (s.refuseTld agent l acc)
        | none =>
          if s.copies.any fun c => c.id == id && c.e.own.core == agent && !c.fin then
            .next (s.refuseCopyRead id why)
          else if own then .next s
          else no

end Sys2Proof.Machine
end

