-- ==== Sys2Proof/Machine/Governor.lean ====
section
/-! DEFINITION. Draw grants and the governor of each die (R285, R304 to R306); priorities in time (R301). -/

namespace Sys2Proof.Machine

/-- Units that a grant of a class costs (R304). -/
def grantCost (cls : Nat) : Nat := if cls = 0 then 1 else if cls = 1 then 4 else 5

/-- Units a core's grant holds until GEND. -/
def Grant.units (g : Grant) (pcc : Nat) : Nat := match g.cls with | some c => if pcc < g.gend then grantCost c else 0 | none => 0

/-- Units held for a core: of the grant in force, else of one that an instance left behind (R304). -/
def Core.unitsHeld (c : Core) (pcc : Nat) : Nat := if c.grant.cls.isSome then c.grant.units pcc else c.drawn.units pcc

/-- Cores of a die. -/
def dieCores (die : Nat) : List Nat := (List.range 64).map fun k => 64 * die + k

/-- Units held on a die (R305). -/
def State.unitsHeld (s : State) (die : Nat) : Nat := ((dieCores die).map fun i => (s.core i).unitsHeld s.pcc).foldl (· + ·) 0

/-- The budget in use: half while throttling (R374). -/
def Die.budget (d : Die) : Nat := if d.throttling then d.b / 2 else d.b

/-- A waiting request stands ahead of another: earlier retire, then the lower core (R305). -/
def GrantReq.before (a b : GrantReq) : Bool := decide (a.pcc < b.pcc) || (a.pcc == b.pcc && decide (a.core < b.core))

/-- The request at the head of a die's queue. -/
def Die.head (d : Die) : Option GrantReq :=
  d.queue.foldl (fun best q => match best with | some b => if q.before b then some q else best | none => some q) none

/-- The head request, with its class and LOG, if the governor may grant it in this PCC cycle (R305). -/
def State.grantable (s : State) (die : Nat) : Option (GrantReq × Nat × Nat) :=
  let d := s.die die
  match d.head with
  | none => none
  | some q =>
    let g := (s.core q.core).grant
    match g.pend with
    | none => none
    | some (cls, log) =>
      let cost := grantCost cls
      if q.pcc < s.pcc ∧ s.unitsHeld die + d.charge + cost ≤ d.budget + (s.core q.core).unitsHeld s.pcc ∧ d.winUnits + cost ≤ d.d
      then some (q, cls, log) else none

/-- Grants one request (R285). -/
def State.grantTo (s : State) (die : Nat) (q : GrantReq) (cls log : Nat) : State :=
  let s := s.modCore q.core fun c => { c with grant := { cls := some cls, gend := s.pcc + 2 ^ log, pend := none }, drawn := default }
  s.modDie die fun d => { d with winUnits := d.winUnits + grantCost cls, queue := d.queue.erase q }

/-- Grants head requests while they fit, at most `n` (R305). -/
def State.grantHeads (s : State) (die : Nat) : Nat → State
  | 0 => s
  | n + 1 => match s.grantable die with
    | some (q, cls, log) => (s.grantTo die q cls log).grantHeads die n
    | none => s

/-- Meaning of GRANT_ISSUE (R305). -/
def execGrantIssue (die : Nat) (s : State) : Host.Outcome State Fault Refusal :=
  when "GRANT_ISSUE" (s.powered && decide (die < 4) && (s.grantable die).isSome) (s.grantHeads die (s.die die).queue.length)

/-- A grant has reached its end (R285). -/
def Grant.over (g : Grant) (pcc : Nat) : Bool := g.cls.isSome && decide (g.gend ≤ pcc)

/-- Meaning of GRANT_EXPIRY (R285): V clears on every core whose grant has ended. -/
def execGrantExpiry (s : State) : Host.Outcome State Fault Refusal :=
  when "GRANT_EXPIRY" (s.powered && s.cores.toList.any fun c => c.grant.over s.pcc)
    { s with cores := s.cores.map fun c => if c.grant.over s.pcc then { c with grant := { c.grant with cls := none } } else c }

/-- A clock event of period `n` is due: PCC is a multiple and its last time was another cycle. -/
def clockDue (pcc n last : Nat) : Bool := pcc % n == 0 && pcc != last

/-- Meaning of GOVERNOR_WINDOW (R304). -/
def execGovernorWindow (s : State) : Host.Outcome State Fault Refusal :=
  when "GOVERNOR_WINDOW" (s.powered && clockDue s.pcc 64 s.winAt)
    { s with winAt := s.pcc, dies := s.dies.map fun d => { d with winUnits := 0 } }

/-- Meaning of VECTOR_HEAVY_CHARGE (R306): 2 units for each core of the die that issued more than 256 heavy bundles without a
grant in the window that ends. -/
def execVectorHeavyCharge (s : State) : Host.Outcome State Fault Refusal :=
  when "VECTOR_HEAVY_CHARGE" (s.powered && clockDue s.pcc 1024 s.heavyAt)
    { s with
      heavyAt := s.pcc
      dies := s.dies.mapIdx fun k d => { d with charge := 2 * ((dieCores k).filter fun i => decide (256 < (s.core i).heavy)).length }
      cores := s.cores.map fun c => { c with heavy := 0 } }

/-- Meaning of PRIORITY_AGING (R301). -/
def execPriorityAging (s : State) : Host.Outcome State Fault Refusal :=
  when "PRIORITY_AGING" (s.powered && clockDue s.pcc (2 ^ 20) s.agedAt) ({ s with agedAt := s.pcc }.reprio)

end Sys2Proof.Machine
end

