-- ==== Sys2Proof/Machine/Repair.lean ====
section
/-! DEFINITION. Repair (R327, R328), soft errors and scrubbing (R189), temperature (R374). -/

namespace Sys2Proof.Machine

/-- A retired core whose instance has left it. -/
def Core.spareReady (c : Core) : Bool := c.spareDue && c.phase == .idle && c.inst.isNone

/-- Meaning of CORE_SPARE_TAKEOVER (R327, R328): a spare takes the logical number, or the number becomes unplaceable. -/
def execCoreSpareTakeover (core : Nat) (s : State) : Host.Outcome State Fault Refusal :=
  let die := dieOf core
  let left := (s.die die).spareCores
  let part := s.partOfCore core
  when "CORE_SPARE_TAKEOVER" (s.powered && decide (core < 256) && (s.core core).spareReady)
    (if 0 < left then
      ((s.modCore core fun c => { c with spareDue := false }).modDie die fun d => { d with spareCores := left - 1 }).report 1 die core
        (left - 1) part
     else
      let s := (s.modCore core fun c => { c with spareDue := false, unplaceable := true }).report 2 die core 0 part
      s.endUnheld part)

/-- Meaning of SLICE_SPARE_TAKEOVER (R327): the slice's dirty lines are written to HBM first. -/
def execSliceSpareTakeover (die slice : Nat) (s : State) : Host.Outcome State Fault Refusal :=
  let left := (s.die die).spareSlices
  when "SLICE_SPARE_TAKEOVER" (s.powered && decide (die < 4) && decide (slice < 160) && decide (0 < left))
    (((s.l2Flush fun x => (l2Place x.line).1 == 160 * die + slice).modDie die fun d => { d with spareSlices := left - 1 }).report 3 die slice
      (left - 1) 255)

/-- Meaning of HBM_ROW_BANK_SPARE (R327): the contents are copied; lines that cannot be read keep their errors. -/
def execHbmRowBankSpare (stack : Nat) (bank : Bool) (s : State) : Host.Outcome State Fault Refusal :=
  when "HBM_ROW_BANK_SPARE" (s.powered && decide (stack < 16))
    ({ s with serial := s.serial + 1 }.report (if bank then 6 else 5) (stack / 4) stack (Config.hbmSparesLeft s.serial).toNat 255)

/-- Meaning of PSEUDO_CHANNEL_REPLACE (R184, R327). -/
def execPseudoChannelReplace (stack : Nat) (s : State) : Host.Outcome State Fault Refusal :=
  when "PSEUDO_CHANNEL_REPLACE" (s.powered && decide (stack < 16) && vget s.reserve stack false)
    ({ s with reserve := vset s.reserve stack false }.report 7 (stack / 4) stack 0 255)

/-- Meaning of RIDGE_TAKEOVER (R327): the standby on die 2 goes on with the mirrored graphs. Log entry 70 for its report. -/
def execRidgeTakeover (s : State) : Host.Outcome State Fault Refusal :=
  when "RIDGE_TAKEOVER" (s.powered && s.ridgeDie == 0) ({ s with ridgeDie := 2 }.report 8 0 0 0 255)

/-! ### Errors (R189) -/

/-- The words that an error strikes. -/
def ErrPlace.same (a b : ErrPlace) : Bool :=
  match a, b with
  | .home p _, .home q _ => p / 8 == q / 8
  | .unit c, .unit d => c == d
  | _, _ => false

/-- A place that an error can strike: a word of home memory on one of the stacks, or an array of a unit (R375). -/
def errPlaceOk : ErrPlace → Bool
  | .home pa stack => decide (pa < Config.localLimit) && decide (stack < 16)
  | .unit c => let k := fld c 7 0; (decide (1 ≤ k) && decide (k ≤ 0x14)) && (decide (fld c 31 16 < 256) || fld c 31 16 == 0xFFFF)

/-- Meaning of SOFT_ERROR (R189): bits of one word go wrong; two wrong bits or more are uncorrectable. -/
def execSoftError (place : ErrPlace) (bits : Nat) (s : State) : Host.Outcome State Fault Refusal :=
  let old := s.errs.find? fun e => ErrPlace.same e.place place
  when "SOFT_ERROR" (s.powered && decide (1 ≤ bits) && errPlaceOk place)
    { s with errs := { place := place, bits := bits + (match old with | some e => e.bits | none => 0) } ::
               s.errs.filter fun e => !ErrPlace.same e.place place }

/-- Meaning of SCRUB (R189): single-bit errors of the line are corrected; an uncorrectable one is counted, stays, and is
reported, for it has no consumer (log entry 10). -/
def execScrub (pa : Nat) (s : State) : Host.Outcome State Fault Refusal :=
  let r := s.meetErrs (s.errs.filter fun e => match e.place with | .home p _ => p / 128 == pa / 128 | .unit _ => false)
  when "SCRUB" (s.powered && decide (pa < Config.localLimit)) (if r.2.isSome then r.1.openReport else r.1)

/-! ### Temperature (R374) -/

/-- A die has a temperature: it throttles from its throttle point on, until it is 5 °C below it. -/
def Die.heat (d : Die) (deg : Nat) : Die :=
  { d with temp := deg, throttling := decide (d.throttleAt ≤ deg) || (d.throttling && decide (d.throttleAt < deg + 5)) }

/-- Every instance on a die is killed under kill-self. -/
def State.killDie (s : State) (die : Nat) : State :=
  (dieCores die).foldl (fun s i => match (s.core i).inst with
    | some x => if (s.core i).phase = .retiring then s else s.killGroup x.graph x.node 0 x.idx
    | none => s) s

/-- A die has a temperature: at 110 °C its instances are killed, a report is sent, and it issues nothing until RESET. -/
def State.heatDie (s : State) (die temp : Nat) : State :=
  if 110 ≤ temp ∧ !(s.die die).shut then ((s.modDie die fun d => { d.heat temp with shut := true }).killDie die).openReport
  else s.modDie die fun d => d.heat temp

/-- Meaning of THROTTLE_ENTRY: the die has reached its throttle point. -/
def execThrottleEntry (die temp : Nat) (s : State) : Host.Outcome State Fault Refusal :=
  let d := s.die die
  when "THROTTLE_ENTRY" (s.powered && decide (die < 4) && !d.throttling && decide (d.throttleAt ≤ temp) && decide (temp < 256))
    (s.heatDie die temp)

/-- Meaning of THROTTLE_EXIT: the die is 5 °C below its throttle point. -/
def execThrottleExit (die temp : Nat) (s : State) : Host.Outcome State Fault Refusal :=
  let d := s.die die
  when "THROTTLE_EXIT" (s.powered && decide (die < 4) && d.throttling && decide (temp + 5 ≤ d.throttleAt))
    (s.modDie die fun d => d.heat temp)

/-- Meaning of OVERTEMP_SHUTDOWN: the die's instances are killed, a report is sent, and it issues nothing until RESET. -/
def execOvertempShutdown (die temp : Nat) (s : State) : Host.Outcome State Fault Refusal :=
  when "OVERTEMP_SHUTDOWN" (s.powered && decide (die < 4) && decide (110 ≤ temp) && decide (temp < 256) && !(s.die die).shut)
    (s.heatDie die temp)

/-- A die's sensor gives its temperature. -/
def senseTemp (die deg : Nat) (s : State) : Host.Outcome State Fault Refusal :=
  when "INPUT" (s.powered && decide (die < 4) && decide (deg < 256)) (s.heatDie die deg)

end Sys2Proof.Machine
end

