-- ==== Sys2Proof/Machine/Fabric.lean ====
section
/-! DEFINITION. Purlin ports (R331 to R342): requests from elsewhere, fence counters, shares, links and lanes. -/

namespace Sys2Proof.Machine

/-! ### Requests that arrive (R337 to R339, R341) -/

/-- Answers to requests that came in by a port leave on the route to their source (R369), and not by the port itself: it is in native mode, or
down. A port in UALink 1.0 mode answers by itself. -/
def Port.routed (p : Port) : Bool := p.native || !p.up

/-- An answer to a request leaves in its tenant, to its source and agent (R338): on the route to the source, or by the port it came in on. -/
def State.answerBy (s : State) (routed : Bool) (p : Nat) (f : Flit) (cls : Nat) (payload : List Byte) : State :=
  let a : Flit := { dst := f.src, src := s.accNum, ten := f.ten, ktag := (assoc s.outKeys f.ten).getD 0, cls := cls, tyw := false
                    agent := f.agent, epoch := f.epoch, len := payload.length, vch := 1, pa := f.pa, payload := payload }
  if routed then s.sendFlit 0 a else s.queueFlit p 0 a

/-- An answer from a port as it stands. -/
def State.answer (s : State) (p : Nat) (f : Flit) (cls : Nat) (payload : List Byte) : State := s.answerBy (s.port p).routed p f cls payload

/-- A refusal is counted for its tenant at the port (R339). -/
def State.countRefused (s : State) (p ten : Nat) : State := s.modPort p fun q => q.count ten fun c => { c with refused := c.refused + 1 }

/-- What an error response carries (R334): the code and the refused class. -/
def refusalBytes (f : Flit) (code : Nat) : List Byte := toBytes 2 code ++ toBytes 2 f.cls

/-- A refusal: counted, and answered (R338). -/
def State.refuseFlit (s : State) (p : Nat) (f : Flit) (code : Nat) : State := (s.countRefused p f.ten).answer p f 6 (refusalBytes f code)

/-- Mask of a write (R334). -/
def flMask (f : Flit) : Nat := ofBytes (f.payload.take 16)

/-- Offsets that a write's mask selects. -/
def flMaskBytes (f : Flit) : List Nat := (List.range 128).filter fun j => (flMask f).testBit j

/-- First halfword of an Atomic (R334). -/
def flCtl (f : Flit) : Nat := ofBytes (f.payload.take 2)

/-- Bytes that an Atomic works on: 16 for a record step, else 4 or 8. -/
def flAtomicBytes (f : Flit) : Nat := if (flCtl f).testBit 14 then 16 else if flCtl f / 16 % 4 = 0 then 4 else 8

/-- Bytes of home memory a request addresses; a typed send or a stream addresses none here. -/
def flAddressed (f : Flit) : List Nat :=
  if f.cls = 0 then (List.range f.len).map fun j => f.pa + j
  else if f.cls = 1 then (flMaskBytes f).map fun j => f.pa + j
  else if f.cls = 2 then (List.range (flAtomicBytes f)).map fun j => f.pa + j
  else []

/-- A response or completion class (R334): 3 to 6, 8 and 11. -/
def flIsAnswer (f : Flit) : Bool := [3, 4, 5, 6, 8, 11].contains f.cls

/-- LEN is in range for the class (R333, R334). -/
def flLenOk (f : Flit) : Bool :=
  let n := f.len
  match f.cls with
  | 0 => decide (1 ≤ n) && decide (f.pa % 128 + n ≤ 128)
  | 1 => decide (16 ≤ n) && decide (n ≤ 144)
  | 2 => n == (if (flCtl f).testBit 14 || (flCtl f).testBit 15 then 24 else 16)
  | 3 => decide (1 ≤ n) && decide (n ≤ 128)
  | 4 | 8 => n == 0
  | 5 => n == 0 || n == 4 || n == 8
  | 6 | 7 => n == 4
  | 9 => decide (n ≤ 240) && (if f.tyw then decide (16 < n) else decide (1 ≤ n))
  | _ => decide (n ≤ 240)

/-- A protocol error (R339), but for credits. -/
def flMalformed (f : Flit) : Bool :=
  decide (12 ≤ f.cls) || decide (3 ≤ f.vch) || decide (261 ≤ f.agent) || f.payload.length != (if f.cls = 0 then 0 else f.len) || !flLenOk f ||
  (f.cls == 1 && !(flMaskBytes f).all fun j => decide (f.pa % 128 + j < 128) && decide (16 + j < f.len))

/-- An Atomic that `amo`, `cas` or a record step sends, aligned within its line. -/
def flAtomicOk (f : Flit) : Bool :=
  let c := flCtl f
  let op := c % 16
  let size := c / 16 % 4
  f.pa % flAtomicBytes f == 0 && c / 64 % 256 == 0 && (ofBytes ((f.payload.drop 2).take 6)) == 0 &&
  (if c.testBit 14 then op == 0 && size == 0 && !c.testBit 15 else decide (size ≤ 1) && (if c.testBit 15 then op == 0 else decide (op ≤ 8)))

/-- Bit of CLSM that a class needs (R337). -/
def clsBit (cls : Nat) : Nat := if cls = 0 then 60 else if cls ≤ 2 then 61 else 62

/-- Tenant of a flit at a port: its own field, or the source table's in UALink mode (R341). -/
def Port.tenantOf (p : Port) (f : Flit) : Option Nat := if p.native then some f.ten else assoc p.sources f.src

/-- What the port finds in a request, in the order of R338: refused with a code, a protocol error, or to be performed. -/
inductive Verdict where
  | refuse (code : Nat)
  | fence
  | serve
  deriving DecidableEq, Repr

/-- The checks of R338 and R339, of which CLSM has no bit for a release marker; `excess` says that the flit is beyond the tenant's credits. A tenant is fenced only by a flit that carries
its key. -/
def State.judge (s : State) (p : Port) (f : Flit) (excess : Bool) : Verdict :=
  match (p.tenantOf f).bind fun t => assoc p.keys t with
  | none => .refuse 1
  | some e =>
    if !bit e 63 then .refuse 1
    else if p.native && f.ktag.toNat != fld e 55 40 then .refuse 2
    else if excess || flMalformed f then .fence
    else if f.cls != 7 && !bit e (clsBit f.cls) then .refuse 3
    else if !((flAddressed f).all fun a => decide (fld e 19 0 * 2 ^ 20 ≤ a) && decide (a < (fld e 39 20 + 1) * 2 ^ 20) &&
        decide (a < Config.localLimit)) then .refuse 4
    else if s.domain ≤ f.dst then .refuse 5
    else if !p.native && (decide (3 ≤ f.cls) || (f.cls == 2 && (!flAtomicOk f || (flCtl f).testBit 14))) then .refuse 6
    else if (match p.tenantOf f with | some t => p.fenced.contains t | none => false) then .refuse 7
    else .serve

/-- New value of an Atomic, for an old one (R217, R218, R334). -/
def flNewValue (f : Flit) (old : Nat) : Nat :=
  let w := 8 * flAtomicBytes f
  let v := ofBytes ((f.payload.drop 8).take 8) % 2 ^ w
  if (flCtl f).testBit 15 then (if old = ofBytes ((f.payload.drop 16).take 8) % 2 ^ w then v else old) else amoNew w (flCtl f % 16) old v

/-- The entry of a tree, leaf or stage, whose stream arrives here from an accelerator at a router's input (R331, R343). -/
def Tree.source (t : Tree) (acc die inp src : Nat) : Option (Bool × TreeNode) :=
  let here (x : TreeNode) : Bool := x.acc == src && x.inp == inp && match x.parent with
    | some p => (match t.stages[p]? with | some g => g.acc == acc && g.die == die | none => false)
    | none => false
  match t.leaves.find? here with
  | some l => some (true, l)
  | none => (t.stages.find? here).map fun g => (false, g)

/-- A stream that another accelerator's leaf or stage has sent arrives in full at a stage here, on the input that its port numbers
(R331, R343, R344). -/
def State.streamIn (s : State) (m : PartMsg) (side : StreamSide) : State :=
  let tree := m.tag % 2 ^ 16
  match s.trees.find? fun t => t.num == tree with
  | none => s
  | some t =>
    match t.source s.accNum (m.port / 12) (m.port % 12) m.src with
    | none => s
    | some (isLeaf, x) =>
      let stage := x.parent.getD 0
      let y := risingPart none (streamEntries (bit side.rc 48) m.bytes)
      let ok := m.tenant == t.ten
      let segs : List Segment :=
        if !ok then []
        else if isLeaf then [{ dense := false, first := 0, entries := y.1 }]
        else records m.bytes (m.bytes.length / 8)
      let marks : List (Nat × BitVec 9) := if isLeaf then [(x.acc, if !ok then 16 else if y.2 then 32 else 0)] else side.marks
      let st : Stream := { tree := tree, round := side.round, stage := stage, inp := x.inp, segs := segs, ra := side.ra, vf := bit side.rc 48
                           dz := bit side.rc 49, thr := fld side.rc 63 56, marks := marks, left := side.left }
      { s with streams := s.streams ++ [st] }
where
  /-- Reads records in the layout of R347, at most `n`. -/
  records (b : List Byte) : Nat → List Segment
    | 0 => []
    | n + 1 =>
      if b.length < 8 then []
      else
        let d := ofBytes (b.take 8)
        let count := d >>> 32 % 2 ^ 17
        let first := d % 2 ^ 32
        if d.testBit 63 then
          let len := (4 * count + 7) / 8 * 8
          let es := (List.range count).map fun j => (first + j, BitVec.ofNat 32 (ofBytes (((b.drop 8).drop (4 * j)).take 4)))
          { dense := true, first := first, entries := es } :: records ((b.drop 8).drop len) n
        else
          { dense := false, first := first, entries := streamEntries false ((b.drop 8).take (8 * count)) } ::
            records ((b.drop 8).drop (8 * count)) n

/-- The flit belongs to the message. -/
def PartMsg.of (m : PartMsg) (port : Nat) (f : Flit) : Bool :=
  m.port == port && m.tenant == f.ten && m.src == f.src && m.agent == f.agent && m.cls == f.cls && m.tag == f.pa

/-- Two flits of one message. -/
def sameMessage (f g : Flit) : Bool := f.ten == g.ten && f.src == g.src && f.agent == g.agent && f.cls == g.cls && f.pa == g.pa

/-- Bytes of a typed send, by its first ones (R342). -/
def sendBytes (b : List Byte) : Nat := imageSize (BitVec.ofNat 128 (ofBytes (b.take 16))) + 16

/-- The bytes of the typed send that flits `fs` of its message end with, where `held` have been delivered: from the last first flit on. -/
def sendSoFar (held : List Byte) (fs : List Flit) : List Byte :=
  fs.foldl (fun b g => if g.tyw then g.payload else b ++ g.payload) held

/-- A message of which flits have been accepted at the port is still to go on: a typed send that lacks bytes, a stream without its last flit. -/
def State.openMessage (s : State) (port : Nat) (f : Flit) : Bool :=
  let waiting := ((s.port port).inq.map (·.1)).filter (sameMessage f)
  let part := s.partials.find? fun m => m.of port f
  if f.cls = 9 then
    let b := sendSoFar ((part.map PartMsg.bytes).getD []) waiting
    !b.isEmpty && decide (b.length < sendBytes b)
  else match waiting.getLast? with
  | some g => !((g.side.map StreamSide.last).getD true)
  | none => part.isSome

/-- Keeps the first `n` elements that satisfy `p`, and all that do not. -/
def keepFirst {α : Type} (p : α → Bool) : Nat → List α → List α
  | _, [] => []
  | n, x :: r =>
    if p x then (match n with | 0 => keepFirst p 0 r | m + 1 => x :: keepFirst p m r) else x :: keepFirst p n r

/-- Changes the first element that satisfies `p`. -/
def modFirst {α : Type} (p : α → Bool) (f : α → α) : List α → List α
  | [] => []
  | x :: r => if p x then f x :: r else x :: modFirst p f r

/-- What has come of a typed send in progress is discarded (R342, R348): from its first flit on, behind sends that have come whole. -/
def State.dropMessage (s : State) (port : Nat) (f : Flit) : State :=
  if !s.openMessage port f then s
  else
    let mine := ((s.port port).inq.map (·.1)).filter (sameMessage f)
    let behind := ((mine.reverse.dropWhile fun g => !g.tyw).drop 1).length
    { s.modPort port fun q => { q with inq := keepFirst (fun g => sameMessage f g.1) behind q.inq } with
      partials := if mine.any Flit.tyw then s.partials else s.partials.filter fun m => !m.of port f }

/-- A stream in progress ends with the flits of it that have been accepted, which are performed (R348; log entry 15). -/
def State.cutStream (s : State) (port : Nat) (f : Flit) : State :=
  let ended (g : Flit) : Flit := { g with side := g.side.map fun x => { x with last := true } }
  if !s.openMessage port f then s
  else if (s.port port).inq.any fun g => sameMessage f g.1 then
    s.modPort port fun q => { q with inq := (modFirst (fun g => sameMessage f g.1) (fun g => (ended g.1, g.2)) q.inq.reverse).reverse }
  else match s.partials.find? fun m => m.of port f with
    | some m => { s with partials := s.partials.filter fun x => !x.of port f }.streamIn m (f.side.getD default)
    | none => s

/-- A message in progress cannot go on: a typed send is discarded whole, of a stream what has been accepted stays (R348). -/
def State.endMessage (s : State) (port : Nat) (f : Flit) : State :=
  if f.cls = 9 then s.dropMessage port f else s.cutStream port f

/-- A flit of a typed send or a stream is delivered; the last one completes the message (R342, R343). -/
def State.joinMessage (s : State) (port : Nat) (f : Flit) : State :=
  let m := (s.partials.find? fun m => m.of port f).getD
    { port := port, tenant := f.ten, src := f.src, agent := f.agent, cls := f.cls, tag := f.pa, bytes := [] }
  let m := { m with bytes := m.bytes ++ f.payload }
  let rest := s.partials.filter fun x => !x.of port f
  if f.cls = 9 then
    let ty : TypeWord := BitVec.ofNat 128 (ofBytes (m.bytes.take 16))
    if sendBytes m.bytes ≤ m.bytes.length then
      let q : Send := { id := s.serial, port := port, tenant := f.ten, src := f.src, agent := f.agent, tag := f.pa % 2 ^ 16, ty := ty
                        image := m.bytes.drop 16, pcc := s.pcc }
      { s with sends := s.sends ++ [q], serial := s.serial + 1, partials := rest }
    else { s with partials := rest ++ [m] }
  else
    let side := f.side.getD default
    if side.last then { s with partials := rest }.streamIn m side else { s with partials := rest ++ [m] }

/-- Performs a request to home memory that has passed its checks, and gives its answer's class and payload (R334, R338). A record step may tell of
a grid's end, so an agent that reads its words sees what it publishes (R209; log entry 71). -/
def State.perform (s : State) (p : Nat) (f : Flit) : State × Nat × List Byte :=
  let near := flAddressed f
  let rd := s.checkRead (s.metKeys (f.cls == 2) near)
  let failed (s : State) : State × Nat × List Byte := (s.countRefused p f.ten, 6, refusalBytes f 8)
  if f.cls = 0 then
    match rd.2 with
    | some _ => failed rd.1
    | none => (rd.1, 3, near.map rd.1.readHome)
  else if f.cls = 1 then
    let ds := (flMaskBytes f).map fun j =>
      ({ key := f.pa + j, val := (f.payload.drop (16 + j)).headD 0, mask := 0xFF, obj := none, ser := 0, cmp := false } : DirtyByte)
    if (s.blockedWrites ds).isEmpty then (s.flushBytes ds, 4, []) else failed s.countDouble
  else
    match rd.2 with
    | some _ => failed rd.1
    | none =>
      let s := rd.1
      if (flCtl f).testBit 14 then
        let t := (s.recordStep near (word (ofBytes ((f.payload.drop 8).take 8))) (word (ofBytes ((f.payload.drop 16).take 8)))).takePlace
          { acc := f.src, agent := f.agent, uid := 0, tenant := f.ten, part := 0, scope := 4, kind := .add f.pa }
        let words := [f.pa / 8, f.pa / 8 + 1]
        ({ t with news := words.filter (fun w => !t.news.contains w) ++ t.news }, 5, [])
      else
        let old := ofBytes (near.map s.readHome)
        (s.writeHomes (near.zip (toBytes (flAtomicBytes f) (flNewValue f old))), 5, toBytes (flAtomicBytes f) old)

/-- A flit for another accelerator goes on along its route (R331, R335). -/
def State.transit (s : State) (port : Nat) (f : Flit) : State :=
  match s.routePort f.dst with
  | some p => s.queueFlit p 0 f
  | none => if flIsRequest f then s.refuseFlit port f 9 else s

/-- A protocol error fences the tenant at the port, is counted, reported and answered (R339). -/
def State.fenceTenant (s : State) (port : Nat) (f : Flit) : State :=
  ((s.modPort port fun q =>
    { q.count f.ten fun c => { c with errors := c.errors + 1 } with
      fenced := if q.fenced.contains f.ten then q.fenced else f.ten :: q.fenced }).openReport).refuseFlit port f 7

/-- A flit is accepted: the port's round robin is to serve it (R340). A request to home memory here is performed at once, and so before any
request that is accepted later, at whatever port or from this package (R207); its answer waits its turn (log entry 75). -/
def State.accept (s : State) (port : Nat) (f : Flit) : State :=
  if f.dst = s.accNum ∧ f.cls ≤ 2 then
    let r := s.perform port f
    r.1.modPort port fun q => { q with inq := q.inq ++ [(f, some r.2)] }
  else s.modPort port fun q => { q with inq := q.inq ++ [(f, none)] }

/-- The round robin serves a flit that has been accepted (R340): its answer leaves; a flit for another accelerator goes on along its route; a
flit of a message is delivered. An answer's effect is that of its own event; a release marker has none beyond its source's package (R335). -/
def State.serveFlit (s : State) (p : Nat) (x : Flit × Option (Nat × List Byte)) : State :=
  match x.2 with
  | some a => s.answer p x.1 a.1 a.2
  | none =>
    if x.1.dst ≠ s.accNum then s.transit p x.1
    else if x.1.cls = 9 ∨ x.1.cls = 10 then s.joinMessage p x.1
    else s

/-- A later flit of a typed send or of a stream. -/
def flLater (f : Flit) : Bool := (f.cls == 9 && !f.tyw) || (f.cls == 10 && !((f.side.map StreamSide.first).getD true))

/-- Meaning of PORT_REQUEST_CHECK (R338, R339, R342): a flit arrives. A request, by its first flit, is judged; a later flit shares the fate
of its message, and an answer to this package is counted, its effect being that of its own event; an error response is never checked. A port in
UALink 1.0 mode judges every request, for it carries no messages (R341). The number of a tenant's credits the spec leaves open (log entry 69). An
Atomic that names no operation of R334 has no effect in the spec. -/
def execPortRequestCheck (port : Nat) (f : Arrival) (s : State) : Host.Outcome State Fault Refusal :=
  let p := s.port port
  let excess := f.excess
  let w := f.flit.onWire
  let ten := (p.tenantOf w).getD w.ten
  let f := { w with ten := ten }
  let no : Host.Outcome State Fault Refusal := .refused (.notEnabled "PORT_REQUEST_CHECK")
  if !(s.powered && decide (port < 48) && p.up) then no
  else if f.cls = 6 then .next (s.accept port f)
  else if flIsAnswer f ∨ (f.dst ≠ s.accNum ∧ f.dst < s.domain) then
    .next (if excess || flMalformed f then s.fenceTenant port f
      else if p.fenced.contains ten then s.refuseFlit port f 7
      else s.accept port f)
  else if p.native ∧ flLater f then
    .next (if excess || flMalformed f then (s.endMessage port f).fenceTenant port f
      else if p.fenced.contains ten then (s.endMessage port f).refuseFlit port f 7
      else if s.openMessage port f then s.accept port f
      else s)
  else
    match s.judge p f excess with
    | .refuse code => .next (s.refuseFlit port f code)
    | .fence => .next (s.fenceTenant port f)
    | .serve => if f.cls = 2 ∧ !flAtomicOk f then no else .next (s.accept port f)

/-! ### Fence counters (R336) -/

/-- Changes the fence counter of a port's route for an epoch, which starts at 0. -/
def Die.fence (d : Die) (port src agent epoch : Nat) (g : FenceCount → FenceCount) : Die :=
  let mine (c : FenceCount) : Bool := c.port == port && c.src == src && c.agent == agent && c.epoch == epoch
  let c := (d.fences.find? mine).getD { port := port, src := src, agent := agent, epoch := epoch, passed := 0, marker := none }
  { d with fences := d.fences.filter (fun x => !mine x) ++ [g c] }

/-- A release marker is counted by the router (R336). -/
def State.countMarker (s : State) (p : Nat) (f : Flit) : State :=
  s.modDie (p / 12) fun d => d.fence p f.src f.agent f.epoch fun c => { c with marker := some (ofBytes (f.payload.take 4)) }

/-- A flit of this package passes its first router: writes by native ports are counted (R207, R336), markers stay there. -/
def State.passRouter (s : State) (p : Nat) (f : Flit) : State :=
  if f.cls = 1 ∧ (s.port p).native then
    s.modDie (p / 12) fun d => d.fence p f.src f.agent f.epoch fun c => { c with passed := c.passed + 1 }
  else if f.cls = 7 then s.modDie (p / 12) fun d => { d with markers := d.markers ++ [(p, f)] }
  else s

/-- Meaning of RELEASE_MARKER (R336): the router counts a marker that has reached it. -/
def execReleaseMarker (die : Nat) (f : Flit) (s : State) : Host.Outcome State Fault Refusal :=
  match (s.die die).markers.find? fun m => m.2 == f with
  | some m => when "RELEASE_MARKER" (s.powered && decide (die < 4))
      ((s.modDie die fun d => { d with markers := d.markers.erase m }).countMarker m.1 f)
  | none => .refused (.notEnabled "RELEASE_MARKER")

/-- The epoch is complete on its route. -/
def FenceCount.done (c : FenceCount) : Bool := match c.marker with | some n => decide (n ≤ c.passed) | none => false

/-- The release of the agent's epoch hears from one route (R207). -/
def RelOp.heard (r : RelOp) (agent epoch port : Nat) : RelOp :=
  if r.agent = agent ∧ r.epoch = some epoch then { r with routes := r.routes.filter fun x => x.1 != port } else r

/-- Meaning of RELEASE_COMPLETION (R207, R336). -/
def execReleaseCompletion (die src agent epoch : Nat) (s : State) : Host.Outcome State Fault Refusal :=
  match (s.die die).fences.find? fun c => c.src == src && c.agent == agent && c.epoch == epoch && c.done with
  | none => .refused (.notEnabled "RELEASE_COMPLETION")
  | some c =>
    let upd (m : CoreMem) : CoreMem := { m with rels := m.rels.map fun r => r.heard agent epoch c.port }
    when "RELEASE_COMPLETION" (s.powered && decide (die < 4))
      { s.modDie die (fun d => { d with fences := d.fences.erase c }) with
        cores := s.cores.map fun x => { x with mem := upd x.mem }
        saved := s.saved.map fun v => { v with core := { v.core with mem := upd v.core.mem } }
        oldRels := s.oldRels.map fun o => { o with rel := o.rel.heard agent epoch c.port } }

/-! ### Shares (R340) -/

/-- Valid share entries of a direction, ascending by index: tenant and weight. -/
def Port.shareTable (p : Port) (inbound : Bool) : List (Nat × Nat) :=
  ((sortBy (fun e => e.1.2) (p.shares.filter fun e => e.1.1 == inbound && bit e.2 63)).map fun e => (fld e.2 19 8, fld e.2 7 0))

/-- Tenants with flits waiting, in the order a round visits them, with their weights. -/
def Port.visits (p : Port) (inbound : Bool) : List (Nat × Nat) :=
  let waiting := ((if inbound then p.inq.map (·.1) else p.outq.map (·.2)).map fun f => f.ten).eraseDups
  let table := p.shareTable inbound
  let listed := (table.map (·.1)).eraseDups
  (listed.filter fun t => waiting.contains t).map (fun t => (t, ((table.find? fun e => e.1 == t).map (·.2)).getD 1)) ++
  (sortBy id (waiting.filter fun t => !listed.contains t)).map fun t => (t, 1)

/-- What a tenant sends in its turn, oldest first, while its deficit is at least the 256 bytes of a flit, and the deficit left; an empty
queue leaves none (R340). -/
def sendTurn {α : Type} : List α → Nat → List α × Nat
  | [], _ => ([], 0)
  | f :: fs, d => if 256 ≤ d then let r := sendTurn fs (d - 256); (f :: r.1, r.2) else ([], d)

/-- One visit: the tenant's deficit grows, and it sends: outward past the first router, inward to be served. -/
def State.visit (s : State) (port : Nat) (inbound : Bool) (ten w : Nat) : State :=
  let p := s.port port
  let old := ((p.deficit.find? fun d => d.1 == (inbound, ten)).map (·.2)).getD 0
  let ins := sendTurn (if inbound then p.inq.filter fun f => f.1.ten == ten else []) (old + 256 * w)
  let outs := sendTurn (if inbound then [] else p.outq.filter fun f => f.2.ten == ten) (old + 256 * w)
  let n := ins.1.length + outs.1.length
  let s := s.modPort port fun p =>
    let p := p.count ten fun c => if inbound then { c with inFlits := c.inFlits + n } else { c with outFlits := c.outFlits + n }
    let flits := p.flits + n
    { p with
      inq := ins.1.foldl List.erase p.inq
      outq := outs.1.foldl List.erase p.outq
      deficit := ((inbound, ten), if inbound then ins.2 else outs.2) :: p.deficit.filter fun d => d.1 != (inbound, ten)
      flits := flits % 2 ^ 20
      corr := if 2 ^ 20 ≤ flits then p.corr.map fun _ => 0 else p.corr }
  outs.1.foldl (fun s f => s.passRouter port f.2) (ins.1.foldl (fun s f => s.serveFlit port f) s)

/-- Meaning of DEFICIT_ROUND (R340): direction 0 outbound, 1 inbound. -/
def execDeficitRound (port dir : Nat) (s : State) : Host.Outcome State Fault Refusal :=
  let vs := (s.port port).visits (dir == 1)
  when "DEFICIT_ROUND" (s.powered && decide (port < 48) && decide (dir < 2) && (s.port port).up && !vs.isEmpty)
    (vs.foldl (fun s v => s.visit port (dir == 1) v.1 v.2) s)

/-! ### Links (R331, R332) -/

/-- A port goes down or changes mode: what is queued on it is dropped (R331). Dropped writes count as passed (R207), markers as counted;
dropped requests, waiting typed sends among them (R348), are answered with code 9, and those already performed with their answers, on the
route to their source where the port was in native mode or is now down. -/
def State.portDown (s : State) (p : Nat) (f : Port → Port) : State :=
  let routed := (s.port p).native || !(f (s.port p)).up
  let outs := (s.port p).outq
  let ins := (s.port p).inq
  let waiting := s.sends.filter fun x => x.port == p
  let parts := s.partials.filter fun x => x.port == p
  let s := outs.foldl (fun s q => if q.2.cls = 7 then s.countMarker p q.2 else s.passRouter p q.2) s
  let s := { s.modPort p fun x => f { x with outq := [], inq := [], deficit := [] } with
    sends := s.sends.filter fun x => x.port != p, partials := s.partials.filter fun x => x.port != p }
  let blank (m : PartMsg) : Flit := { dst := s.accNum, src := m.src, ten := m.tenant, ktag := 0, cls := m.cls, tyw := false, agent := m.agent
                                      epoch := 0, len := 0, vch := 0, pa := m.tag, payload := [] }
  let far := (outs.filter fun q => q.2.src != s.accNum && flIsRequest q.2).map (·.2) ++
    ((ins.filter fun q => q.2.isNone && flIsRequest q.1).map (·.1)) ++ parts.map blank ++
    waiting.map fun x => blank { port := p, tenant := x.tenant, src := x.src, agent := x.agent, cls := 9, tag := x.tag, bytes := [] }
  -- a message is answered once
  let far := far.foldl (fun l g => if (g.cls == 9 || g.cls == 10) && l.any (sameMessage g) then l else l ++ [g]) ([] : List Flit)
  let s := (outs.filter fun q => q.2.src == s.accNum).foldl (fun s q => s.bounce q.1 9 q.2) s
  let s := ins.foldl (fun s q => match q.2 with | some a => s.answerBy routed p q.1 a.1 a.2 | none => s) s
  far.foldl (fun s g => (s.countRefused p g.ten).answerBy routed p g 6 (refusalBytes g 9)) s

/-- A lane of a port is retired (R332): the spare takes its place, or the port runs on fewer, or goes down. -/
def State.retireLane (s : State) (port lane : Nat) : State :=
  let p := s.port port
  if p.spare then (s.modPort port fun p => { p with spare := false, corr := p.corr.set lane 0 }).report 4 (port / 12) port 0 255
  else
    let less (p : Port) : Port := { p with lanes := p.lanes - 1, corr := p.corr.eraseIdx lane }
    if p.lanes ≤ 2 then s.portDown port less else s.modPort port less

/-- Meaning of FLIT_CRC_RETRY (R332): the flit goes again; one more corrected error of the lane, which is retired where the errors pass
the threshold. -/
def execFlitCrcRetry (l : PortLane) (s : State) : Host.Outcome State Fault Refusal :=
  let port := l.port
  let lane := l.lane
  let n := ((s.port port).corr[lane]?).getD 0 + 1
  let t := s.modPort port fun p => { p with corr := p.corr.set lane n }
  when "FLIT_CRC_RETRY" (s.powered && decide (port < 48) && (s.port port).up && decide (lane < (s.port port).lanes))
    (if (s.port port).thresh < n then t.retireLane port lane else t)

/-- Meaning of LANE_SWITCH (R332): a lane has failed. -/
def execLaneSwitch (l : PortLane) (s : State) : Host.Outcome State Fault Refusal :=
  when "LANE_SWITCH" (s.powered && decide (l.port < 48) && decide (l.lane < (s.port l.port).lanes)) (s.retireLane l.port l.lane)

end Sys2Proof.Machine
end

