-- ==== Sys2Proof/Machine/Comb.lean ====
section
/-! DEFINITION. Comb (R343 to R347): merge stages and the root's output. -/

namespace Sys2Proof.Machine

/-- The sum of two values of a stream (R345). -/
def combSum (vf : Bool) (a b : BitVec 32) : BitVec 32 :=
  let f := if vf then bf16 else fp32
  BitVec.ofNat 32 (f.round .rne (exactSum .rne [f.decode a.toNat, f.decode b.toNat])).1

/-- The value is +0 or -0. -/
def combZero (vf : Bool) (x : BitVec 32) : Bool := if vf then x.toNat % 2 ^ 15 == 0 else x.toNat % 2 ^ 31 == 0

/-- Entries of all segments of an input that lie in segment g. -/
def segEntries (segs : List Segment) (g : Nat) : List (Nat × BitVec 32) :=
  segs.flatMap fun x => x.entries.filter fun e => e.1 / 65536 == g

/-- Joins entries of equal index that stand next to each other, in input order, with whether a sum formed the value. -/
def joinEqual (vf : Bool) : List (Nat × BitVec 32 × Bool) → List (Nat × BitVec 32) → List (Nat × BitVec 32 × Bool)
  | acc, [] => acc.reverse
  | (i, v, b) :: acc, (j, w) :: r =>
    if i = j then joinEqual vf ((i, combSum vf v w, true) :: acc) r else joinEqual vf ((j, w, false) :: (i, v, b) :: acc) r
  | [], (j, w) :: r => joinEqual vf [(j, w, false)] r

/-- Segment g of a stage's output (R345, R346), from its inputs in ascending number. -/
def mergeSegment (vf dz : Bool) (thr : Nat) (ins : List (List Segment)) (g : Nat) : List Segment :=
  let wasDense := ins.any fun segs => segs.any fun x => x.dense && x.first / 65536 == g
  let all := sortBy (·.1) (ins.flatMap fun segs => segEntries segs g)
  let sums := joinEqual vf [] all
  let kept := sums.filter fun e => !(dz && !wasDense && e.2.2 && combZero vf e.2.1)
  match kept.head?, kept.getLast? with
  | some lo, some hi =>
    let n := kept.length
    if wasDense || decide (thr * (hi.1 - lo.1 + 1) < 256 * n) || decide (4096 < n) then
      [{ dense := true, first := lo.1
         entries := (List.range (hi.1 - lo.1 + 1)).map fun k =>
           (lo.1 + k, match kept.find? fun e => e.1 == lo.1 + k with | some e => e.2.1 | none => 0) }]
    else [{ dense := false, first := lo.1, entries := kept.map fun e => (e.1, e.2.1) }]
  | _, _ => []

/-- A stage's output (R345, R346). -/
def mergeStreams (vf dz : Bool) (thr : Nat) (ins : List (List Segment)) : List Segment :=
  let gs := (sortBy id (ins.flatMap fun segs => segs.flatMap fun x => x.entries.map fun e => e.1 / 65536)).eraseDups
  gs.flatMap (mergeSegment vf dz thr ins)

/-- A record of R347. -/
def recordBytes (x : Segment) : List Byte :=
  let n := x.entries.length
  let d := b2n x.dense <<< 63 ||| n <<< 32 ||| (x.entries.headD (0, 0)).1
  let body := if x.dense then x.entries.flatMap fun e => toBytes 4 e.2.toNat
    else x.entries.flatMap fun e => toBytes 4 e.1 ++ toBytes 4 e.2.toNat
  toBytes 8 d ++ body ++ List.replicate ((8 - body.length % 8) % 8) 0

/-- The parent number that the root's merged stream is held under. -/
def rootStage : Nat := 0xFFF

/-- The inputs of a stage: the numbers of its leaf and stage inputs, ascending. -/
def Tree.inputs (t : Tree) (stage : Nat) : List Nat :=
  sortBy id (((t.leaves ++ t.stages).filter fun n => n.parent == some stage).map fun n => n.inp)

/-- Two streams agree on RA, VF, DZ and THR (R343). -/
def Stream.agrees (a b : Stream) : Bool := a.ra == b.ra && a.vf == b.vf && a.dz == b.dz && a.thr == b.thr

/-- The streams of a round at a stage, ascending by input, once all are there. An input whose leaves differ in their parameters brings
a stream for each set of parameters. -/
def State.stageIns (s : State) (t : Tree) (stage round : Nat) : Option (List Stream) :=
  let at_ (i : Nat) : List Stream := s.streams.filter fun x => x.tree == t.num && x.round == round && x.stage == stage && x.inp == i
  let is := t.inputs stage
  if is.isEmpty || is.any (fun i => !(at_ i).any fun x => x.left == 0) then none else some (is.flatMap at_)

/-- One stream for each set of parameters among the inputs of a stage (R343 to R346): which of them is the first leaf's is known at the root
alone, where the others count as empty. -/
def stageOuts (up inp : Nat) (ins : List Stream) : List Stream :=
  let sets := ins.foldl (fun l x => if l.any x.agrees then l else l ++ [x]) ([] : List Stream)
  sets.zipIdx.map fun p =>
    let mine := ins.filter fun x => x.agrees p.1
    { p.1 with stage := up, inp := inp, segs := mergeStreams p.1.vf p.1.dz p.1.thr (mine.map Stream.segs)
               marks := mine.flatMap Stream.marks, left := sets.length - 1 - p.2 }

/-- Meaning of COMB_STREAM_MERGE (R343 to R346). -/
def execCombStreamMerge (tree stage round : Nat) (s : State) : Host.Outcome State Fault Refusal :=
  let no : Host.Outcome State Fault Refusal := .refused (.notEnabled "COMB_STREAM_MERGE")
  match s.trees.find? fun t => t.num == tree with
  | none => no
  | some t =>
    match t.stages[stage]?, s.stageIns t stage round with
    | some st, some ins =>
      if !(s.powered && st.acc == s.accNum) then no
      else
        let up := st.parent.getD rootStage
        let outs := stageOuts up st.inp ins
        let s := { s with streams := s.streams.filter fun x => !(x.tree == tree && x.round == round && x.stage == stage) }
        let here := up == rootStage || (t.stages[up]?.map fun g => g.acc == s.accNum).getD false
        if here then .next { s with streams := s.streams ++ outs }
        else
          let dst := (t.stages[up]?.map (·.acc)).getD 0
          .next (outs.foldl (fun s x =>
            let rc : Nat := tree <<< 32 ||| b2n x.vf <<< 48 ||| b2n x.dz <<< 49 ||| x.thr <<< 56
            s.sendStreamFlits 0 t.ten (256 + st.die) 0 dst tree (x.segs.flatMap recordBytes)
              { ra := x.ra, rc := word rc, marks := x.marks, first := true, last := true, left := x.left, round := round }) s)
    | _, _ => no

/-- Records that fit a capacity, in order, and whether one did not (R347). -/
def fitRecords (cap : Nat) : List Segment → Nat → List (List Byte) × Bool
  | [], _ => ([], false)
  | x :: r, used =>
    let b := recordBytes x
    if cap < used + b.length then ([], true) else let y := fitRecords cap r (used + b.length); (b :: y.1, y.2)

/-- Where the root's buffer lies (R347): home keys; a page fault, to be serviced; or nowhere, where it is remote or in the SRAM
window. -/
inductive RootPlace where
  | keys (ks : List Nat)
  | fault
  | none

/-- The place of a buffer of a partition. -/
def State.rootPlace (s : State) (part va n : Nat) : RootPlace :=
  let r := spanOf (s.ridgePage part .write) [(va, n)]
  if (s.checkRead (s.ridgeWalks part va n)).2.isSome then .none
  else match r.2.2 with
  | some (_, f) => if f.kind = 5 then .none else .fault
  | none => if r.1.remote then .none else .keys r.1.keys

/-- A leaf learns how its round ended (R347): a command of this package is finished, another accelerator is told. -/
def State.endLeaf (s : State) (t : Tree) (round acc : Nat) (bits : BitVec 9) : State :=
  if acc = s.accNum then
    { s with copies := s.copies.map fun r =>
        if r.e.kind = .ssend ∧ fld r.e.rc 47 32 = t.num ∧ r.idx = round ∧ !r.fin ∧ r.total = some r.done then r.finish bits else r }
  else s.sendFlit 0 (s.mkFlit t.ten (256 + (t.stages.find? fun g => g.parent.isNone).elim 0 (·.die)) 0 acc 11 2 t.num 4 (toBytes 4 bits.toNat))

/-- The stream that carries the tree's first leaf, whose parameters the root takes (R343), else the first. -/
def Tree.lead (t : Tree) (xs : List Stream) : Option Stream :=
  match t.leaves.head? with
  | some l => (xs.find? fun x => x.marks.any fun m => m.1 == l.acc).orElse fun _ => xs.head?
  | none => xs.head?

/-- Meaning of COMB_ROOT_OUTPUT (R347): the buffer, then the records of the round's leaves. A leaf whose parameters are not the first
leaf's takes STREAM (R343). -/
def execCombRootOutput (tree round : Nat) (s : State) : Host.Outcome State Fault Refusal :=
  let no : Host.Outcome State Fault Refusal := .refused (.notEnabled "COMB_ROOT_OUTPUT")
  let mine (x : Stream) : Bool := x.tree == tree && x.round == round && x.stage == rootStage
  let xs := s.streams.filter mine
  match s.trees.find? fun t => t.num == tree with
  | none => no
  | some t =>
    match t.lead xs with
    | none => no
    | some x =>
      let y := fitRecords t.cap x.segs 8
      let body := y.1.flatMap id
      let total := 8 + body.length
      let bytes := toBytes 8 (y.1.length ||| total <<< 32) ++ body
      let marks := x.marks ++ (xs.filter fun z => !z.agrees x).flatMap fun z => z.marks.map fun m => (m.1, m.2 ||| 32)
      let ends (s : State) (bits : BitVec 9) : State :=
        let s := { (s.unask (.comb tree round)) with streams := s.streams.filter fun z => !mine z }
        (t.leaves.map (·.acc)).foldl (fun s a =>
          s.endLeaf t round a ((marks.filter fun m => m.1 == a).foldl (fun b m => b ||| m.2) bits)) s
      if !s.powered then no
      else match s.rootPlace t.part x.ra.toNat total, s.askOf (.comb tree round) with
        | .keys ks, _ => .next (ends ((s.checkRead (s.ridgeWalks t.part x.ra.toNat total)).1.writeHomes (ks.zip bytes)) (if y.2 then 32 else 0))
        | .none, _ => .next (ends (s.checkRead (s.ridgeWalks t.part x.ra.toNat total)).1 256)
        | .fault, none => .next (s.ask (.comb tree round))
        | .fault, some a => if a.failed then .next (ends s 256) else no

end Sys2Proof.Machine
end

