-- ==== Sys2Proof/Machine/Yelm.lean ====
section
/-! DEFINITION. The Yelm routing processors (R349 to R363): the queue served, steps, selection, outputs, user routers, takeover. What
a user router's own instructions do stands in Machine/Router.lean. -/

namespace Sys2Proof.Machine

/-- A die's Yelm. -/
def State.yelm (s : State) (d : Nat) : Yelm := (s.die d).yelm

/-- The agent number of a die's Yelm (R333). -/
def yelmAgent (d : Nat) : Nat := 256 + d

/-- Owner of what the Yelm serving a queue does; it belongs to no graph. -/
def State.yelmOwner (s : State) (q : Nat) : Owner :=
  { uid := 0, part := (s.yelm q).part.getD 0, graph := 2 ^ 20, node := q, idx := 0, core := yelmAgent (s.yelm q).server }

/-- Removes the head entry; the die's cores see it free 8 PCC cycles later (R352). -/
def Yelm.pop (y : Yelm) (pcc : Nat) : Yelm := { y with queue := y.queue.tail, frees := y.frees ++ [pcc + 8] }

/-- Meaning of YELM_QUEUE_FREE_ENTRY (R352): pops of 8 PCC cycles ago become free entries. -/
def execYelmQueueFreeEntry (s : State) : Host.Outcome State Fault Refusal :=
  when "YELM_QUEUE_FREE_ENTRY" (s.powered && s.dies.toList.any fun d => d.yelm.frees.any fun t => decide (t ≤ s.pcc))
    { s with dies := s.dies.map fun d => { d with yelm := { d.yelm with frees := d.yelm.frees.filter fun t => decide (s.pcc < t) } } }

/-! ### Reads by Yelm (R349) -/

/-- What a read by Yelm comes to: bytes, a failure, a request to another accelerator, or nothing yet. -/
inductive YelmRead where
  | bytes (b : List Byte) (t : State)
  | failed (t : State)
  | asks (t : State)
  | wait

/-- A remote read for the queue awaits its answer. -/
def State.yelmAsked (s : State) (q : Nat) : Bool :=
  s.remote.any fun r => r.access == 0 && r.own.graph == 2 ^ 20 && r.own.node == q

/-- A read of `n` bytes for a queue (R349); it fails where it does not translate, cannot be read, or the fabric refuses it. -/
def State.yelmRead (s : State) (q va n : Nat) (remote : List Byte) : YelmRead :=
  let part := (s.yelm q).part.getD 0
  let t := s.ridgeTouch part va n
  if (s.yelm q).readErr && remote.isEmpty then .failed (s.modYelm q fun y => { y with readErr := false })
  else match s.ridgeRead part va n remote with
  | .bytes b => .bytes b { t with remote := t.remote.filter fun r => !(r.access == 0 && r.own.graph == 2 ^ 20 && r.own.node == q) }
  | .failed | .fault => .failed t
  | .short =>
    match s.ridgeSpan part .read va n with
    | some sp => if remote.isEmpty && !s.yelmAsked q then
        .asks (s.askReads (s.yelmOwner q) (yelmAgent (s.yelm q).server) 0 va (sp.keys.filter isRemote))
      else .wait
    | none => .wait

/-- Stores and steps' records of a processor that have not been performed (R349). -/
def State.yelmStoring (s : State) (server : Nat) : Bool := s.remote.any fun r => r.agent == yelmAgent server && r.access != 0

/-- The step counter and the status word of a step, in one AMO with rl set (R349, R359); nothing where STAT does not
translate. -/
def State.stepRecord (s : State) (q stat add : Nat) (status : Word) : State :=
  let w := s.checkRead (s.ridgeWalks ((s.yelm q).part.getD 0) stat 16)
  if w.2.isSome then w.1.openReport
  else
  let s := w.1
  match s.ridgeSpan ((s.yelm q).part.getD 0) .atomic stat 16 with
  | none => s
  | some sp =>
    let k := sp.key stat
    if isRemote k then s.sendRecord (s.yelmOwner q) (yelmAgent (s.yelm q).server) 0 0 (2 ^ 20) stat k (word add) status
    else
      let y := s.recordTry none sp.keys (word add) status
      if y.2.isSome then y.1.openReport
      else y.1.takePlace (s.event (s.yelmOwner q) (yelmAgent (s.yelm q).server) 3 (.add k))

/-! ### Entries (R353, R354) -/

/-- The ROM routine serves the queue, and its processor runs (R361, R362). -/
def State.romServes (s : State) (q : Nat) : Bool := s.powered && decide (q < 4) && !(s.yelm q).user && !(s.yelm (s.yelm q).server).failed

/-- Steps still open. -/
def Yelm.openSteps (y : Yelm) : List YStep := y.steps.filter fun t => t.closed.isNone

/-- The open step with a number. -/
def Yelm.openStep (y : Yelm) (num : Nat) : Option YStep := y.openSteps.find? fun t => t.num == num

/-- Replaces a step. -/
def Yelm.setStep (y : Yelm) (t : YStep) : Yelm := { y with steps := y.steps.map fun x => if x.id = t.id then t else x }

/-- STEP of an entry (R351). -/
def entStep (w : WindowWord) : Nat := fld w 51 40
/-- MAL of an entry. -/
def entMal (w : WindowWord) : Bool := bit w 29
/-- SANF of an entry. -/
def entSanf (w : WindowWord) : Bool := bit w 30
/-- The entry opens a step. -/
def entOpen (w : WindowWord) : Bool := bit w 31

/-- The step of a descriptor (R353). -/
def stepOf (id num : Nat) (d : WindowWord) : YStep :=
  { id := id, num := num, t := fld d 407 384, e := fld d 416 408, c := fld d 440 417, add := fld d 455 448, stat := fld d 383 320
    res := fld d 319 256, meta_ := fld d 255 192, itab := fld d 191 128, dl := fld d 63 0, aff := [], malc := 0, nanc := 0
    closed := none, miss := 0, bitmap := [], waitRes := false, fault := false, since := 0, wrote := false }

/-- The step is refused (R353): a reserved bit, a field out of range (the addresses are VAs of R174), too many experts' slots, or an
open step's number. -/
def stepBad (va : Nat) (d : WindowWord) (y : Yelm) (t : YStep) : Bool :=
  fld d 511 456 != 0 || fld d 447 441 != 0 || fld d 127 64 != 0 || va % 64 != 0 || t.t == 0 || t.e == 0 || decide (256 < t.e) ||
  t.c == 0 || decide (t.t < t.c) || decide (2 ^ 24 < t.e * t.c) || t.stat % 32 != 0 || t.res % 8 != 0 || t.meta_ % 16 != 0 ||
  t.itab % 8 != 0 || [t.stat, t.res, t.meta_, t.itab].any (fun a => decide (2 ^ 56 ≤ a)) || (y.openStep t.num).isSome

/-- Meaning of STEP_OPEN (R353, R354). The add of a refused step has rl set, so it waits for the processor's earlier stores (R349). -/
def execStepOpen (die : Nat) (remote : List Byte) (s : State) : Host.Outcome State Fault Refusal :=
  let no : Host.Outcome State Fault Refusal := .refused (.notEnabled "STEP_OPEN")
  let y := s.yelm die
  match y.queue with
  | [] => no
  | w :: _ =>
    if !(s.romServes die && entOpen w) then no
    else if entMal w then
      if remote.isEmpty then .next (s.modYelm die fun y => { y.pop s.pcc with noStep := y.noStep + 1 }) else no
    else if 4 ≤ y.openSteps.length then no
    else
      let opened (t : State) : State := t.modYelm die fun y => y.pop s.pcc
      match s.yelmRead die (fld w 119 64) 64 remote with
      | .wait => no
      | .asks t => .next t
      | .failed t => .next ((opened t).modYelm die fun y => { y with noStep := y.noStep + 1 }).openReport
      | .bytes b t =>
        let d : WindowWord := BitVec.ofNat 512 (ofBytes b)
        let st := stepOf t.serial (entStep w) d
        if !stepBad (fld w 119 64) d y st then .next ((opened t).bump.modYelm die fun y => { y with steps := y.steps ++ [st] })
        else if s.yelmStoring y.server then no
        else .next (if st.stat % 32 = 0 then (opened t).bump.stepRecord die st.stat st.add 2 else (opened t).bump)

/-- A saturating 16-bit count. -/
def sat16 (n : Nat) : Nat := min n 65535

/-- An affinity entry of an open step (R354). -/
def YStep.take (t : YStep) (w : WindowWord) : YStep :=
  let n := fld w 55 52
  let e := fld w 39 32
  let tok := fld w 23 0
  let t := { t with nanc := sat16 (t.nanc + b2n (entSanf w)) }
  if entMal w || decide (t.t ≤ tok) || decide (t.e < e + n) ||
      t.aff.any (fun a => a.1.1 == tok && decide (e ≤ a.1.2) && decide (a.1.2 < e + n)) then { t with malc := sat16 (t.malc + 1) }
  else { t with aff := t.aff ++ (List.range n).map fun i => ((tok, e + i), BitVec.ofNat 32 (affWord w i)) }

/-- Meaning of AFFINITY_ENTRY (R354). -/
def execAffinityEntry (die : Nat) (s : State) : Host.Outcome State Fault Refusal :=
  match (s.yelm die).queue with
  | [] => .refused (.notEnabled "AFFINITY_ENTRY")
  | w :: _ =>
    when "AFFINITY_ENTRY" (s.romServes die && !entOpen w)
      (s.modYelm die fun y =>
        let y := y.pop s.pcc
        match y.openStep (entStep w) with
        | some t => y.setStep (t.take w)
        | none => { y with noStep := y.noStep + 1 })

/-! ### Closing (R354 to R356) -/

/-- The step holds every affinity. -/
def YStep.full (t : YStep) : Bool := t.aff.length == t.t * t.e

/-- Reads the residency bitmap of a step that has closed (R356); one on another accelerator is asked for first. -/
def State.fetchBitmap (s : State) (die : Nat) (t : YStep) (remote : List Byte) : Option State :=
  match s.yelmRead die t.res ((t.e + 7) / 8) remote with
  | .wait => none
  | .asks s => some s
  | .failed s => some (s.modYelm die fun y => y.setStep { t with waitRes := false, fault := true })
  | .bytes b s => some (s.modYelm die fun y => y.setStep
      { t with waitRes := false, bitmap := (List.range t.e).map fun e => (ofBytes b).testBit e })

/-- A step as it closes (R354): every expert resident until the bitmap is read. -/
def YStep.close (t : YStep) (pcc : Nat) (late : Bool) : YStep :=
  { t with closed := some late, since := pcc, miss := if late then t.t * t.e - t.aff.length else 0
           bitmap := List.replicate t.e true, waitRes := t.res != 0 }

/-- Closes a step and reads its residency bitmap, where it has one (R354, R356). -/
def State.closeStep (s : State) (die : Nat) (t : YStep) (late : Bool) : State :=
  let t := t.close s.pcc late
  let s := s.modYelm die fun y => y.setStep t
  if t.waitRes then (s.fetchBitmap die t []).getD s else s

/-- Meaning of STEP_CLOSE (R354 to R356): a step that holds all its affinities closes, or a closed step's bitmap comes. -/
def execStepClose (die step : Nat) (remote : List Byte) (s : State) : Host.Outcome State Fault Refusal :=
  let no : Host.Outcome State Fault Refusal := .refused (.notEnabled "STEP_CLOSE")
  if !s.romServes die then no
  else match (s.yelm die).openSteps.find? fun t => t.num == step && t.full && remote.isEmpty with
  | some t => .next (s.closeStep die t false)
  | none =>
    match (s.yelm die).steps.find? fun t => t.num == step && t.waitRes with
    | some t => match s.fetchBitmap die t remote with | some s => .next s | none => no
    | none => no

/-- The step has reached its deadline without all its affinities (R354, R363). -/
def YStep.overdue (t : YStep) (pcc : Nat) : Bool := t.closed.isNone && t.dl != 0 && decide (t.dl ≤ pcc) && !t.full

/-- Meaning of STEP_DEADLINE (R354). The bitmap of such a step comes with STEP_CLOSE where it stands on another accelerator. -/
def execStepDeadline (die step : Nat) (remote : List Byte) (s : State) : Host.Outcome State Fault Refusal :=
  match (s.yelm die).openStep step with
  | some t => when "STEP_DEADLINE" (s.romServes die && t.overdue s.pcc && remote.isEmpty) (s.closeStep die t true)
  | none => .refused (.notEnabled "STEP_DEADLINE")

/-! ### Selection (R355) and outputs (R357 to R359) -/

/-- −∞. -/
def negInf : Nat := 0xFF800000
/-- +∞. -/
def posInf : Nat := 0x7F800000

/-- Affinity of token and expert: −∞ where it is missing. -/
def YStep.a (t : YStep) (tok e : Nat) : Nat := match t.aff.find? fun x => x.1 == (tok, e) with | some x => x.2.toNat | none => negInf

/-- Experts for which a token has +∞. -/
def YStep.infs (t : YStep) (tok : Nat) : Nat := ((List.range t.e).filter fun e => t.a tok e == posInf).length

/-- A token that no expert may take. -/
def YStep.unroutable (t : YStep) (tok : Nat) : Bool := (List.range t.e).all fun e => t.a tok e == negInf

/-- Combine weight (R355). -/
def YStep.weight (t : YStep) (tok e : Nat) : Nat :=
  let m := t.infs tok
  if 0 < m then
    if t.a tok e = posInf then (fp32.round .rne ((Num.ofInt 1).div (Num.ofInt m)).1).1 else 0
  else if t.a tok e = negInf then 0 else t.a tok e

/-- Inserts a token in descending order of affinity, ties to the lower token. -/
def insertTok (key : Nat → Int) (x : Nat) : List Nat → List Nat
  | [] => [x]
  | y :: r => if key y < key x ∨ (key y = key x ∧ x < y) then x :: y :: r else y :: insertTok key x r

/-- The tokens that fill an expert's slots, in slot order (R355). -/
def YStep.chosen (t : YStep) (e : Nat) : List Nat :=
  let q := (List.range t.t).filter fun tok => t.a tok e != negInf
  (q.foldr (insertTok fun tok => fp32.key (t.a tok e)) []).take t.c

/-- The expert is absent (R356). -/
def YStep.absent (t : YStep) (e : Nat) : Bool := t.bitmap[e]? == some false

/-- Index table of an expert (R357). -/
def YStep.table (t : YStep) (e : Nat) : List Byte :=
  let ch := t.chosen e
  let body := toBytes 8 t.c ++ (List.range t.c).flatMap fun s =>
    toBytes 4 (if t.absent e then 0xFFFFFFFF else ch[s]?.getD 0xFFFFFFFF)
  body ++ List.replicate ((8 - body.length % 8) % 8) 0

/-- Routing record of a slot (R358). -/
def YStep.rec_ (t : YStep) (e s : Nat) : List Byte :=
  let tok := (t.chosen e)[s]?
  let rst := if t.absent e then 2 else match tok with
    | none => 1
    | some k => if 0 < t.infs k ∧ t.a k e ≠ posInf then 3 else 0
  let wgt := if t.absent e then 0 else match tok with | some k => t.weight k e | none => 0
  toBytes 16 (rst ||| t.num <<< 28 ||| (e * t.c + s) <<< 40 ||| (tok.getD 0xFFFFFFFF) <<< 64 ||| wgt <<< 96)

/-- Filled slots of absent experts. -/
def YStep.drop (t : YStep) : Nat :=
  (((List.range t.e).filter fun e => t.absent e).map fun e => (t.chosen e).length).foldl (· + ·) 0

/-- Unroutable tokens. -/
def YStep.unr (t : YStep) : Nat := ((List.range t.t).filter fun k => t.unroutable k).length

/-- Bytes 16 to 31 of the status block (R359). -/
def YStep.counts (t : YStep) : List Byte :=
  toBytes 16 (t.unr % 2 ^ 24 ||| (t.drop % 2 ^ 24) <<< 24 ||| t.nanc <<< 48 ||| t.malc <<< 64 ||| (t.miss % 2 ^ 24) <<< 104)

/-- The status word (R359). -/
def YStep.status (t : YStep) (fault : Bool) : Nat :=
  b2n (t.closed == some true) + 2 * b2n fault + 4 * b2n (decide (0 < t.nanc)) + 8 * b2n (decide (0 < t.unr)) +
  16 * b2n ((List.range t.e).any fun e => t.absent e) + 32 * b2n (decide (0 < t.malc)) +
  64 * b2n ((List.range t.e).any fun e => decide ((t.chosen e).length < t.c))

/-- What a step writes, in order: VA and bytes (R357 to R359). -/
def YStep.outputs (t : YStep) : List (Nat × List Byte) :=
  ((List.range t.e).map fun e => let b := t.table e; (t.itab + e * b.length, b)) ++
  ((List.range t.e).flatMap fun e => (List.range t.c).map fun s => (t.meta_ + 16 * (e * t.c + s), t.rec_ e s)) ++
  [(t.stat + 16, t.counts)]

/-- A write by Yelm, none where a byte of it does not translate: local bytes at their homes, remote bytes as requests. -/
def State.yelmWrite (s : State) (q id : Nat) (w : Nat × List Byte) : Option State :=
  let t := s.checkRead (s.ridgeWalks ((s.yelm q).part.getD 0) w.1 w.2.length)
  match s.ridgeSpan ((s.yelm q).part.getD 0) .write w.1 w.2.length, t.2 with
  | none, _ | _, some _ => none
  | some sp, none =>
    let s := t.1
    let cells := sp.keys.zip w.2
    let far := cells.filter fun c => isRemote c.1
    let s := s.writeHomes (cells.filter fun c => !isRemote c.1)
    some (if far.isEmpty then s
      else s.sendWrites (s.yelmOwner q) (yelmAgent (s.yelm q).server) 0 0 false id (fun _ => w.1)
        (far.map fun c => (c.1, c.2, 0xFF)))

/-- Writes in order until one fails; says whether one did. -/
def State.yelmWrites (s : State) (q id : Nat) : List (Nat × List Byte) → State × Bool
  | [] => (s, false)
  | w :: r => match s.yelmWrite q id w with
    | some s => s.yelmWrites q id r
    | none => (s, true)

/-- An uncorrectable error in the state of the Yelm that serves a queue; single-bit ones are corrected (R189, R359). -/
def State.yelmErr (s : State) (q : Nat) : State × Bool :=
  let es := s.errs.filter fun e => match e.place with
    | .unit c => fld c 7 0 == 0x13 && fld c 15 8 == (s.yelm q).server
    | .home _ _ => false
  let s := (es.filter fun e => e.bits == 1).foldl State.correctOne s
  match es.find? fun e => decide (2 ≤ e.bits) with
  | some e => ({ s with errs := s.errs.erase e, errCount := { s.errCount with double := s.errCount.double + 1 } }, true)
  | none => (s, false)

/-- The step's remote outputs still await their responses. -/
def State.stepPending (s : State) (t : YStep) : Bool := s.remote.any fun r => r.group == t.id && decide (256 ≤ r.agent) && r.own.graph == 2 ^ 20

/-- The add that ends a step; a fault is reported (R359). -/
def State.endStep (s : State) (die : Nat) (t : YStep) : State :=
  ((if t.fault then s.openReport else s).stepRecord die t.stat t.add (word (t.status t.fault))).modYelm die fun y => { y with steps := y.steps.filter fun x => x.id != t.id }

/-- Queues served by one processor. -/
def State.servedBy (s : State) (server : Nat) : List Nat := (List.range 4).filter fun q => (s.yelm q).server == server

/-- The oldest closed step with a number, if its bitmap is there and no queue of the same processor has one that closed before it (R362). -/
def State.publishable (s : State) (die step : Nat) : Option YStep :=
  match (s.yelm die).steps.find? fun t => t.num == step && t.closed.isSome with
  | some t =>
    if t.waitRes || (s.servedBy (s.yelm die).server).any fun q => (s.yelm q).steps.any fun x => x.closed.isSome && decide (x.since < t.since)
    then none else some t
  | none => none

/-- The ROM routine serves the queue, or the step only has its add left, of those that a router's exception or a failed processor ended. -/
def State.endsSteps (s : State) (die : Nat) (t : YStep) : Bool :=
  s.romServes die || (t.wrote && s.powered && decide (die < 4) && !(s.yelm (s.yelm die).server).failed)

/-- Meaning of STEP_OUTPUT_PUBLISH (R357 to R360): the tables, the records and the counts, then the add once all of them are
performed. -/
def execStepOutputPublish (die step : Nat) (s : State) : Host.Outcome State Fault Refusal :=
  match s.publishable die step with
  | none => .refused (.notEnabled "STEP_OUTPUT_PUBLISH")
  | some t =>
    when "STEP_OUTPUT_PUBLISH" (s.endsSteps die t && !(t.wrote && s.stepPending t) && !(t.wrote && s.yelmStoring (s.yelm die).server))
      (if t.wrote then s.endStep die t
       else
        let e := s.yelmErr die
        let bad := t.fault || e.2
        let w := if bad then (e.1, true) else e.1.yelmWrites die t.id t.outputs
        let s := w.1
        let t := { t with fault := w.2, wrote := true }
        if s.yelmStoring (s.yelm die).server then s.modYelm die fun y => y.setStep t else s.endStep die t)

/-- The bound of R360 on a step's outputs has come. -/
def State.publishDue (s : State) (die : Nat) (t : YStep) : Bool :=
  t.closed.isSome && decide (t.since + (s.servedBy (s.yelm die).server).length * (8192 + (t.t * t.e + 3) / 4) ≤ s.pcc)

/-! ### User routers and takeover (R361, R362) -/

/-- Every step of a queue that has not been published ends with FAULT where STAT translates, once the processor's earlier stores are
performed (R349). -/
def State.faultSteps (s : State) (q : Nat) : State :=
  if s.yelmStoring (s.yelm q).server then
    -- what the step held counts no more: its status word is FAULT alone
    s.modYelm q fun y => { y with steps := y.steps.map fun t =>
        { t with t := 0, e := 0, aff := [], nanc := 0, malc := 0, closed := some false, waitRes := false, fault := true, wrote := true
                 since := if t.closed.isSome then t.since else s.pcc } }
  else
    let s := (s.yelm q).steps.foldl (fun s t => s.stepRecord q t.stat t.add 2) s
    s.modYelm q fun y => { y with steps := [] }

/-- A user router runs with the scratchpad of a die's Yelm, and serves the queue. -/
def State.routerOn (s : State) (die q : Nat) : Bool :=
  s.powered && decide (die < 4) && decide (q < 4) && !(s.yelm (s.yelm q).server).failed && (s.yelm q).home == die && (s.yelm q).user

/-- Meaning of YELM_QCTL_POP (R349): a user router pops the head of the queue that QSEL names. -/
def execYelmQctlPop (die : Nat) (s : State) : Host.Outcome State Fault Refusal :=
  let q := (s.yelm die).qsel
  when "YELM_QCTL_POP" (s.routerOn die q && !(s.yelm q).queue.isEmpty) (s.modYelm q fun y => y.pop s.pcc)

/-- Meaning of YELM_QSEL_WRITE (R349). -/
def execYelmQselWrite (die queue : Nat) (s : State) : Host.Outcome State Fault Refusal :=
  when "YELM_QSEL_WRITE" (decide (queue < 4) && (List.range 4).any fun q => s.routerOn die q) (s.modYelm die fun y => { y with qsel := queue })

/-- Meaning of USER_ROUTER_EXCEPTION (R361): the ROM routine takes over the queues that the router served. -/
def execUserRouterException (die : Nat) (s : State) : Host.Outcome State Fault Refusal :=
  let qs := (List.range 4).filter fun q => s.routerOn die q
  when "USER_ROUTER_EXCEPTION" (!qs.isEmpty)
    ((qs.foldl (fun s q => (s.faultSteps q).modYelm q fun y => { y with user := false }) s).openReport)

/-- Processors that have not failed. -/
def State.yelmsLeft (s : State) : Nat := ((List.range 4).filter fun d => !(s.yelm d).failed).length

/-- A processor enters the program in its scratchpad at address 0, with QSEL naming a queue (R361). -/
def Yelm.enter (y : Yelm) (q : Nat) : Yelm := { y with qsel := q, rv := { y.rv with pc := 0, resv := none } }

/-- The user router of a queue that a processor takes over goes on there with the next entry: in that processor's scratchpad, or, where
another router runs there, beside it with what it had (R362; log entry 14). -/
def State.moveRouter (s : State) (newDie q : Nat) : State :=
  let old := (s.yelm q).home
  if !(s.yelm q).user then s
  else if (List.range 4).any fun k => k != q && s.routerOn newDie k then s.modYelm old fun y => y.enter q
  else (s.modYelm newDie fun y => { y with scratch := (s.yelm old).scratch }.enter q).modYelm q fun y => { y with home := newDie }

/-- Meaning of YELM_TAKEOVER (R362). -/
def execYelmTakeover (failed newDie : Nat) (s : State) : Host.Outcome State Fault Refusal :=
  when "YELM_TAKEOVER" (s.powered && decide (failed < 4) && decide (newDie < 4) && failed != newDie && !(s.yelm failed).failed &&
      !(s.yelm newDie).failed)
    (let qs := s.servedBy failed
     let s := qs.foldl (fun s q => (s.faultSteps q).modYelm q fun y => { y with server := newDie }) s
     let s := qs.foldl (fun s q => s.moveRouter newDie q) s
     let s := s.modYelm failed fun y => { y with failed := true }
     s.report 10 failed 0 s.yelmsLeft 255)

end Sys2Proof.Machine
end

