-- ==== Sys2Proof/Machine/Unoon.lean ====
section
/-! DEFINITION. The Unoon link (R364 to R366, R370): reception of command blocks, responses, link changes and port takeover. -/

namespace Sys2Proof.Machine

/-- The SEQ after `n`: modulo 2^32, skipping 0 (R366). -/
def nextSeq (n : Nat) : Nat := if n = 2 ^ 32 - 1 then 1 else n + 1

/-- The response block of a command: OPC, PART and SEQ echoed, STATUS and results (R365). -/
def respond (c : Command) (status : Nat) (res : List Word) (data : List Byte) : Response :=
  { opc := c.opc, status := status, part := c.part, seq := c.seq.toNat, a := Vector.ofFn fun k => res[k.val]?.getD 0, data := data }

/-- A response is sent and is among the newest 256 that are kept (R366). -/
def State.reply (s : State) (r : Response) : State :=
  let s := s.emit r
  { s with unoon := { s.unoon with kept := (r :: s.unoon.kept).take 256 } }

/-- What a command comes to: an answer with its state, status, results and data, a wait before the answer (R372), or nothing
more. -/
inductive CmdRes where
  | done (s : State) (status : Nat) (res : List Word) (data : List Byte)
  | later (s : State) (w : Await)
  /-- The answer has been sent already. -/
  | over (s : State)

/-- A command answered by a status alone, without effect. -/
def CmdRes.status (s : State) (n : Nat) : CmdRes := .done s n [] []

/-- The state after a command: its response, or the wait. -/
def CmdRes.finish (c : Command) : CmdRes → State
  | .done s status res data => s.reply (respond c status res data)
  | .over s => s
  | .later s w => { s with unoon := { s.unoon with await := some (c, w) } }

/-- A command block executes (R366, R367): a SEQ already answered gets its response again; a SEQ out of turn takes status 8; reserved bits
take status 1. -/
def State.receive (s : State) (c : Command) (body : State → Command → CmdRes) : State :=
  match s.unoon.kept.find? fun r => r.seq == c.seq.toNat with
  | some r => s.emit r
  | none =>
    if c.seq.toNat ≠ nextSeq s.unoon.seq then s.emit (respond c 8 [] [])
    else
      let s := { s with unoon := { s.unoon with seq := c.seq.toNat } }
      if c.status ≠ 0 ∨ c.rsv ≠ 0 then s.reply (respond c 1 [] []) else (body s c).finish c

/-- The link of a port is up. -/
def State.linkUp (s : State) (p : Nat) : Bool := decide (p < 2) && (vget s.unoon.down p none).isNone

/-- A command's meaning. A block arrives on a port whose link is up: on the standby port it takes status 9 and is not executed (R364);
commands execute one at a time, so one that arrives while another waits is kept, and executes in its turn whatever has become of its
port since (R366). -/
def hostCommand (i : Instr) (name : String) (body : State → Command → CmdRes) (s : State) : Host.Outcome State Fault Refusal :=
  if !s.powered || decodeCommand s.cmd != i then .refused (.notEnabled name)
  else if s.unoon.again then .next ({ s with unoon := { s.unoon with again := false } }.receive s.cmd body)
  else if !s.linkUp s.cmd.port then .refused (.notEnabled name)
  else if s.cmd.port ≠ s.unoon.active then .next (s.emit (respond s.cmd 9 [] []))
  else if s.unoon.await.isSome ∨ !s.unoon.pendq.isEmpty then .next { s with unoon := { s.unoon with pendq := s.unoon.pendq ++ [s.cmd] } }
  else .next (s.receive s.cmd body)

/-- Bits of an argument word outside hi:lo are 0. -/
def argIn (w : Word) (hi lo : Nat) : Bool := decide (w.toNat < 2 ^ (hi + 1)) && w.toNat % 2 ^ lo == 0

/-- Argument word k of a command. -/
def cmdArg (c : Command) (k : Nat) : Nat := (vget c.a k 0).toNat

/-- The partition a command addresses. -/
def cmdPart (c : Command) : Nat := c.part.toNat

/-- Meaning of a reserved opcode, SUB or item (R367 to R369): status 1. -/
def execReservedCommand (s : State) : Host.Outcome State Fault Refusal :=
  hostCommand .reservedCommand "RESERVED_COMMAND" (fun s _ => .status s 1) s

/-! ### Links (R364) -/

/-- Meaning of UNOON_LINK_DOWN: the active port's link goes down. -/
def execUnoonLinkDown (s : State) : Host.Outcome State Fault Refusal :=
  when "UNOON_LINK_DOWN" (s.powered && s.linkUp s.unoon.active)
    { s with unoon := { s.unoon with down := vset s.unoon.down s.unoon.active (some s.pcc) } }

/-- Meaning of UNOON_LINK_RETURN: a port's link comes back; a former active port is standby from then on. -/
def execUnoonLinkReturn (port : Nat) (s : State) : Host.Outcome State Fault Refusal :=
  when "UNOON_LINK_RETURN" (s.powered && decide (port < 2) && !s.linkUp port)
    { s with unoon := { s.unoon with down := vset s.unoon.down port none } }

/-- The active link has been down for 2^20 PCC cycles, and the standby can take over. -/
def State.takeoverDue (s : State) : Bool :=
  s.powered && s.linkUp (1 - s.unoon.active) &&
  match vget s.unoon.down s.unoon.active none with | some t => decide (t + 2 ^ 20 ≤ s.pcc) | none => false

/-- Meaning of UNOON_PORT_TAKEOVER: the standby becomes active, and a report of KIND 9 names the former active port. -/
def execUnoonPortTakeover (s : State) : Host.Outcome State Fault Refusal :=
  let old := s.unoon.active
  when "UNOON_PORT_TAKEOVER" s.takeoverDue
    ({ s with unoon := { s.unoon with active := 1 - old } }.report 9 0 old 0 255)

end Sys2Proof.Machine
end

