-- ==== Sys2Proof/Machine/Partitions.lean ====
section
/-! DEFINITION. Commands on partitions, page tables, memory, routers and governors (R367), and queries (R368). -/

namespace Sys2Proof.Machine

/-- Changes a partition. -/
def State.modPart (s : State) (p : Nat) (f : Partition → Partition) : State :=
  { s with parts := vset s.parts p ((s.part p).map f) }

/-- A command that needs PART to exist: status 2 otherwise (R370). -/
def needPart (s : State) (c : Command) (k : Partition → CmdRes) : CmdRes :=
  match s.part (cmdPart c) with | some p => k p | none => .status s 2

/-! ### Partitions -/

/-- PCREATE (R367): a partition of the clusters of A0, all banks in cache mode, with no page table yet: until a PTROOT
command the root is 0 (R190; log entry 66). -/
def pcreate (s : State) (c : Command) : CmdRes :=
  let mask := cmdArg c 0
  if mask = 0 ∨ !argIn (vget c.a 1 0) 11 0 then .status s 1
  else if (s.part (cmdPart c)).isSome || (s.parts.toList.any fun q => match q with | some q => q.clusters &&& mask != 0 | none => false)
  then .status s 2
  else
    let fresh (k : Nat) (cl : Cluster) : Cluster := if mask.testBit k then Cluster.fresh else cl
    .done { s with
            parts := vset s.parts (cmdPart c) (some { clusters := mask, tenant := cmdArg c 1, root := 0, wlog := 32 })
            clusters := s.clusters.mapIdx fun k cl => fresh k cl } 0 [] []

/-- Meaning of PCREATE. -/
def execPcreate (s : State) : Host.Outcome State Fault Refusal := hostCommand .pcreate "PCREATE" pcreate s

/-- Graphs of a partition. -/
def State.graphsOf (s : State) (p : Nat) : List Nat := (s.graphs.filter fun g => g.2.part == p).map (·.1)

/-- Every instance of a partition that still runs is killed (R325). -/
def State.killPart (s : State) (p : Nat) : State :=
  (List.range 256).foldl (fun s i => match (s.core i).inst with
    | some x => if x.part = p ∧ (s.core i).phase ≠ .retiring then s.killCore i else s
    | none => s) s

/-- PDESTROY (R367): the partition's graphs are aborted and its instances killed. What remains waits until nothing of it runs
(R372). -/
def pdestroy (s : State) (c : Command) : CmdRes :=
  needPart s c fun _ => .later (((s.graphsOf (cmdPart c)).foldl State.abortGraph s).killPart (cmdPart c)) (.destroy (cmdPart c))

/-- Meaning of PDESTROY. -/
def execPdestroy (s : State) : Host.Outcome State Fault Refusal := hostCommand .pdestroy "PDESTROY" pdestroy s

/-- Nothing of a partition runs or is awaited. -/
def State.partQuiet (s : State) (p : Nat) : Bool :=
  (s.graphsOf p).isEmpty &&
  (s.cores.toList.all fun c => match c.inst with | some x => x.part != p | none => true) &&
  (s.saved.all fun v => v.inst.part != p) && (s.copies.all fun r => r.e.own.part != p) &&
  (s.oldRels.all fun o => o.own.part != p) && s.remote.all fun q => q.own.part != p || q.access == 0

/-- A port without a tenant's key and share entries. -/
def Port.forget (p : Port) (ten : Nat) : Port :=
  { p with keys := p.keys.filter fun e => e.1 != ten, shares := p.shares.filter fun e => fld e.2 19 8 != ten }

/-- A queue whose partition is destroyed: no assignment, no steps, the ROM routine serves it again. -/
def Yelm.forget (y : Yelm) (p : Nat) : Yelm :=
  if y.part = some p then { y with part := none, queue := [], steps := [], user := false, readErr := false } else y

/-- The end of PDESTROY: key, share, queue and router settings are cleared and the clusters are free. -/
def State.destroyPart (s : State) (p : Nat) : State :=
  match s.part p with
  | none => s
  | some q =>
    { s with
      parts := vset s.parts p none
      ports := s.ports.map fun x => x.forget q.tenant
      dies := s.dies.map fun d => { d with yelm := d.yelm.forget p }
      remote := s.remote.filter fun r => r.own.part != p
      clusters := s.clusters.mapIdx fun k cl => if q.clusters.testBit k then { cl with tlb := [] } else cl }

/-- GABORT (R367): the graph is aborted; the answer waits until it is no longer resident (R372). -/
def gabort (s : State) (c : Command) : CmdRes :=
  let g := cmdArg c 0
  if 64 ≤ g then .status s 1
  else needPart s c fun _ =>
    match assoc s.graphs g with
    | none => .status s 1
    | some gr => if gr.part ≠ cmdPart c then .status s 2 else .later (s.abortGraph g) (.graph g)

/-- Meaning of GABORT. -/
def execGabort (s : State) : Host.Outcome State Fault Refusal := hostCommand .gabort "GABORT" gabort s

/-- The waiting command's end has come. -/
def State.awaitMet (s : State) : Await → Bool
  | .graph g => (assoc s.graphs g).isNone
  | .destroy p => s.partQuiet p

/-- The waiting command ends and is answered (R366, R372). -/
def State.finishAwait (s : State) (c : Command) (w : Await) : State :=
  let s := { s with unoon := { s.unoon with await := none } }
  (match w with | .graph _ => s | .destroy p => s.destroyPart p).reply (respond c 0 [] [])

/-! ### Page tables (R190, R192) -/

/-- PTROOT (R367). -/
def ptroot (s : State) (c : Command) : CmdRes :=
  let root := cmdArg c 0
  if root % 4096 ≠ 0 then .status s 1
  else needPart s c fun _ =>
    if Config.localLimit ≤ root then .status s 7 else .done (s.modPart (cmdPart c) fun p => { p with root := root }) 0 [] []

/-- Meaning of PTROOT. -/
def execPtroot (s : State) : Host.Outcome State Fault Refusal := hostCommand .ptroot "PTROOT" ptroot s

/-- Drops the translations of clusters `mask` that `p` names, those of bundles coming to issue too. -/
def State.dropTrans (s : State) (mask : Nat) (p : Trans → Bool) : State :=
  { s with
    clusters := s.clusters.mapIdx fun k cl => if mask.testBit k then { cl with tlb := cl.tlb.filter fun t => !p t } else cl
    cores := s.cores.mapIdx fun k x => if mask.testBit (clusterOf k)
      then { x with mem := { x.mem with walked := x.mem.walked.filter fun t => !p t, walks := [] } } else x }

/-- PTINV (R192, R367): a VA's translation, or with all ones every translation of the partition. -/
def ptinv (s : State) (c : Command) : CmdRes :=
  let va := cmdArg c 0
  if va ≠ 2 ^ 64 - 1 ∧ Config.vaLimit ≤ va then .status s 1
  else needPart s c fun q => .done (s.dropTrans q.clusters fun t => decide (va = 2 ^ 64 - 1) || t.covers va) 0 [] []

/-- Meaning of PTINV. -/
def execPtinv (s : State) : Host.Outcome State Fault Refusal := hostCommand .ptinv "PTINV" ptinv s

/-! ### Memory on the host path -/

/-- A physical range lies in local memory (R174). -/
def isLocal (pa n : Nat) : Bool := decide (pa + n ≤ Config.localLimit)

/-- Addresses of a physical range. -/
def paRange (pa n : Nat) : List Nat := (List.range n).map fun j => pa + j

/-- MEMW (R367). A write that would have to read a word in error does not happen (R189). -/
def memw (s : State) (c : Command) : CmdRes :=
  let pa := cmdArg c 0
  let n := cmdArg c 1
  if n = 0 ∨ 4096 < n ∨ c.data.length ≠ n then .status s 1
  else if !isLocal pa n then .status s 7
  else
    let ds := c.data.zipIdx.map fun b =>
      ({ key := pa + b.2, val := b.1, mask := 0xFF, obj := none, ser := 0, cmp := false } : DirtyByte)
    if (s.blockedWrites ds).isEmpty then .done (s.writeMem pa c.data) 0 [] []
    else .status { s with errCount := { s.errCount with double := s.errCount.double + 1 } } 7

/-- Meaning of MEMW. -/
def execMemw (s : State) : Host.Outcome State Fault Refusal := hostCommand .memw "MEMW" memw s

/-- MEMR (R367). -/
def memr (s : State) (c : Command) : CmdRes :=
  let pa := cmdArg c 0
  let n := cmdArg c 1
  if n = 0 ∨ 4096 < n then .status s 1
  else if !isLocal pa n then .status s 7
  else
    let r := s.checkRead (paRange pa n)
    if r.2.isSome then .status r.1 7 else .done r.1 0 [] (s.homeBytes pa n)

/-- Meaning of MEMR. -/
def execMemr (s : State) : Host.Outcome State Fault Refusal := hostCommand .memr "MEMR" memr s

/-! ### Yelm queues and governors -/

/-- YCFG 0 (R350): the die's queue is PART's from now on. -/
def ycfgAssign (s : State) (c : Command) : CmdRes :=
  let die := cmdArg c 0
  if 4 ≤ die then .status s 1
  else needPart s c fun _ => .done (s.modYelm die fun y => { y with part := some (cmdPart c) }) 0 [] []

/-- Meaning of YCFG_ASSIGN_QUEUE. -/
def execYcfgAssignQueue (s : State) : Host.Outcome State Fault Refusal := hostCommand .ycfgAssignQueue "YCFG_ASSIGN_QUEUE" ycfgAssign s

/-- YCFG 1 (R361): a user router is loaded at scratchpad address 0 of the processor that serves the die's queue, and entered with
QSEL naming the queue. -/
def ycfgLoad (s : State) (c : Command) : CmdRes :=
  let die := cmdArg c 0
  let pa := cmdArg c 2
  let n := cmdArg c 3
  if 4 ≤ die ∨ n = 0 ∨ 2 ^ 19 < n then .status s 1
  else needPart s c fun _ =>
    if (s.yelm die).part ≠ some (cmdPart c) then .status s 2
    else if !isLocal pa n then .status s 7
    else
      let r := s.checkRead (paRange pa n)
      if r.2.isSome then .status r.1 7
      else
        let server := (s.yelm die).server
        let t := r.1.modYelm server fun y => { y with scratch := y.scratch.writeBytes 0 (s.homeBytes pa n) }.enter die
        .done (t.modYelm die fun y => { y with user := true, home := server }) 0 [] []

/-- Meaning of YCFG_LOAD_ROUTER. -/
def execYcfgLoadRouter (s : State) : Host.Outcome State Fault Refusal := hostCommand .ycfgLoadRouter "YCFG_LOAD_ROUTER" ycfgLoad s

/-- An argument that is 0, which leaves its setting unchanged, or lies in a range. -/
def zeroOr (x lo hi : Nat) : Bool := x == 0 || (decide (lo ≤ x) && decide (x ≤ hi))

/-- The setting an argument gives. -/
def orKeep (x old : Nat) : Nat := if x = 0 then old else x

/-- GOVSET (R304, R321, R374). -/
def govset (s : State) (c : Command) : CmdRes :=
  let die := cmdArg c 0
  if 4 ≤ die ∨ !zeroOr (cmdArg c 1) 64 320 ∨ !zeroOr (cmdArg c 2) 48 255 ∨ !zeroOr (cmdArg c 3) 20 40 ∨ !zeroOr (cmdArg c 4) 85 100
  then .status s 1
  else if cmdArg c 3 ≠ 0 ∧ (s.part (cmdPart c)).isNone then .status s 2
  else
    let s := s.modDie die fun d =>
      { d with b := orKeep (cmdArg c 1) d.b, d := orKeep (cmdArg c 2) d.d, throttleAt := orKeep (cmdArg c 4) d.throttleAt }.heat d.temp
    .done (s.modPart (cmdPart c) fun p => { p with wlog := orKeep (cmdArg c 3) p.wlog }) 0 [] []

/-- Meaning of GOVSET. -/
def execGovset (s : State) : Host.Outcome State Fault Refusal := hostCommand .govset "GOVSET" govset s

/-! ### Queries (R368) -/

/-- A count as a query returns it: 64 bits, saturated. -/
def count64 (n : Nat) : Word := word (min n (2 ^ 64 - 1))

/-- A mask of the indices below `n` that satisfy `p`. -/
def maskOf (n : Nat) (p : Nat → Bool) : Nat := (List.range n).foldl (fun m k => if p k then m ||| 1 <<< k else m) 0

/-- Bytes 0 to 3 of a word from the dies. -/
def dieBytes (s : State) (f : Die → Nat) : Nat := (List.range 4).foldl (fun m k => m ||| (f (s.die k) % 256) <<< (8 * k)) 0

/-- Logical cores that Ridge may place units on. -/
def State.placeableAll (s : State) : Nat := (s.cores.toList.filter fun c => !c.unplaceable).length

/-- QUERY item 0: PCC. -/
def queryPcc (s : State) (_ : Command) : CmdRes := .done s 0 [word s.pcc] []
/-- Meaning of QUERY_PCC. -/
def execQueryPcc (s : State) : Host.Outcome State Fault Refusal := hostCommand .queryPcc "QUERY_PCC" queryPcc s

/-- QUERY item 1: spares. -/
def querySpares (s : State) (_ : Command) : CmdRes :=
  .done s 0 [word (dieBytes s Die.spareCores ||| dieBytes s Die.spareSlices <<< 32), word (maskOf 16 fun k => vget s.reserve k false),
    word (maskOf 48 fun k => (s.port k).spare), word s.placeableAll] []
/-- Meaning of QUERY_SPARES. -/
def execQuerySpares (s : State) : Host.Outcome State Fault Refusal := hostCommand .querySpares "QUERY_SPARES" querySpares s

/-- QUERY item 2: the partition. -/
def queryPartition (s : State) (c : Command) : CmdRes :=
  needPart s c fun p => .done s 0 [word p.clusters, word p.tenant, word (maskOf 64 fun g => match assoc s.graphs g with
    | some gr => gr.part == cmdPart c | none => false), word (s.placeable (cmdPart c)).length, word p.wlog] []
/-- Meaning of QUERY_PARTITION. -/
def execQueryPartition (s : State) : Host.Outcome State Fault Refusal := hostCommand .queryPartition "QUERY_PARTITION" queryPartition s

/-- QUERY item 3: a tenant at a port. -/
def queryPortTenant (s : State) (c : Command) : CmdRes :=
  if 48 ≤ cmdArg c 1 ∨ 4096 ≤ cmdArg c 2 then .status s 1
  else
    let p := s.port (cmdArg c 1)
    let n := (p.counts.find? fun x => x.tenant == cmdArg c 2).getD
      { tenant := cmdArg c 2, refused := 0, errors := 0, outFlits := 0, inFlits := 0 }
    .done s 0 [count64 n.refused, count64 n.errors, word (b2n (p.fenced.contains (cmdArg c 2))), count64 n.outFlits, count64 n.inFlits] []
/-- Meaning of QUERY_PORT_TENANT. -/
def execQueryPortTenant (s : State) : Host.Outcome State Fault Refusal := hostCommand .queryPortTenant "QUERY_PORT_TENANT" queryPortTenant s

/-- QUERY item 4: a die's Yelm queue. -/
def queryYelmQueue (s : State) (c : Command) : CmdRes :=
  if 4 ≤ cmdArg c 1 then .status s 1
  else
    let y := s.yelm (cmdArg c 1)
    .done s 0 [count64 y.discard, count64 y.noStep, word (match y.part with | some p => p | none => 0x80), word y.server] []
/-- Meaning of QUERY_YELM_QUEUE. -/
def execQueryYelmQueue (s : State) : Host.Outcome State Fault Refusal := hostCommand .queryYelmQueue "QUERY_YELM_QUEUE" queryYelmQueue s

/-- QUERY item 5: the i-th newest repair report kept. -/
def queryRepairReport (s : State) (c : Command) : CmdRes :=
  match s.reports[cmdArg c 1]? with
  | none => .status s 1
  | some r => .done s 0 [r.extractLsb' 0 64, r.extractLsb' 64 64, word s.reports.length, count64 s.reportCount] []
/-- Meaning of QUERY_REPAIR_REPORT. -/
def execQueryRepairReport (s : State) : Host.Outcome State Fault Refusal := hostCommand .queryRepairReport "QUERY_REPAIR_REPORT" queryRepairReport s

/-- QUERY item 6: temperatures. -/
def queryTemperature (s : State) (_ : Command) : CmdRes :=
  .done s 0 [word (dieBytes s Die.temp), word (dieBytes s Die.throttleAt), word (maskOf 4 fun k => (s.die k).throttling)] []
/-- Meaning of QUERY_TEMPERATURE. -/
def execQueryTemperature (s : State) : Host.Outcome State Fault Refusal := hostCommand .queryTemperature "QUERY_TEMPERATURE" queryTemperature s

/-- QUERY item 7: error counts. -/
def queryErrorCounts (s : State) (_ : Command) : CmdRes := .done s 0 [count64 s.errCount.single, count64 s.errCount.double] []
/-- Meaning of QUERY_ERROR_COUNTS. -/
def execQueryErrorCounts (s : State) : Host.Outcome State Fault Refusal := hostCommand .queryErrorCounts "QUERY_ERROR_COUNTS" queryErrorCounts s

end Sys2Proof.Machine
end

