-- ==== Sys2Proof/Machine/Submit.lean ====
section
/-! DEFINITION. Kernel images at load (R113, R114), and graphs at submission (R290, R294, R298, R328). -/

namespace Sys2Proof.Machine

/-! ### Images -/

/-- The fields of an image header (R113). -/
structure ImageHeader where
  entry  : Nat
  dcount : Nat
  islen  : Nat
  wcount : Nat
  doff   : Nat
  ioff   : Nat
  woff   : Nat
  loff   : Nat
  datoff : Nat
  datlen : Nat
  lhlen  : Nat
  deriving DecidableEq, Repr

/-- The fields of a header's 512 bits. -/
def imageHeader (x : WindowWord) : ImageHeader :=
  { entry := fld x 95 64, dcount := fld x 108 96, islen := fld x 159 128, wcount := fld x 168 160, doff := fld x 223 192
    ioff := fld x 255 224, woff := fld x 287 256, loff := fld x 319 288, datoff := fld x 351 320, datlen := fld x 383 352
    lhlen := fld x 415 384 }

/-- Sections as (offset, length), the header first. -/
def ImageHeader.sections (h : ImageHeader) : List (Nat × Nat) :=
  [(0, 64), (h.doff, 48 * h.dcount), (h.ioff, 2 * h.islen), (h.woff, 64 * h.wcount), (h.loff, h.lhlen), (h.datoff, h.datlen)]

/-- No two of the sections share a byte. -/
def apart : List (Nat × Nat) → Bool
  | [] => true
  | (a, n) :: r => (r.all fun y => n == 0 || y.2 == 0 || decide (a + n ≤ y.1) || decide (y.1 + y.2 ≤ a)) && apart r

/-- The image passes R114. -/
def imageOk (x : WindowWord) : Bool :=
  let h := imageHeader x
  fld x 31 0 == 0x38464A4B && fld x 47 32 == 1 && fld x 63 48 == 0 && fld x 127 109 == 0 && fld x 191 169 == 0 &&
  fld x 511 416 == 0 && decide (h.dcount ≤ 4096) && decide (1 ≤ h.islen) && decide (h.islen ≤ 16384) && decide (h.wcount ≤ 256) &&
  decide (h.entry < h.islen) && ([h.doff, h.ioff, h.woff, h.loff, h.datoff].all fun o => o % 64 == 0) && apart h.sections

/-- One past the last byte of the image. -/
def ImageHeader.extent (h : ImageHeader) : Nat := (h.sections.map fun y => if y.2 = 0 then 0 else y.1 + y.2).foldl max 0

/-- The image at a physical address. -/
def State.imageAt (s : State) (pa : Nat) (h : ImageHeader) : Image :=
  { dict := (List.range h.dcount).map fun k => BitVec.ofNat 384 (s.readNat (pa + h.doff + 48 * k) 48)
    stream := (List.range h.islen).map fun k => BitVec.ofNat 16 (s.readNat (pa + h.ioff + 2 * k) 2)
    windows := (List.range h.wcount).map fun k => BitVec.ofNat 512 (s.readNat (pa + h.woff + 64 * k) 64)
    entry := h.entry }

/-- The lowest number below `n` that is not a key. -/
def freeKey {α : Type} (l : List (Nat × α)) (n : Nat) : Option Nat := (List.range n).find? fun k => (assoc l k).isNone

/-- IMGLOAD (R114, R367). -/
def imgload (s : State) (c : Command) : CmdRes :=
  let pa := cmdArg c 0
  let va := cmdArg c 1
  needPart s c fun _ =>
    if !isLocal pa 64 then .status s 7
    else
      let r := s.checkRead (paRange pa 64)
      if r.2.isSome then .status r.1 7
      else
        let x : WindowWord := BitVec.ofNat 512 (s.readNat pa 64)
        let h := imageHeader x
        if !imageOk x then .status r.1 3
        else if !isLocal pa h.extent then .status r.1 7
        else
          let q := r.1.checkRead (h.sections.flatMap fun y => paRange (pa + y.1) y.2)
          let data := s.homeBytes (pa + h.datoff) h.datlen
          let dest := s.ridgeSpan (cmdPart c) .read va h.datlen
          let keys := match dest with | some sp => sp.keys | none => []
          if q.2.isSome then .status q.1 7
          else if decide (Config.vaLimit < va + h.datlen) || dest.isNone || keys.any isRemote then .status q.1 7
          else match freeKey s.images 4096 with
            | none => .status q.1 5
            | some k =>
              let ds := (keys.zip data).map fun b =>
                ({ key := b.1, val := b.2, mask := 0xFF, obj := none, ser := 0, cmp := false } : DirtyByte)
              if (q.1.blockedWrites ds).isEmpty then
                .done ({ q.1 with images := (k, s.imageAt pa h) :: s.images }.writeHomes (keys.zip data)) 0 [word k] []
              else .status q.1.countDouble 7

/-- Meaning of IMGLOAD. -/
def execImgload (s : State) : Host.Outcome State Fault Refusal := hostCommand .imgload "IMGLOAD" imgload s

/-- A resident graph names the image. -/
def State.imageUsed (s : State) (k : Nat) : Bool :=
  s.graphs.any fun g => g.2.nodes.any fun n => ndKind n.word == 0 && ndImg n.word == k

/-- IMGFREE (R367). -/
def imgfree (s : State) (c : Command) : CmdRes :=
  let k := cmdArg c 0
  if (assoc s.images k).isNone then .status s 1
  else if s.imageUsed k then .status s 6
  else .done { s with images := s.images.filter fun i => i.1 != k } 0 [] []

/-- Meaning of IMGFREE. -/
def execImgfree (s : State) : Host.Outcome State Fault Refusal := hostCommand .imgfree "IMGFREE" imgfree s

/-! ### Graphs (R290, R294) -/

/-- Fields of a node that R290 sets to 0 for its KIND, reserved bits and alignment. -/
def nodeOk (w : WindowWord) : Bool :=
  let k := ndKind w
  let n := ndNpred w
  decide (k ≤ 5) && fld w 447 440 == 0 && fld w 383 376 == 0 && fld w 319 192 == 0 && fld w 63 33 == 0 && decide (n ≤ 8) &&
  ((List.range 8).all fun i => if i < n then fld (ndEdge w i) 13 12 == 0 else ndEdge w i == 0) &&
  (k == 3 || k == 4 || ndVal w == 0) && (k == 0 || ndRec w == 0) && ndRec w % 16 == 0 && (k != 5 || ndAddr w == 0) &&
  (k == 0 || ndAddr w % 8 == 0) && (k == 2 || ndBody w == 0) && (k == 0 || ndImg w == 0)

/-- Edges of node `k` name lower nodes that are no bodies; true and false edges come from cond nodes. -/
def edgesOk (ws : List WindowWord) (bs : List Nat) (k : Nat) (w : WindowWord) : Bool :=
  (ndEdges w).all fun e => decide (e.2 < k) && !bs.contains e.2 &&
    (e.1 == 0 || e.1 == 3 || (ws[e.2]?.map ndKind) == some 1)

/-- The graph as an array of nodes passes R294, but for what its headers and images say. -/
def graphOk (ws : List WindowWord) : Bool :=
  let bs := (ws.filter fun w => ndKind w == 2).map ndBody
  let ends := ws.filter fun w => ndKind w == 5
  ws.all nodeOk && (ws.zipIdx.all fun w => edgesOk ws bs w.2 w.1) && ends.length == 1 && (ends.all fun w => ndNpred w == 0) &&
  (bs.all fun b => match ws[b]? with | some w => ndKind w == 0 && ndNpred w == 0 | none => false) && bs.eraseDups.length == bs.length

/-- What reading a launch node's header gives. -/
inductive HeadRead where
  | good (h : Header)
  | unreadable
  | refused
  deriving DecidableEq, Repr

/-- Reads and checks the launch header of a launch node, over a loaded image (R294, R298, R328), with the state after its reads: their errors
are corrected and counted (R189, R368). -/
def State.readHeader (s : State) (part : Nat) (w : WindowWord) : State × HeadRead :=
  match assoc s.images (ndImg w) with
  | none => (s, .refused)
  | some im =>
    let t := s.ridgeTouch part (ndAddr w) 64
    match s.ridgeRead part (ndAddr w) 64 [] with
    | .bytes b =>
      let x : WindowWord := BitVec.ofNat 512 (ofBytes b)
      let n := fld x 447 441
      if 64 < n then (t, .refused)
      else
        let u := t.ridgeTouch part (ndAddr w + 64) (16 * n)
        match t.ridgeRead part (ndAddr w + 64) (16 * n) [] with
        | .bytes r =>
          let regs := (List.range n).map fun k => (r.drop (16 * k)).take 16
          let h := headerOf x regs
          (u, if headerOk x regs h (s.placeable part).length im.stream.length && im.windows.all windowOk &&
              s.holdable part h { first := 0, size := max 1 h.unitSize, saved := [] }
            then .good h else .refused)
        | _ => (u, .unreadable)
    | _ => (t, .unreadable)

/-- Reads the headers of the launch nodes among some nodes, in order. -/
def State.readHeaders (s : State) (part : Nat) : List WindowWord → State × List (WindowWord × Option HeadRead)
  | [] => (s, [])
  | w :: ws =>
    if ndKind w = 0 then
      let r := s.readHeader part w
      let q := r.1.readHeaders part ws
      (q.1, (w, some r.2) :: q.2)
    else
      let q := s.readHeaders part ws
      (q.1, (w, none) :: q.2)

/-- A node as the graph becomes resident. -/
def newNode (w : WindowWord) (h : Option Header) : Node :=
  { word := w, state := .waiting, since := 0, eff := ndPri w, sent := false, polled := none, launch := none, lh := h }

/-- Makes a graph resident under a number; its nodes without predecessors are ready (R291). -/
def State.submit (s : State) (g part record : Nat) (ns : List Node) : State :=
  { s with
    serial := s.serial + 1
    graphs := (g, { part := part, order := s.serial, record := record, nodes := ns, status := 0, sent := false }) :: s.graphs }.settleGraph g

/-- GSUBMIT (R294, R367). -/
def gsubmit (s : State) (c : Command) : CmdRes :=
  let pa := cmdArg c 0
  let n := cmdArg c 1
  let record := cmdArg c 2
  let part := cmdPart c
  if n = 0 ∨ 4096 < n ∨ record % 16 ≠ 0 ∨ Config.vaLimit ≤ record then .status s 1
  else needPart s c fun _ =>
    if !isLocal pa (64 * n) then .status s 7
    else
      let r := s.checkRead (paRange pa (64 * n))
      let s := r.1
      if r.2.isSome then .status s 7
      else match freeKey s.graphs 64 with
        | none => .status s 5
        | some g =>
          let ws : List WindowWord := (List.range n).map fun k => BitVec.ofNat 512 (s.readNat (pa + 64 * k) 64)
          if !graphOk ws then .status s 4
          else
            let q := s.readHeaders part ws
            let s := q.1
            let hs := q.2
            if hs.any fun h => h.2 == some .unreadable then .status s 7
            else if hs.any fun h => h.2 == some .refused then .status s 4
            else
              let ns := hs.map fun h => newNode h.1 (match h.2 with | some (.good x) => some x | _ => none)
              .done (s.submit g part record ns) 0 [word g] []

/-- Meaning of GSUBMIT. -/
def execGsubmit (s : State) : Host.Outcome State Fault Refusal := hostCommand .gsubmit "GSUBMIT" gsubmit s

end Sys2Proof.Machine
end

