-- ==== Sys2Proof/Machine/FabricConfig.lean ====
section
/-! DEFINITION. FABCFG (R369): key and share tables, port modes, outbound keys, domain and routes, reduction trees, UALink sources,
fences, lane thresholds. -/

namespace Sys2Proof.Machine

/-- Bits of an argument that the layout does not name are 0; `named` is the mask of those it names. -/
def argOf (c : Command) (k named : Nat) : Bool := (vget c.a k 0) &&& ~~~(word named) == 0

/-- The ports that a port argument names: one, or 63 for every port. -/
def portsOf (x : Nat) (all : Bool) : List Nat := if x < 48 then [x] else if x = 63 ∧ all then List.range 48 else []

/-- Changes the named ports. -/
def State.modPorts (s : State) (ps : List Nat) (f : Port → Port) : State := ps.foldl (fun s p => s.modPort p f) s

/-- SUB 0: a key entry (R337). -/
def fabKey (s : State) (c : Command) : CmdRes :=
  let e := vget c.a 3 0
  let ps := portsOf (cmdArg c 1) true
  if ps.isEmpty ∨ !argOf c 2 0xFFF ∨ fld e 59 56 ≠ 0 ∨ fld e 39 20 < fld e 19 0 then .status s 1
  else .done (s.modPorts ps fun p => { p with keys := assocSet p.keys (cmdArg c 2) e }) 0 [] []
/-- Meaning of FABCFG_KEY_ENTRY. -/
def execFabcfgKeyEntry (s : State) : Host.Outcome State Fault Refusal := hostCommand .fabcfgKeyEntry "FABCFG_KEY_ENTRY" fabKey s

/-- SUB 1: a share entry (R340). -/
def fabShare (s : State) (c : Command) : CmdRes :=
  let port := cmdArg c 1 % 64
  let dir := bit (vget c.a 1 0) 8
  let e := vget c.a 3 0
  if !argOf c 1 0x13F ∨ 48 ≤ port ∨ !argOf c 2 0xFF ∨ !argOf c 3 (2 ^ 63 + 0xFFFFF) ∨ fld e 7 0 = 0 then .status s 1
  else .done (s.modPort port fun p =>
    { p with shares := ((dir, cmdArg c 2), e) :: p.shares.filter fun x => x.1 != (dir, cmdArg c 2) }) 0 [] []
/-- Meaning of FABCFG_SHARE_ENTRY. -/
def execFabcfgShareEntry (s : State) : Host.Outcome State Fault Refusal := hostCommand .fabcfgShareEntry "FABCFG_SHARE_ENTRY" fabShare s

/-- A port takes a mode; a change drops what is queued on it (R331). -/
def State.setMode (s : State) (mode p : Nat) : State :=
  if (s.port p).mode = mode then s else s.portDown p fun x => { x with mode := mode }

/-- SUB 2: the port mode (R331). -/
def fabMode (s : State) (c : Command) : CmdRes :=
  let ps := portsOf (cmdArg c 1) true
  if ps.isEmpty ∨ 3 ≤ cmdArg c 2 ∨ cmdArg c 3 ≠ 0 then .status s 1 else .done (ps.foldl (fun s p => s.setMode (cmdArg c 2) p) s) 0 [] []
/-- Meaning of FABCFG_PORT_MODE. -/
def execFabcfgPortMode (s : State) : Host.Outcome State Fault Refusal := hostCommand .fabcfgPortMode "FABCFG_PORT_MODE" fabMode s

/-- SUB 3: an outbound key (R333). -/
def fabOutKey (s : State) (c : Command) : CmdRes :=
  if !argOf c 1 0xFFF ∨ !argOf c 2 0xFFFF ∨ cmdArg c 3 ≠ 0 then .status s 1
  else .done { s with outKeys := assocSet s.outKeys (cmdArg c 1) ((vget c.a 2 0).setWidth 16) } 0 [] []
/-- Meaning of FABCFG_OUTBOUND_KEY. -/
def execFabcfgOutboundKey (s : State) : Host.Outcome State Fault Refusal := hostCommand .fabcfgOutboundKey "FABCFG_OUTBOUND_KEY" fabOutKey s

/-- SUB 4, A1 0: the domain size (R335). -/
def fabDomain (s : State) (c : Command) : CmdRes :=
  let n := cmdArg c 2
  if n = 0 ∨ 9216 < n ∨ cmdArg c 3 ≠ 0 then .status s 1 else .done { s with domain := n } 0 [] []
/-- Meaning of FABCFG_DOMAIN_SIZE. -/
def execFabcfgDomainSize (s : State) : Host.Outcome State Fault Refusal := hostCommand .fabcfgDomainSize "FABCFG_DOMAIN_SIZE" fabDomain s

/-- SUB 4, A1 1: a route; a mask of 0 removes it. -/
def fabRoute (s : State) (c : Command) : CmdRes :=
  let dst := cmdArg c 2
  let mask := cmdArg c 3
  if !argOf c 2 0x3FFF ∨ 2 ^ 48 ≤ mask then .status s 1
  else .done { s with routes := if mask = 0 then s.routes.filter fun r => r.1 != dst else assocSet s.routes dst mask } 0 [] []
/-- Meaning of FABCFG_ROUTE. -/
def execFabcfgRoute (s : State) : Host.Outcome State Fault Refusal := hostCommand .fabcfgRoute "FABCFG_ROUTE" fabRoute s

/-- SUB 4, A1 2: the package's own number, only while every port is down. -/
def fabOwn (s : State) (c : Command) : CmdRes :=
  if 9216 ≤ cmdArg c 2 ∨ cmdArg c 3 ≠ 0 then .status s 1
  else if s.ports.toList.any Port.up then .status s 6
  else .done { s with accNum := cmdArg c 2 } 0 [] []
/-- Meaning of FABCFG_OWN_ACCELERATOR. -/
def execFabcfgOwnAccelerator (s : State) : Host.Outcome State Fault Refusal :=
  hostCommand .fabcfgOwnAccelerator "FABCFG_OWN_ACCELERATOR" fabOwn s

/-! ### Reduction trees (R343) -/

/-- A leaf entry. -/
def leafOf (x : Nat) : TreeNode := { acc := x % 2 ^ 14, die := 0, parent := some (x >>> 16 % 2 ^ 12), inp := x >>> 28 % 16 }

/-- A stage entry. -/
def stageOf (x : Nat) : TreeNode :=
  let par := x >>> 16 % 2 ^ 12
  { acc := x % 2 ^ 14, die := x >>> 14 % 4, parent := if par = 0xFFF then none else some par, inp := x >>> 28 % 16 }

/-- The stage reaches the root within `n` links. -/
def reachesRoot (ss : List TreeNode) : Nat → Nat → Bool
  | 0, _ => false
  | n + 1, k => match ss[k]? with
    | some t => match t.parent with | none => true | some p => reachesRoot ss n p
    | none => false

/-- The links of a tree are as R369 requires, in a domain. -/
def treeOk (domain : Nat) (t : Tree) : Bool :=
  let n := t.stages.length
  let ins := (t.leaves ++ t.stages).filterMap fun x => x.parent.map fun p => (p, x.inp)
  ((t.leaves ++ t.stages).all fun x => decide (x.acc < domain) && decide (x.inp ≤ 12) &&
    match x.parent with | some p => decide (p < n) | none => x.inp == 0) &&
  (t.stages.filter fun x => x.parent.isNone).length == 1 && ((List.range n).all fun k => reachesRoot t.stages n k) &&
  ins.eraseDups.length == ins.length

/-- The accelerator of the root stage. -/
def Tree.rootAcc (t : Tree) : Nat := match t.stages.find? fun x => x.parent.isNone with | some x => x.acc | none => 0

/-- A tree without what its rounds have collected. -/
def State.dropTree (s : State) (num : Nat) : State :=
  { s with trees := s.trees.filter fun t => t.num != num, streams := s.streams.filter fun x => x.tree != num
           rounds := s.rounds.filter fun r => r.1.1 != num }

/-- SUB 5: loads or deletes a reduction tree. -/
def fabTree (s : State) (c : Command) : CmdRes :=
  let num := cmdArg c 1
  let pa := cmdArg c 2
  let len := cmdArg c 3
  if !argOf c 1 0xFFFF ∨ pa % 16 ≠ 0 then .status s 1
  else if pa = 0 then .done (s.dropTree num) 0 [] []
  else if len < 32 ∨ 16 + 8 * 8190 < len then .status s 1
  else if !isLocal pa len then .status s 7
  else
    let r := s.checkRead (paRange pa len)
    let s := r.1
    if r.2.isSome then .status s 7
    else
      let h : BitVec 128 := BitVec.ofNat 128 (s.readNat pa 16)
      let nl := fld h 27 16
      let ns := fld h 43 32
      let xs := (List.range (nl + ns)).map fun k => s.readNat (pa + 16 + 8 * k) 8
      let t : Tree := { num := num, ten := fld h 11 0, cap := fld h 95 64, part := 0, leaves := (xs.take nl).map leafOf
                        stages := (xs.drop nl).map stageOf }
      if len ≠ 16 + 8 * (nl + ns) ∨ nl = 0 ∨ ns = 0 ∨ fld h 127 96 ≠ 0 ∨ fld h 63 44 ≠ 0 ∨ fld h 31 28 ≠ 0 ∨ fld h 15 12 ≠ 0 ∨
          t.cap % 8 ≠ 0 ∨ t.cap = 0 ∨ (xs.any fun x => x >>> 32 != 0) ∨ ((xs.take nl).any fun x => x >>> 14 % 4 != 0) ∨
          !treeOk s.domain t then .status s 1
      else if t.rootAcc = s.accNum ∧ (s.part (cmdPart c)).map (·.tenant) ≠ some t.ten then .status s 2
      else
        let s := s.dropTree num
        -- PART is used on the root accelerator alone
        .done { s with trees := (if t.rootAcc = s.accNum then { t with part := cmdPart c } else t) :: s.trees } 0 [] []
/-- Meaning of FABCFG_REDUCTION_TREE. -/
def execFabcfgReductionTree (s : State) : Host.Outcome State Fault Refusal :=
  hostCommand .fabcfgReductionTree "FABCFG_REDUCTION_TREE" fabTree s

/-- SUB 6: a UALink source entry (R341). -/
def fabSource (s : State) (c : Command) : CmdRes :=
  let e := vget c.a 3 0
  if 48 ≤ cmdArg c 1 ∨ !argOf c 2 0x3FF ∨ !argOf c 3 (2 ^ 63 + 0xFFF) then .status s 1
  else .done (s.modPort (cmdArg c 1) fun p =>
    { p with sources := if bit e 63 then assocSet p.sources (cmdArg c 2) (fld e 11 0) else p.sources.filter fun x => x.1 != cmdArg c 2 }) 0 [] []
/-- Meaning of FABCFG_UALINK_SOURCE. -/
def execFabcfgUalinkSource (s : State) : Host.Outcome State Fault Refusal := hostCommand .fabcfgUalinkSource "FABCFG_UALINK_SOURCE" fabSource s

/-- SUB 7: lifts a tenant's fence at a port (R339). -/
def fabLift (s : State) (c : Command) : CmdRes :=
  if 48 ≤ cmdArg c 1 ∨ !argOf c 2 0xFFF ∨ cmdArg c 3 ≠ 0 then .status s 1
  else .done (s.modPort (cmdArg c 1) fun p => { p with fenced := p.fenced.filter fun t => t != cmdArg c 2 }) 0 [] []
/-- Meaning of FABCFG_LIFT_FENCE. -/
def execFabcfgLiftFence (s : State) : Host.Outcome State Fault Refusal := hostCommand .fabcfgLiftFence "FABCFG_LIFT_FENCE" fabLift s

/-- SUB 8: the lane-retirement threshold (R332). -/
def fabLane (s : State) (c : Command) : CmdRes :=
  let ps := portsOf (cmdArg c 1) true
  let n := cmdArg c 2
  if ps.isEmpty ∨ n = 0 ∨ 1048575 < n ∨ cmdArg c 3 ≠ 0 then .status s 1 else .done (s.modPorts ps fun p => { p with thresh := n }) 0 [] []
/-- Meaning of FABCFG_LANE_THRESHOLD. -/
def execFabcfgLaneThreshold (s : State) : Host.Outcome State Fault Refusal := hostCommand .fabcfgLaneThreshold "FABCFG_LANE_THRESHOLD" fabLane s

end Sys2Proof.Machine
end

