-- ==== Sys2Proof/Machine/Power.lean ====
section
/-! DEFINITION. Power, RESET and bring-up (R367, R373). -/

namespace Sys2Proof.Machine

/-- The ready event of a package (R373): placeable cores and spare cores left. -/
def State.readyEvent (s : State) : BitVec 128 :=
  reportWord 0 0 0 s.placeableAll ((s.dies.toList.map Die.spareCores).foldl (· + ·) 0) 255

/-- A core after bring-up: idle; its retired physical core replaced where its die has a spare for it, as `spare` says. -/
def Core.fresh (c : Core) (spare : Bool) : Core := { Core.idle with unplaceable := c.unplaceable || (c.spareDue && !spare) }

/-- Retired cores of a die that no spare has replaced yet, lower numbers first. -/
def State.dueOn (s : State) (die : Nat) : List Nat := (dieCores die).filter fun i => (s.core i).spareDue

/-- A spare of the die replaces the core at bring-up. -/
def State.spareWaits (s : State) (i : Nat) : Bool :=
  decide (((s.dueOn (dieOf i)).takeWhile fun k => k != i).length < (s.die (dieOf i)).spareCores)

/-- The state after step 1 to 4 of R373. What is fused or worn stays: spare mappings, retired lanes, replaced pseudo-channels. The
history of blocks sent, the dies' temperatures and what the outside does stay too: a die still at its throttle point throttles, and
one at 110 °C reports and issues nothing (R374). -/
def State.bringUp (s : State) : State :=
  let t : State :=
    { State.reset with
      cores := s.cores.mapIdx fun i c => c.fresh (s.spareWaits i)
      dies := State.reset.dies.mapIdx fun k d =>
        { d with spareCores := (s.die k).spareCores - (s.dueOn k).length, spareSlices := (s.die k).spareSlices }
      ports := s.ports.map fun p => { Port.reset with lanes := p.lanes, spare := p.spare }
      reserve := s.reserve, serial := s.serial, inputs := s.inputs }
  let t := { t with
    reports := [t.readyEvent]
    unoon := { State.reset.unoon with sent := s.unoon.sent ++ [eventBlock t.readyEvent] } }
  (List.range 4).foldl (fun t k => t.heatDie k (s.die k).temp) t

/-- RESET (R367): the response, then bring-up. -/
def resetPackage (s : State) (c : Command) : CmdRes :=
  if cmdArg c 0 ≠ 1 then .status s 1 else .over (s.reply (respond c 0 [] [])).bringUp

/-- Meaning of RESET. -/
def execReset (s : State) : Host.Outcome State Fault Refusal := hostCommand .reset "RESET" resetPackage s

/-- Meaning of POWER_UP (R373). -/
def execPowerUp (s : State) : Host.Outcome State Fault Refusal := when "POWER_UP" (!s.powered) s.bringUp

/-- The package without power: it holds no state but what is fused or worn. -/
def execPowerLoss (s : State) : Host.Outcome State Fault Refusal :=
  when "POWER_LOSS" s.powered { s.bringUp with powered := false, reports := [], reportCount := 0, unoon := { State.reset.unoon with sent := s.unoon.sent } }

end Sys2Proof.Machine
end

