-- ==== Sys2Proof/Machine/Dispatch.lean ====
section
/-! DEFINITION. What each step of the machine does: one arm per constructor of `Instr`, each a direct call of its meaning. -/

namespace Sys2Proof.Machine

def exec (i : Instr) (s : State) : Host.Outcome State Fault Refusal :=
  match i with
  | .nop slot => Sys2Proof.Machine.execNop slot s
  | .branchTree drain tests => Sys2Proof.Machine.execBranchTree drain tests s
  | .add h o => Sys2Proof.Machine.execAdd h o s
  | .sub h o => Sys2Proof.Machine.execSub h o s
  | .and h o => Sys2Proof.Machine.execAnd h o s
  | .or h o => Sys2Proof.Machine.execOr h o s
  | .xor h o => Sys2Proof.Machine.execXor h o s
  | .sll h o => Sys2Proof.Machine.execSll h o s
  | .srl h o => Sys2Proof.Machine.execSrl h o s
  | .sra h o => Sys2Proof.Machine.execSra h o s
  | .min h o => Sys2Proof.Machine.execMin h o s
  | .max h o => Sys2Proof.Machine.execMax h o s
  | .minu h o => Sys2Proof.Machine.execMinu h o s
  | .maxu h o => Sys2Proof.Machine.execMaxu h o s
  | .shadd h o => Sys2Proof.Machine.execShadd h o s
  | .clz h o => Sys2Proof.Machine.execClz h o s
  | .ctz h o => Sys2Proof.Machine.execCtz h o s
  | .popc h o => Sys2Proof.Machine.execPopc h o s
  | .bext h o => Sys2Proof.Machine.execBext h o s
  | .bins h o => Sys2Proof.Machine.execBins h o s
  | .mul h o => Sys2Proof.Machine.execMul h o s
  | .mulh h o => Sys2Proof.Machine.execMulh h o s
  | .mulhu h o => Sys2Proof.Machine.execMulhu h o s
  | .div h o => Sys2Proof.Machine.execDiv h o s
  | .divu h o => Sys2Proof.Machine.execDivu h o s
  | .rem h o => Sys2Proof.Machine.execRem h o s
  | .remu h o => Sys2Proof.Machine.execRemu h o s
  | .sel h o => Sys2Proof.Machine.execSel h o s
  | .addi h o => Sys2Proof.Machine.execAddi h o s
  | .andi h o => Sys2Proof.Machine.execAndi h o s
  | .ori h o => Sys2Proof.Machine.execOri h o s
  | .xori h o => Sys2Proof.Machine.execXori h o s
  | .slli h o => Sys2Proof.Machine.execSlli h o s
  | .srli h o => Sys2Proof.Machine.execSrli h o s
  | .srai h o => Sys2Proof.Machine.execSrai h o s
  | .li h o => Sys2Proof.Machine.execLi h o s
  | .lih h o => Sys2Proof.Machine.execLih h o s
  | .cmp h o => Sys2Proof.Machine.execCmp h o s
  | .cmpi h o => Sys2Proof.Machine.execCmpi h o s
  | .pand h o => Sys2Proof.Machine.execPand h o s
  | .por h o => Sys2Proof.Machine.execPor h o s
  | .pxor h o => Sys2Proof.Machine.execPxor h o s
  | .pandn h o => Sys2Proof.Machine.execPandn h o s
  | .ptst h o => Sys2Proof.Machine.execPtst h o s
  | .bli h o => Sys2Proof.Machine.execBli h o s
  | .bmov h o => Sys2Proof.Machine.execBmov h o s
  | .bget h o => Sys2Proof.Machine.execBget h o s
  | .loop h o => Sys2Proof.Machine.execLoop h o s
  | .lbrk h o => Sys2Proof.Machine.execLbrk h o s
  | .lget h o => Sys2Proof.Machine.execLget h o s
  | .rotcfg h o => Sys2Proof.Machine.execRotcfg h o s
  | .swp h o => Sys2Proof.Machine.execSwp h o s
  | .bsel h o => Sys2Proof.Machine.execBsel h o s
  | .dbind h o => Sys2Proof.Machine.execDbind h o s
  | .dfree h o => Sys2Proof.Machine.execDfree h o s
  | .dget h o => Sys2Proof.Machine.execDget h o s
  | .tyget h o => Sys2Proof.Machine.execTyget h o s
  | .tyset h o => Sys2Proof.Machine.execTyset h o s
  | .csrr h o => Sys2Proof.Machine.execCsrr h o s
  | .csrw h o => Sys2Proof.Machine.execCsrw h o s
  | .csrs h o => Sys2Proof.Machine.execCsrs h o s
  | .csrc h o => Sys2Proof.Machine.execCsrc h o s
  | .trap h o => Sys2Proof.Machine.execTrap h o s
  | .tret h o => Sys2Proof.Machine.execTret h o s
  | .exit h o => Sys2Proof.Machine.execExit h o s
  | .wait h o => Sys2Proof.Machine.execWait h o s
  | .bar h o => Sys2Proof.Machine.execBar h o s
  | .vfadd h o => Sys2Proof.Machine.execVfadd h o s
  | .vfsub h o => Sys2Proof.Machine.execVfsub h o s
  | .vfmul h o => Sys2Proof.Machine.execVfmul h o s
  | .vffma h o => Sys2Proof.Machine.execVffma h o s
  | .vffms h o => Sys2Proof.Machine.execVffms h o s
  | .vfmin h o => Sys2Proof.Machine.execVfmin h o s
  | .vfmax h o => Sys2Proof.Machine.execVfmax h o s
  | .vfabs h o => Sys2Proof.Machine.execVfabs h o s
  | .vfneg h o => Sys2Proof.Machine.execVfneg h o s
  | .vfdiv h o => Sys2Proof.Machine.execVfdiv h o s
  | .vfsqrt h o => Sys2Proof.Machine.execVfsqrt h o s
  | .vfexp2 h o => Sys2Proof.Machine.execVfexp2 h o s
  | .vflog2 h o => Sys2Proof.Machine.execVflog2 h o s
  | .vfrcp h o => Sys2Proof.Machine.execVfrcp h o s
  | .vfrsq h o => Sys2Proof.Machine.execVfrsq h o s
  | .vadd h o => Sys2Proof.Machine.execVadd h o s
  | .vsub h o => Sys2Proof.Machine.execVsub h o s
  | .vmul h o => Sys2Proof.Machine.execVmul h o s
  | .vmulh h o => Sys2Proof.Machine.execVmulh h o s
  | .vand h o => Sys2Proof.Machine.execVand h o s
  | .vor h o => Sys2Proof.Machine.execVor h o s
  | .vxor h o => Sys2Proof.Machine.execVxor h o s
  | .vandn h o => Sys2Proof.Machine.execVandn h o s
  | .vsll h o => Sys2Proof.Machine.execVsll h o s
  | .vsrl h o => Sys2Proof.Machine.execVsrl h o s
  | .vsra h o => Sys2Proof.Machine.execVsra h o s
  | .vmin h o => Sys2Proof.Machine.execVmin h o s
  | .vmax h o => Sys2Proof.Machine.execVmax h o s
  | .vabs h o => Sys2Proof.Machine.execVabs h o s
  | .vcvt h o => Sys2Proof.Machine.execVcvt h o s
  | .vmerge h o => Sys2Proof.Machine.execVmerge h o s
  | .vfcmp h o => Sys2Proof.Machine.execVfcmp h o s
  | .vcmp h o => Sys2Proof.Machine.execVcmp h o s
  | .vperm h o => Sys2Proof.Machine.execVperm h o s
  | .vslide h o => Sys2Proof.Machine.execVslide h o s
  | .vbcast h o => Sys2Proof.Machine.execVbcast h o s
  | .vlane h o => Sys2Proof.Machine.execVlane h o s
  | .vmovs h o => Sys2Proof.Machine.execVmovs h o s
  | .vmovsIns h o => Sys2Proof.Machine.execVmovsIns h o s
  | .vfred h o => Sys2Proof.Machine.execVfred h o s
  | .vred h o => Sys2Proof.Machine.execVred h o s
  | .vfscan h o => Sys2Proof.Machine.execVfscan h o s
  | .vscan h o => Sys2Proof.Machine.execVscan h o s
  | .mand h o => Sys2Proof.Machine.execMand h o s
  | .mor h o => Sys2Proof.Machine.execMor h o s
  | .mxor h o => Sys2Proof.Machine.execMxor h o s
  | .mandn h o => Sys2Proof.Machine.execMandn h o s
  | .mpop h o => Sys2Proof.Machine.execMpop h o s
  | .vtrow h o => Sys2Proof.Machine.execVtrow h o s
  | .vtwr h o => Sys2Proof.Machine.execVtwr h o s
  | .vld h o => Sys2Proof.Machine.execVld h o s
  | .vst h o => Sys2Proof.Machine.execVst h o s
  | .vgat h o => Sys2Proof.Machine.execVgat h o s
  | .vsca h o => Sys2Proof.Machine.execVsca h o s
  | .vatom h o => Sys2Proof.Machine.execVatom h o s
  | .fpush h o => Sys2Proof.Machine.execFpush h o s
  | .fpop h o => Sys2Proof.Machine.execFpop h o s
  | .ypush h o => Sys2Proof.Machine.execYpush h o s
  | .tmma h o => Sys2Proof.Machine.execTmma h o s
  | .tmmas h o => Sys2Proof.Machine.execTmmas h o s
  | .tmmac h o => Sys2Proof.Machine.execTmmac h o s
  | .tzero h o => Sys2Proof.Machine.execTzero h o s
  | .xpose h o => Sys2Proof.Machine.execXpose h o s
  | .xcvt h o => Sys2Proof.Machine.execXcvt h o s
  | .xquant h o => Sys2Proof.Machine.execXquant h o s
  | .xquantSat h o => Sys2Proof.Machine.execXquantSat h o s
  | .xexp h o => Sys2Proof.Machine.execXexp h o s
  | .xresh h o => Sys2Proof.Machine.execXresh h o s
  | .xcast h o => Sys2Proof.Machine.execXcast h o s
  | .xadd h o => Sys2Proof.Machine.execXadd h o s
  | .xmov h o => Sys2Proof.Machine.execXmov h o s
  | .xch h o => Sys2Proof.Machine.execXch h o s
  | .xchHalfArrival core => Sys2Proof.Machine.execXchHalfArrival core s
  | .pairTimeout core => Sys2Proof.Machine.execPairTimeout core s
  | .partnerFault core => Sys2Proof.Machine.execPartnerFault core s
  | .kscl h o => Sys2Proof.Machine.execKscl h o s
  | .kcode h o => Sys2Proof.Machine.execKcode h o s
  | .kgrant h o => Sys2Proof.Machine.execKgrant h o s
  | .kpad h o => Sys2Proof.Machine.execKpad h o s
  | .kmode h o => Sys2Proof.Machine.execKmode h o s
  | .bankModeReady cluster bank => Sys2Proof.Machine.execBankModeReady cluster bank s
  | .ld h o => Sys2Proof.Machine.execLd h o s
  | .ldW h o => Sys2Proof.Machine.execLdW h o s
  | .ldH h o => Sys2Proof.Machine.execLdH h o s
  | .ldB h o => Sys2Proof.Machine.execLdB h o s
  | .st h o => Sys2Proof.Machine.execSt h o s
  | .stW h o => Sys2Proof.Machine.execStW h o s
  | .stH h o => Sys2Proof.Machine.execStH h o s
  | .stB h o => Sys2Proof.Machine.execStB h o s
  | .vldm h o => Sys2Proof.Machine.execVldm h o s
  | .vstm h o => Sys2Proof.Machine.execVstm h o s
  | .tld h o => Sys2Proof.Machine.execTld h o s
  | .tst h o => Sys2Proof.Machine.execTst h o s
  | .amo h o => Sys2Proof.Machine.execAmo h o s
  | .cas h o => Sys2Proof.Machine.execCas h o s
  | .acq h o => Sys2Proof.Machine.execAcq h o s
  | .rel h o => Sys2Proof.Machine.execRel h o s
  | .releaseTakesPlace core id => Sys2Proof.Machine.execReleaseTakesPlace core id s
  | .xfence h o => Sys2Proof.Machine.execXfence h o s
  | .fence h o => Sys2Proof.Machine.execFence h o s
  | .waitge h o => Sys2Proof.Machine.execWaitge h o s
  | .copy h o => Sys2Proof.Machine.execCopy h o s
  | .copy2d h o => Sys2Proof.Machine.execCopy2d h o s
  | .copywLd h o => Sys2Proof.Machine.execCopywLd h o s
  | .copywSt h o => Sys2Proof.Machine.execCopywSt h o s
  | .gath h o => Sys2Proof.Machine.execGath h o s
  | .scat h o => Sys2Proof.Machine.execScat h o s
  | .cexp h o => Sys2Proof.Machine.execCexp h o s
  | .cred h o => Sys2Proof.Machine.execCred h o s
  | .put h o => Sys2Proof.Machine.execPut h o s
  | .get h o => Sys2Proof.Machine.execGet h o s
  | .ssend h o => Sys2Proof.Machine.execSsend h o s
  | .cadd h o => Sys2Proof.Machine.execCadd h o s
  | .copyCommandStart core ch => Sys2Proof.Machine.execCopyCommandStart core ch s
  | .copyChunkTransfer core ch id remote => Sys2Proof.Machine.execCopyChunkTransfer core ch id remote s
  | .copyChannelFault core ch id => Sys2Proof.Machine.execCopyChannelFault core ch id s
  | .copyChannelResume core ch ok => Sys2Proof.Machine.execCopyChannelResume core ch ok s
  | .completionRecord core ch id code => Sys2Proof.Machine.execCompletionRecord core ch id code s
  | .cexpPermitGrant core ch id => Sys2Proof.Machine.execCexpPermitGrant core ch id s
  | .cexpPermitDeadline core ch id => Sys2Proof.Machine.execCexpPermitDeadline core ch id s
  | .putMatch send => Sys2Proof.Machine.execPutMatch send s
  | .loadDataReturn core id stale remote => Sys2Proof.Machine.execLoadDataReturn core id stale remote s
  | .storePerformed core => Sys2Proof.Machine.execStorePerformed core s
  | .tileLoadArrival core id stale remote => Sys2Proof.Machine.execTileLoadArrival core id stale remote s
  | .tstSourceRead core id => Sys2Proof.Machine.execTstSourceRead core id s
  | .resultLanding core => Sys2Proof.Machine.execResultLanding core s
  | .v1Commit core => Sys2Proof.Machine.execV1Commit core s
  | .tlbWalkComplete core evict => Sys2Proof.Machine.execTlbWalkComplete core evict s
  | .asyncTrap core => Sys2Proof.Machine.execAsyncTrap core s
  | .pageFaultService core ok => Sys2Proof.Machine.execPageFaultService core ok s
  | .coreHardFault core kind idx => Sys2Proof.Machine.execCoreHardFault core kind idx s
  | .watchdog core => Sys2Proof.Machine.execWatchdog core s
  | .preemptRequest core => Sys2Proof.Machine.execPreemptRequest core s
  | .contextSave core ok => Sys2Proof.Machine.execContextSave core ok s
  | .forcedSave core => Sys2Proof.Machine.execForcedSave core s
  | .contextResume core => Sys2Proof.Machine.execContextResume core s
  | .grantIssue die => Sys2Proof.Machine.execGrantIssue die s
  | .launchNode graph node => Sys2Proof.Machine.execLaunchNode graph node s
  | .instanceDispatch part spr => Sys2Proof.Machine.execInstanceDispatch part spr s
  | .condNode graph node remote => Sys2Proof.Machine.execCondNode graph node remote s
  | .whileNode graph node remote => Sys2Proof.Machine.execWhileNode graph node remote s
  | .waitNodePoll graph node remote => Sys2Proof.Machine.execWaitNodePoll graph node remote s
  | .signalNode graph node => Sys2Proof.Machine.execSignalNode graph node s
  | .endNode graph => Sys2Proof.Machine.execEndNode graph s
  | .gridCompletion graph node => Sys2Proof.Machine.execGridCompletion graph node s
  | .coreSpareTakeover core => Sys2Proof.Machine.execCoreSpareTakeover core s
  | .sliceSpareTakeover die slice => Sys2Proof.Machine.execSliceSpareTakeover die slice s
  | .hbmRowBankSpare stack bank => Sys2Proof.Machine.execHbmRowBankSpare stack bank s
  | .pseudoChannelReplace stack => Sys2Proof.Machine.execPseudoChannelReplace stack s
  | .flitCrcRetry l => Sys2Proof.Machine.execFlitCrcRetry l s
  | .laneSwitch l => Sys2Proof.Machine.execLaneSwitch l s
  | .portRequestCheck port f => Sys2Proof.Machine.execPortRequestCheck port f s
  | .errorResponseArrival agent id code => Sys2Proof.Machine.execErrorResponseArrival agent id code s
  | .releaseMarker die f => Sys2Proof.Machine.execReleaseMarker die f s
  | .releaseCompletion die src agent epoch => Sys2Proof.Machine.execReleaseCompletion die src agent epoch s
  | .combStreamMerge tree stage round => Sys2Proof.Machine.execCombStreamMerge tree stage round s
  | .combRootOutput tree round => Sys2Proof.Machine.execCombRootOutput tree round s
  | .yelmQctlPop die => Sys2Proof.Machine.execYelmQctlPop die s
  | .yelmQselWrite die queue => Sys2Proof.Machine.execYelmQselWrite die queue s
  | .stepOpen die remote => Sys2Proof.Machine.execStepOpen die remote s
  | .affinityEntry die => Sys2Proof.Machine.execAffinityEntry die s
  | .stepClose die step remote => Sys2Proof.Machine.execStepClose die step remote s
  | .stepDeadline die step remote => Sys2Proof.Machine.execStepDeadline die step remote s
  | .stepOutputPublish die step => Sys2Proof.Machine.execStepOutputPublish die step s
  | .userRouterException die => Sys2Proof.Machine.execUserRouterException die s
  | .yelmTakeover failed newDie => Sys2Proof.Machine.execYelmTakeover failed newDie s
  | .throttleEntry die temp => Sys2Proof.Machine.execThrottleEntry die temp s
  | .throttleExit die temp => Sys2Proof.Machine.execThrottleExit die temp s
  | .overtempShutdown die temp => Sys2Proof.Machine.execOvertempShutdown die temp s
  | .reservedOpcode slot raw => Sys2Proof.Machine.execReservedOpcode slot raw s
  | .scratchpadStallEnd core => Sys2Proof.Machine.execScratchpadStallEnd core s
  | .writesPerformedAtScope core line => Sys2Proof.Machine.execWritesPerformedAtScope core line s
  | .writeAcknowledgement agent id => Sys2Proof.Machine.execWriteAcknowledgement agent id s
  | .deficitRound port dir => Sys2Proof.Machine.execDeficitRound port dir s
  | .unoonLinkReturn port => Sys2Proof.Machine.execUnoonLinkReturn port s
  | .softError place bits => Sys2Proof.Machine.execSoftError place bits s
  | .scrub pa => Sys2Proof.Machine.execScrub pa s
  | .fifoCountUpdate => Sys2Proof.Machine.execFifoCountUpdate s
  | .putNorecvTimeout => Sys2Proof.Machine.execPutNorecvTimeout s
  | .grantExpiry => Sys2Proof.Machine.execGrantExpiry s
  | .governorWindow => Sys2Proof.Machine.execGovernorWindow s
  | .vectorHeavyCharge => Sys2Proof.Machine.execVectorHeavyCharge s
  | .priorityAging => Sys2Proof.Machine.execPriorityAging s
  | .ridgeTakeover => Sys2Proof.Machine.execRidgeTakeover s
  | .unoonPortTakeover => Sys2Proof.Machine.execUnoonPortTakeover s
  | .pcreate => Sys2Proof.Machine.execPcreate s
  | .pdestroy => Sys2Proof.Machine.execPdestroy s
  | .ptroot => Sys2Proof.Machine.execPtroot s
  | .ptinv => Sys2Proof.Machine.execPtinv s
  | .fabcfgKeyEntry => Sys2Proof.Machine.execFabcfgKeyEntry s
  | .fabcfgShareEntry => Sys2Proof.Machine.execFabcfgShareEntry s
  | .fabcfgPortMode => Sys2Proof.Machine.execFabcfgPortMode s
  | .fabcfgOutboundKey => Sys2Proof.Machine.execFabcfgOutboundKey s
  | .fabcfgDomainSize => Sys2Proof.Machine.execFabcfgDomainSize s
  | .fabcfgRoute => Sys2Proof.Machine.execFabcfgRoute s
  | .fabcfgOwnAccelerator => Sys2Proof.Machine.execFabcfgOwnAccelerator s
  | .fabcfgReductionTree => Sys2Proof.Machine.execFabcfgReductionTree s
  | .fabcfgUalinkSource => Sys2Proof.Machine.execFabcfgUalinkSource s
  | .fabcfgLiftFence => Sys2Proof.Machine.execFabcfgLiftFence s
  | .fabcfgLaneThreshold => Sys2Proof.Machine.execFabcfgLaneThreshold s
  | .memw => Sys2Proof.Machine.execMemw s
  | .memr => Sys2Proof.Machine.execMemr s
  | .imgload => Sys2Proof.Machine.execImgload s
  | .imgfree => Sys2Proof.Machine.execImgfree s
  | .gsubmit => Sys2Proof.Machine.execGsubmit s
  | .gabort => Sys2Proof.Machine.execGabort s
  | .ycfgAssignQueue => Sys2Proof.Machine.execYcfgAssignQueue s
  | .ycfgLoadRouter => Sys2Proof.Machine.execYcfgLoadRouter s
  | .govset => Sys2Proof.Machine.execGovset s
  | .queryPcc => Sys2Proof.Machine.execQueryPcc s
  | .querySpares => Sys2Proof.Machine.execQuerySpares s
  | .queryPartition => Sys2Proof.Machine.execQueryPartition s
  | .queryPortTenant => Sys2Proof.Machine.execQueryPortTenant s
  | .queryYelmQueue => Sys2Proof.Machine.execQueryYelmQueue s
  | .queryRepairReport => Sys2Proof.Machine.execQueryRepairReport s
  | .queryTemperature => Sys2Proof.Machine.execQueryTemperature s
  | .queryErrorCounts => Sys2Proof.Machine.execQueryErrorCounts s
  | .reset => Sys2Proof.Machine.execReset s
  | .powerUp => Sys2Proof.Machine.execPowerUp s
  | .illegalCode => Sys2Proof.Machine.execIllegalCode s
  | .reservedCommand => Sys2Proof.Machine.execReservedCommand s
  | .yelmQueueFreeEntry => Sys2Proof.Machine.execYelmQueueFreeEntry s
  | .unoonLinkDown => Sys2Proof.Machine.execUnoonLinkDown s
  | .powerLoss => Sys2Proof.Machine.execPowerLoss s

end Sys2Proof.Machine
end

