-- ==== Sys2Proof/Machine/Router.lean ====
section
/-! DEFINITION. A user router on a Yelm processor (R349, R361): the instructions of RV64IMAC, whose meaning is the RISC-V
unprivileged ISA's (log entry 12), over the addresses that R349 gives the processor. -/

namespace Sys2Proof.Machine

/-! ### Instructions -/

/-- An RV64IMAC instruction, fields read and immediates extended. A compressed one is the instruction it stands for. -/
inductive RvOp where
  | lui (rd : Nat) (v : Word)
  | auipc (rd : Nat) (v : Word)
  | jal (rd : Nat) (off : Word)
  | jalr (rd rs1 : Nat) (off : Word)
  | branch (f3 rs1 rs2 : Nat) (off : Word)
  | load (f3 rd rs1 : Nat) (off : Word)
  | store (f3 rs1 rs2 : Nat) (off : Word)
  | opImm (w alt : Bool) (f3 rd rs1 : Nat) (v : Word)
  | op (w : Bool) (f7 f3 rd rs1 rs2 : Nat)
  | fence
  | lr (n rd rs1 : Nat)
  | sc (n rd rs1 rs2 : Nat) (rl : Bool)
  | amo (n code rd rs1 rs2 : Nat) (rl : Bool)
  deriving DecidableEq, Repr

/-- Sign extension of an n-bit number. -/
def rvSext (n x : Nat) : Word := ((BitVec.ofNat n x).signExtend 64)

/-- Bits high to low of a number. -/
def nf (x hi lo : Nat) : Nat := (x >>> lo) % 2 ^ (hi + 1 - lo)

/-- AOP of R217 that an AMO's function code names. -/
def rvAmoCode : Nat → Option Nat
  | 0 => some 0 | 1 => some 8 | 4 => some 3 | 8 => some 2 | 12 => some 1 | 16 => some 4 | 20 => some 5 | 24 => some 6 | 28 => some 7
  | _ => none

/-- The instruction of a 32-bit word; none is an illegal instruction. -/
def rvDecode32 (w : Nat) : Option RvOp :=
  let rd := nf w 11 7
  let f3 := nf w 14 12
  let rs1 := nf w 19 15
  let rs2 := nf w 24 20
  let f7 := nf w 31 25
  let immI := rvSext 12 (nf w 31 20)
  match nf w 6 0 with
  | 0x37 => some (.lui rd (rvSext 32 (nf w 31 12 * 4096)))
  | 0x17 => some (.auipc rd (rvSext 32 (nf w 31 12 * 4096)))
  | 0x6F => some (.jal rd (rvSext 21 (nf w 31 31 <<< 20 ||| nf w 19 12 <<< 12 ||| nf w 20 20 <<< 11 ||| nf w 30 21 <<< 1)))
  | 0x67 => if f3 = 0 then some (.jalr rd rs1 immI) else none
  | 0x63 => if f3 = 2 ∨ f3 = 3 then none
            else some (.branch f3 rs1 rs2 (rvSext 13 (nf w 31 31 <<< 12 ||| nf w 7 7 <<< 11 ||| nf w 30 25 <<< 5 ||| nf w 11 8 <<< 1)))
  | 0x03 => if f3 = 7 then none else some (.load f3 rd rs1 immI)
  | 0x23 => if 4 ≤ f3 then none else some (.store f3 rs1 rs2 (rvSext 12 (nf w 31 25 <<< 5 ||| nf w 11 7)))
  | 0x13 =>
    if f3 = 1 then (if nf w 31 26 = 0 then some (.opImm false false 1 rd rs1 (word (nf w 25 20))) else none)
    else if f3 = 5 then
      (if nf w 31 26 = 0 ∨ nf w 31 26 = 16 then some (.opImm false (nf w 31 26 == 16) 5 rd rs1 (word (nf w 25 20))) else none)
    else some (.opImm false false f3 rd rs1 immI)
  | 0x1B =>
    if f3 = 0 then some (.opImm true false 0 rd rs1 immI)
    else if f3 = 1 then (if f7 = 0 then some (.opImm true false 1 rd rs1 (word rs2)) else none)
    else if f3 = 5 then (if f7 = 0 ∨ f7 = 32 then some (.opImm true (f7 == 32) 5 rd rs1 (word rs2)) else none)
    else none
  | 0x33 => if f7 = 0 ∨ f7 = 1 ∨ (f7 = 32 ∧ (f3 = 0 ∨ f3 = 5)) then some (.op false f7 f3 rd rs1 rs2) else none
  | 0x3B =>
    if (f7 = 0 ∧ (f3 = 0 ∨ f3 = 1 ∨ f3 = 5)) ∨ (f7 = 1 ∧ (f3 = 0 ∨ 4 ≤ f3)) ∨ (f7 = 32 ∧ (f3 = 0 ∨ f3 = 5)) then
      some (.op true f7 f3 rd rs1 rs2) else none
  | 0x0F => if f3 = 0 then some .fence else none
  | 0x2F =>
    if f3 ≠ 2 ∧ f3 ≠ 3 then none
    else
      let n := if f3 = 2 then 4 else 8
      match nf w 31 27 with
      | 2 => if rs2 = 0 then some (.lr n rd rs1) else none
      | 3 => some (.sc n rd rs1 rs2 (w.testBit 25))
      | k => (rvAmoCode k).map fun c => .amo n c rd rs1 rs2 (w.testBit 25)
  | _ => none

/-- The instruction of a 16-bit word; none is an illegal instruction. -/
def rvDecode16 (h : Nat) : Option RvOp :=
  let rd := nf h 11 7
  let rs2 := nf h 6 2
  let rdp := 8 + nf h 4 2
  let rsp := 8 + nf h 9 7
  let imm6 := rvSext 6 (nf h 12 12 <<< 5 ||| nf h 6 2)
  let sh := word (nf h 12 12 <<< 5 ||| nf h 6 2)
  let offW := word (nf h 5 5 <<< 6 ||| nf h 12 10 <<< 3 ||| nf h 6 6 <<< 2)
  let offD := word (nf h 6 5 <<< 6 ||| nf h 12 10 <<< 3)
  let offB := rvSext 9 (nf h 12 12 <<< 8 ||| nf h 6 5 <<< 6 ||| nf h 2 2 <<< 5 ||| nf h 11 10 <<< 3 ||| nf h 4 3 <<< 1)
  match nf h 1 0, nf h 15 13 with
  | 0, 0 =>
    let v := nf h 10 7 <<< 6 ||| nf h 12 11 <<< 4 ||| nf h 5 5 <<< 3 ||| nf h 6 6 <<< 2
    if v = 0 then none else some (.opImm false false 0 rdp 2 (word v))
  | 0, 2 => some (.load 2 rdp rsp offW)
  | 0, 3 => some (.load 3 rdp rsp offD)
  | 0, 6 => some (.store 2 rsp rdp offW)
  | 0, 7 => some (.store 3 rsp rdp offD)
  | 1, 0 => some (.opImm false false 0 rd rd imm6)
  | 1, 1 => if rd = 0 then none else some (.opImm true false 0 rd rd imm6)
  | 1, 2 => some (.opImm false false 0 rd 0 imm6)
  | 1, 3 =>
    if nf h 12 12 = 0 ∧ nf h 6 2 = 0 then none
    else if rd = 2 then
      some (.opImm false false 0 2 2
        (rvSext 10 (nf h 12 12 <<< 9 ||| nf h 4 3 <<< 7 ||| nf h 5 5 <<< 6 ||| nf h 2 2 <<< 5 ||| nf h 6 6 <<< 4)))
    else some (.lui rd (rvSext 18 (nf h 12 12 <<< 17 ||| nf h 6 2 <<< 12)))
  | 1, 4 =>
    match nf h 11 10 with
    | 0 => some (.opImm false false 5 rsp rsp sh)
    | 1 => some (.opImm false true 5 rsp rsp sh)
    | 2 => some (.opImm false false 7 rsp rsp imm6)
    | _ =>
      match nf h 12 12, nf h 6 5 with
      | 0, 0 => some (.op false 32 0 rsp rsp rdp)
      | 0, 1 => some (.op false 0 4 rsp rsp rdp)
      | 0, 2 => some (.op false 0 6 rsp rsp rdp)
      | 0, _ => some (.op false 0 7 rsp rsp rdp)
      | _, 0 => some (.op true 32 0 rsp rsp rdp)
      | _, 1 => some (.op true 0 0 rsp rsp rdp)
      | _, _ => none
  | 1, 5 =>
    some (.jal 0 (rvSext 12 (nf h 12 12 <<< 11 ||| nf h 8 8 <<< 10 ||| nf h 10 9 <<< 8 ||| nf h 6 6 <<< 7 ||| nf h 7 7 <<< 6 |||
      nf h 2 2 <<< 5 ||| nf h 11 11 <<< 4 ||| nf h 5 3 <<< 1)))
  | 1, 6 => some (.branch 0 rsp 0 offB)
  | 1, 7 => some (.branch 1 rsp 0 offB)
  | 2, 0 => some (.opImm false false 1 rd rd sh)
  | 2, 2 => if rd = 0 then none else some (.load 2 rd 2 (word (nf h 3 2 <<< 6 ||| nf h 12 12 <<< 5 ||| nf h 6 4 <<< 2)))
  | 2, 3 => if rd = 0 then none else some (.load 3 rd 2 (word (nf h 4 2 <<< 6 ||| nf h 12 12 <<< 5 ||| nf h 6 5 <<< 3)))
  | 2, 4 =>
    if rs2 = 0 then (if rd = 0 then none else some (.jalr (nf h 12 12) rd 0))
    else some (.op false 0 0 rd (if nf h 12 12 = 0 then 0 else rd) rs2)
  | 2, 6 => some (.store 2 2 rs2 (word (nf h 8 7 <<< 6 ||| nf h 12 9 <<< 2)))
  | 2, 7 => some (.store 3 2 rs2 (word (nf h 9 7 <<< 6 ||| nf h 12 10 <<< 3)))
  | _, _ => none

/-! ### Registers and arithmetic -/

/-- A register; x0 reads 0. -/
def Rv.get (r : Rv) (n : Nat) : Word := if n = 0 then 0 else vget r.x n 0
/-- Writes a register; x0 takes nothing. -/
def Rv.set (r : Rv) (n : Nat) (v : Word) : Rv := if n = 0 then r else { r with x := vset r.x n v }

/-- The low 32 bits, sign-extended. -/
def rvWord (v : Word) : Word := (v.setWidth 32).signExtend 64

/-- An arithmetic operation without M; `alt` is subtraction or the arithmetic right shift. -/
def rvAlu (w alt : Bool) (f3 : Nat) (a b : Word) : Word :=
  let n := b.toNat % (if w then 32 else 64)
  match f3 with
  | 0 => let x := if alt then a - b else a + b
         if w then rvWord x else x
  | 1 => if w then rvWord (a <<< n) else a <<< n
  | 2 => word (b2n (decide (a.toInt < b.toInt)))
  | 3 => word (b2n (decide (a.toNat < b.toNat)))
  | 4 => a ^^^ b
  | 5 =>
    if w then
      let x := a.setWidth 32
      (if alt then x.sshiftRight n else x >>> n).signExtend 64
    else if alt then a.sshiftRight n else a >>> n
  | 6 => a ||| b
  | _ => a &&& b

/-- A multiplication or a division; a quotient by 0 is all ones, a remainder by 0 the dividend. -/
def rvMul (w : Bool) (f3 : Nat) (a b : Word) : Word :=
  match f3 with
  | 0 => if w then rvWord (a * b) else a * b
  | 1 => BitVec.ofInt 64 (a.toInt * b.toInt / 2 ^ 64)
  | 2 => BitVec.ofInt 64 (a.toInt * (b.toNat : Int) / 2 ^ 64)
  | 3 => word (a.toNat * b.toNat / 2 ^ 64)
  | 4 => divRes w a b
  | 5 => divuRes w a b
  | 6 => remRes w a b
  | _ => remuRes w a b

/-- A branch's condition. -/
def rvTaken (f3 : Nat) (a b : Word) : Bool :=
  match f3 with
  | 0 => a == b
  | 1 => a != b
  | 4 => decide (a.toInt < b.toInt)
  | 5 => decide (b.toInt ≤ a.toInt)
  | 6 => decide (a.toNat < b.toNat)
  | _ => decide (b.toNat ≤ a.toNat)

/-- The value of loaded bytes. -/
def rvLoaded (f3 : Nat) (b : List Byte) : Word := if 4 ≤ f3 then word (ofBytes b) else rvSext (8 * b.length) (ofBytes b)

/-! ### Addresses (R349) -/

/-- What lies at an address: the scratchpad, the ROM, the queue's registers, by offset; the partition's VA space. -/
inductive RvPlace where
  | scratch (o : Nat)
  | rom (o : Nat)
  | dev (o : Nat)
  | space (va : Nat)
  deriving DecidableEq, Repr

/-- The place of `n` bytes; none is an access fault. -/
def rvPlace (a n : Nat) : Option RvPlace :=
  if a + n ≤ 0x80000 then some (.scratch a)
  else if 0x100000 ≤ a ∧ a + n ≤ 0x110000 then some (.rom (a - 0x100000))
  else if 0x200000 ≤ a ∧ a + n ≤ 0x200060 then some (.dev (a - 0x200000))
  else if 2 ^ 63 ≤ a ∧ a + n ≤ 2 ^ 63 + 2 ^ 56 then some (.space (a - 2 ^ 63))
  else none

/-- A byte of QWIN, QCTL, PCC, QPART and QSEL. -/
def State.rvDev (s : State) (die o : Nat) : Byte :=
  let q := (s.yelm die).qsel
  let y := s.yelm q
  let open_ := Config.yelmOpen o s.pcc
  if o < 64 then
    match y.queue with
    | w :: _ => if s.routerOn die q then byteAt w o else open_
    | [] => open_
  else if o < 72 then (if s.routerOn die q then byteAt (word y.queue.length) (o - 64) else open_)
  else if o < 80 then byteAt (word s.pcc) (o - 72)
  else if o < 88 then
    match y.part with
    | some p => byteAt (word p) (o - 80)
    | none => if o = 80 then open_ &&& 0x0F else 0
  else byteAt (word q) (o - 88)

/-- What a read gives: its bytes, an access fault, a request to another accelerator, or remote bytes that are not the input's. -/
inductive RvRead where
  | bytes (b : List Byte) (t : State)
  | fault (t : State)
  | asks (t : State)
  | wait

/-- A read of `n` bytes. -/
def State.rvRead (s : State) (die a n : Nat) (remote : List Byte) : RvRead :=
  let q := (s.yelm die).qsel
  match rvPlace a n with
  | some (.space va) =>
    match (s.yelm q).part with
    | some _ =>
      if s.routerOn die q then
        match s.yelmRead q va n remote with
        | .wait => .wait
        | .asks t => .asks t
        | .failed t => .fault t
        | .bytes b t => .bytes b t
      else if remote.isEmpty then .fault s else .wait
    | none => if remote.isEmpty then .fault s else .wait
  | r =>
    if !remote.isEmpty then .wait
    else match r with
    | some (.scratch o) => .bytes ((s.yelm die).scratch.readBytes o n) s
    | some (.rom o) => .bytes ((List.range n).map fun j => Config.yelmRom (o + j)) s
    | some (.dev o) => .bytes ((List.range n).map fun j => s.rvDev die (o + j)) s
    | _ => .fault s

/-- A write of bytes; none is an access fault. A 1 to QCTL pops the head, a number to QSEL selects a queue. -/
def State.rvWrite (s : State) (die a : Nat) (b : List Byte) : Option State :=
  let q := (s.yelm die).qsel
  match rvPlace a b.length with
  | some (.scratch o) => some (s.modYelm die fun y => { y with scratch := y.scratch.writeBytes o b })
  | some (.dev o) =>
    if o = 64 then
      some (if ofBytes b = 1 ∧ s.routerOn die q then (if (s.yelm q).queue.isEmpty then s else s.modYelm q fun y => y.pop s.pcc) else s)
    else if o = 88 then
      let v := if ofBytes b < 4 then ofBytes b else (Config.yelmOpen 88 s.pcc).toNat % 4
      some (s.modYelm die fun y => { y with qsel := v })
    else none
  | some (.space va) => if (s.yelm q).part.isSome && s.routerOn die q then s.yelmWrite q 0 (va, b) else none
  | _ => none

/-- Sends an atomic on another accelerator's word (R334), whose old value is awaited as a read is. -/
def State.rvSendAtomic (s : State) (q va key n op : Nat) (cas : Bool) (v e : Nat) : State :=
  let pl := atomicPayload op (if n = 4 then 0 else 1) false cas v e
  s.request (s.yelmOwner q) (yelmAgent (s.yelm q).server) 0 0 0 false va key 0 2 pl.length pl

/-- A read and a write in one step: `f` gives the new value of the old, or none where nothing is written; `op`, `cas`, `v` and `e`
name it to another accelerator. With `rl` it publishes what Yelm stored before it (R349). -/
def State.rvAtomic (s : State) (die a n : Nat) (remote : List Byte) (f : Nat → Option Nat) (op : Nat) (cas : Bool) (v e : Nat) (rl : Bool) :
    RvRead :=
  let q := (s.yelm die).qsel
  if a % n ≠ 0 then (if remote.isEmpty then .fault s else .wait)
  else match rvPlace a n with
  | some (.scratch o) =>
    if !remote.isEmpty then .wait
    else
      let b := (s.yelm die).scratch.readBytes o n
      .bytes b (match f (ofBytes b) with
        | some x => s.modYelm die fun y => { y with scratch := y.scratch.writeBytes o (toBytes n x) }
        | none => s)
  | some (.space va) =>
    match (if s.routerOn die q then (s.yelm q).part else none) with
    | none => if remote.isEmpty then .fault s else .wait
    | some p =>
      match s.ridgeSpan p .atomic va n with
      | none => if remote.isEmpty then .fault s else .wait
      | some sp =>
        let k := sp.key va
        if isRemote k then
          (if remote.isEmpty then
            (if (s.yelm q).readErr then .fault (s.modYelm q fun y => { y with readErr := false })
             else if s.yelmAsked q then .wait else .asks (s.rvSendAtomic q va k n op cas v e))
           else if remote.length ≠ n || !s.yelmAsked q then .wait
           else
             let t := { s with remote := s.remote.filter fun r => !(r.access == 0 && r.own.graph == 2 ^ 20 && r.own.node == q) }
             .bytes remote (if rl then t.takePlace (s.event (s.yelmOwner q) (yelmAgent (s.yelm q).server) 4 (.add k)) else t))
        else if !remote.isEmpty then .wait
        else
          let r := s.checkRead (s.ridgeWalks p va n ++ sp.keys)
          if r.2.isSome then .fault r.1
          else
            let b := sp.keys.map s.readHome
            let t := match f (ofBytes b) with
              | some x => r.1.writeHomes (sp.keys.zip (toBytes n x))
              | none => r.1
            .bytes b (if rl then t.takePlace (s.event (s.yelmOwner q) (yelmAgent (s.yelm q).server) 3 (.add k)) else t)
  | _ => if remote.isEmpty then .fault s else .wait

/-! ### One instruction -/

/-- What an instruction comes to: the next state, an exception, or a step that does not happen yet. -/
inductive RvOut where
  | go (t : State)
  | trap (t : State)
  | wait

/-- Replaces the processor's registers. -/
def State.setRv (s : State) (die : Nat) (r : Rv) : State := s.modYelm die fun y => { y with rv := r }

/-- The queue whose router runs with the scratchpad of a die's Yelm. -/
def State.routerQueue (s : State) (die : Nat) : Nat := ((List.range 4).find? fun q => s.routerOn die q).getD die

/-- Remote stores of the router's processor that have not been performed. -/
def State.rvStoring (s : State) (die : Nat) : Bool := s.yelmStoring (s.yelm (s.routerQueue die)).server

/-- Fetches the instruction at the pc, with its length: from the scratchpad or the ROM. -/
def State.rvFetch (s : State) (die : Nat) : Option (RvOp × Nat) :=
  let pc := (s.yelm die).rv.pc.toNat
  let get (n : Nat) : Option Nat :=
    match rvPlace pc n with
    | some (.scratch o) => some (ofBytes ((s.yelm die).scratch.readBytes o n))
    | some (.rom o) => some (ofBytes ((List.range n).map fun j => Config.yelmRom (o + j)))
    | _ => none
  match get 2 with
  | none => none
  | some h =>
    if h % 4 ≠ 3 then (rvDecode16 h).map fun i => (i, 2)
    else if h % 32 = 31 then none
    else match get 4 with
    | some w => (rvDecode32 w).map fun i => (i, 4)
    | none => none

/-- Executes an instruction of length `len`. -/
def State.rvExec (s : State) (die : Nat) (remote : List Byte) (i : RvOp) (len : Nat) : RvOut :=
  let r := (s.yelm die).rv
  let next := r.pc + BitVec.ofNat 64 len
  let put (t : State) (rd : Nat) (v : Word) : RvOut := .go (t.setRv die { (r.set rd v) with pc := next })
  let plain (o : RvOut) : RvOut := if remote.isEmpty then o else .wait
  match i with
  | .lui rd v => plain (put s rd v)
  | .auipc rd v => plain (put s rd (r.pc + v))
  | .jal rd off => plain (.go (s.setRv die { (r.set rd next) with pc := r.pc + off }))
  | .jalr rd rs1 off => plain (.go (s.setRv die { (r.set rd next) with pc := (r.get rs1 + off) &&& ~~~1 }))
  | .branch f3 rs1 rs2 off =>
    plain (.go (s.setRv die { r with pc := if rvTaken f3 (r.get rs1) (r.get rs2) then r.pc + off else next }))
  | .opImm w alt f3 rd rs1 v => plain (put s rd (rvAlu w alt f3 (r.get rs1) v))
  | .op w f7 f3 rd rs1 rs2 =>
    plain (put s rd (if f7 = 1 then rvMul w f3 (r.get rs1) (r.get rs2) else rvAlu w (f7 == 32) f3 (r.get rs1) (r.get rs2)))
  | .fence => plain (if s.rvStoring die then .wait else .go (s.setRv die { r with pc := next }))
  | .load f3 rd rs1 off =>
    match s.rvRead die (r.get rs1 + off).toNat (2 ^ (f3 % 4)) remote with
    | .bytes b t => put t rd (rvLoaded f3 b)
    | .fault t => .trap t
    | .asks t => .go t
    | .wait => .wait
  | .store f3 rs1 rs2 off =>
    plain (match s.rvWrite die (r.get rs1 + off).toNat (toBytes (2 ^ f3) (r.get rs2).toNat) with
      | some t => .go (t.setRv die { r with pc := next })
      | none => .trap s)
  | .lr n rd rs1 =>
    let a := (r.get rs1).toNat
    if a % n ≠ 0 then plain (.trap s)
    else match s.rvRead die a n remote with
    | .bytes b t => .go (t.setRv die { (r.set rd (rvLoaded 0 b)) with pc := next, resv := some (a, b) })
    | .fault t => .trap t
    | .asks t => .go t
    | .wait => .wait
  | .sc n rd rs1 rs2 rl =>
    let a := (r.get rs1).toNat
    let v := (r.get rs2).toNat % 2 ^ (8 * n)
    if a % n ≠ 0 then plain (.trap s)
    else
      match (match r.resv with | some x => if x.1 = a ∧ x.2.length = n then some (ofBytes x.2) else none | none => none) with
      | none => plain (.go (s.setRv die { (r.set rd 1) with pc := next, resv := none }))
      | some e =>
        if rl && s.rvStoring die then .wait
        else match s.rvAtomic die a n remote (fun old => if old = e then some v else none) 0 true v e rl with
        | .bytes b t => .go (t.setRv die { (r.set rd (word (b2n (ofBytes b != e)))) with pc := next, resv := none })
        | .fault t => .trap t
        | .asks t => .go t
        | .wait => .wait
  | .amo n code rd rs1 rs2 rl =>
    let v := (r.get rs2).toNat % 2 ^ (8 * n)
    if rl && s.rvStoring die then .wait
    else match s.rvAtomic die (r.get rs1).toNat n remote (fun old => some (amoNew (8 * n) code old v)) code false v 0 rl with
    | .bytes b t => put t rd (rvLoaded 0 b)
    | .fault t => .trap t
    | .asks t => .go t
    | .wait => .wait

/-- A user router runs on the processor of a die. -/
def State.hasRouter (s : State) (die : Nat) : Bool := (List.range 4).any fun q => s.routerOn die q

/-- The next instruction of the user router on a die's Yelm (R349, R361). An exception halts the router. -/
def runRouter (die : Nat) (remote : List Byte) (s : State) : Host.Outcome State Fault Refusal :=
  if !s.hasRouter die then .refused (.notEnabled "ROUTER")
  else
    let e := s.yelmErr (s.routerQueue die)
    if e.2 then execUserRouterException die e.1
    else match s.rvFetch die with
    | none => execUserRouterException die e.1
    | some (i, len) =>
      match e.1.rvExec die remote i len with
      | .go t => .next t
      | .trap t => execUserRouterException die t
      | .wait => .refused (.notEnabled "ROUTER")

end Sys2Proof.Machine
end

