-- ==== Sys2Proof/Machine/Schedule.lean ====
section
/-! DEFINITION. What happens next in the package: an input that has arrived, an event whose time has come, the bundle of a core that
is ready (R8, R26, R27), or the next PCC cycle (R7). -/

namespace Sys2Proof.Machine

/-- The input that has arrived, if any. -/
def State.arrived (s : State) : Option Input :=
  match s.inputs with
  | (t, x) :: _ => if t ≤ s.pcc then some x else none
  | [] => none

/-- An instruction that the outside may announce: an event, not an operation of a bundle and not a command. -/
def isEvent (i : Instr) : Bool :=
  !i.isSlotOp && match i with
  | .nop _ | .branchTree _ _ | .reservedOpcode _ _ | .illegalCode | .pcreate | .pdestroy | .ptroot | .ptinv | .fabcfgKeyEntry
  | .fabcfgShareEntry | .fabcfgPortMode | .fabcfgOutboundKey | .fabcfgDomainSize | .fabcfgRoute | .fabcfgOwnAccelerator
  | .fabcfgReductionTree | .fabcfgUalinkSource | .fabcfgLiftFence | .fabcfgLaneThreshold | .memw | .memr | .imgload
  | .imgfree | .gsubmit | .gabort | .ycfgAssignQueue | .ycfgLoadRouter | .govset | .queryPcc | .querySpares
  | .queryPartition | .queryPortTenant | .queryYelmQueue | .queryRepairReport | .queryTemperature | .queryErrorCounts
  | .reset | .reservedCommand => false
  | _ => true

/-- The input list without its head. -/
def State.popInput (s : State) : State := { s with inputs := s.inputs.tail }

/-- What an input does: an event acts, a command block that a Unoon port received executes, a core's L1 gives up a line, an L2 slice writes one back, a user router executes its next
instruction. -/
def State.runInput (s : State) : Input → Host.Outcome State Fault Refusal
  | .event i =>
    if !s.powered && i != .powerUp then .fault .noPower
    else if isEvent i then exec i s.popInput
    else .refused (.notEnabled "INPUT")
  | .command c => if s.powered then exec (decodeCommand c) { s.popInput with cmd := c } else .fault .noPower
  | .evict core line => if s.powered then .next (s.popInput.evictLine core line) else .fault .noPower
  | .writeBack line => if s.powered then .next (s.popInput.l2Flush fun x => x.line == line) else .fault .noPower
  | .temp die deg => if s.powered then senseTemp die deg s.popInput else .fault .noPower
  | .router die remote => if s.powered then runRouter die remote s.popInput else .fault .noPower

/-- The level of the `bar` in the bundle at the core's position, if it holds one, and whether it holds an `xch`. -/
def Core.meets (c : Core) : Option Nat × Bool :=
  match c.fetch with
  | .bundle b _ => (b.ops.findSome? barAt, b.ops.any isXch)
  | .illegal _ => (none, false)
where
  barAt (i : Instr) : Option Nat := match i with | .bar _ o => some (fld o.imm 2 0) | _ => none
  isXch (i : Instr) : Bool := match i with | .xch _ _ => true | _ => false

/-- Cores that are ready in this PCC cycle, lowest first. -/
def State.readyCores (s : State) : List Nat := (List.range 256).filter fun i => (s.core i).canIssue s.pcc

/-- What the bundle of core i brings when it comes to issue in this PCC cycle, before any bundle of the cycle issues: it reaches its barrier
(R20), it supplies its half of an exchange (R280). -/
def State.brings (s : State) (i : Nat) : Option State :=
  let m := (s.core i).meets
  if m.1.isNone && !m.2 then none
  else
    let b := (s.core i).fetched
    let t := (s.landDue i).issueOn i b.1 b.2
    let reaches (l : Nat) : Bool :=
      let g := (s.core i).barCount l + 1
      !(s.core i).reached l g && (t.core i).reached l g
    match m.1.filter reaches, (s.core i).inst with
    | some l, _ => some (s.modCore i fun c => { c with hold := some (.bar l, s.pcc) })
    | none, some x =>
      let k := (s.core i).e.xnum
      if !m.2 || (s.ownHalf i k).isSome then none
      else (t.link.find? fun h => h.isOf x x.idx k).map fun h => { s with link := s.link ++ [h] }
    | none, none => none

/-- Among cores that come to issue in one PCC cycle, what they bring one another is there before the first of them issues, so that each
issues in its turn by its number (R178, R281 item 4, R352; log entry 1). -/
def State.arrival (s : State) (ready : List Nat) : Option State :=
  match ready with
  | _ :: _ :: _ => ready.findSome? s.brings
  | _ => none

/-- The bundle at the position of core i comes to issue. A bundle of one operation runs that operation's meaning; a fuller
one issues all its operations together. -/
def State.runCore (s : State) (i : Nat) : Host.Outcome State Fault Refusal :=
  let s := { s with cur := i }
  match (s.core i).fetch with
  | .illegal _ => exec .illegalCode s
  | .bundle b _ =>
    match soleOp b with
    | some op => exec op s
    | none => issueBundle (s.core i).fetched.1 (s.core i).fetched.2 s

/-! ### Events whose time the spec fixes -/

/-- An instruction where its condition holds. -/
def dueIf (ok : Bool) (i : Instr) : Option Instr := if ok then some i else none

/-- The first of some instructions that is due. -/
def firstDue : List (Option Instr) → Option Instr
  | [] => none
  | some i :: _ => some i
  | none :: r => firstDue r

/-- Events of the package's clocks and counts (R172, R285, R301, R304 to R306, R352, R364). -/
def State.dueClock (s : State) : Option Instr :=
  firstDue [
    dueIf s.countsDue .fifoCountUpdate,
    dueIf (s.dies.toList.any fun d => d.yelm.frees.any fun t => decide (t ≤ s.pcc)) .yelmQueueFreeEntry,
    dueIf (s.cores.toList.any fun c => c.grant.over s.pcc) .grantExpiry,
    dueIf (clockDue s.pcc 64 s.winAt) .governorWindow,
    dueIf (clockDue s.pcc 1024 s.heavyAt) .vectorHeavyCharge,
    dueIf (clockDue s.pcc (2 ^ 20) s.agedAt) .priorityAging,
    (List.range 4).findSome? fun d => dueIf (s.grantable d).isSome (.grantIssue d),
    dueIf s.takeoverDue .unoonPortTakeover,
    dueIf (!s.staleSends.isEmpty) .putNorecvTimeout]

/-- A change of a bank's mode has run its 1,024 PCC cycles (R179). -/
def Bank.readyDue (b : Bank) (pcc : Nat) : Bool := !b.ready && decide (b.since + 1024 ≤ pcc)

/-- A bank that becomes READY. -/
def State.dueBank (s : State) : Option Instr :=
  s.clusters.toList.zipIdx.findSome? fun c => c.1.banks.toList.zipIdx.findSome? fun b =>
    dueIf (b.1.readyDue s.pcc) (.bankModeReady c.2 b.2)

/-- Events of a core with an instance that are due before its bundle issues. -/
def State.dueRun (s : State) (i : Nat) (c : Core) : Option Instr :=
  firstDue [
    dueIf (c.stallOver s.pcc) (.scratchpadStallEnd i),
    dueIf (c.canIssue s.pcc && c.hasDue false) (.resultLanding i),
    dueIf (c.canIssue s.pcc && c.hasDue true) (.v1Commit i),
    dueIf (c.asyncDue s.pcc) (.asyncTrap i),
    dueIf (c.forcedDue s.pcc && !c.asyncDue s.pcc) (.forcedSave i),
    dueIf (s.watchDue i) (.watchdog i),
    dueIf (s.halfHere i && decide (s.pcc < c.wake)) (.xchHalfArrival i),
    dueIf (s.pairLate i) (.pairTimeout i),
    dueIf (s.partnerGone i && decide (s.pcc < c.wake)) (.partnerFault i)]

/-- Events of a core that are due. -/
def State.dueCore (s : State) (i : Nat) (c : Core) : Option Instr :=
  firstDue [
    if c.inst.isSome then s.dueRun i c else none,
    dueIf c.spareReady (.coreSpareTakeover i),
    if (vget c.ch 0 default).queue.isEmpty then none else dueIf (s.startOk i 0) (.copyCommandStart i 0),
    if (vget c.ch 1 default).queue.isEmpty then none else dueIf (s.startOk i 1) (.copyCommandStart i 1)]

/-- Permits of ring exports (R249, R255). -/
def State.dueCopy (s : State) : Option Instr :=
  s.copies.findSome? fun r => firstDue [
    dueIf (s.permitOk r) (.cexpPermitGrant r.e.own.core r.ch r.id),
    dueIf (s.permitLate r) (.cexpPermitDeadline r.e.own.core r.ch r.id)]

/-- Nodes that take effect by themselves: launches once ready (R17), wait nodes at their poll (R292), while nodes of an aborted
graph. -/
def State.dueNode (s : State) : Option Instr :=
  s.graphs.findSome? fun g => (List.range g.2.nodes.length).findSome? fun n => firstDue [
    dueIf (match s.nodeReady g.1 n 0 with | some nd => nd.lh.isSome && (assoc s.images (ndImg nd.word)).isSome | none => false) (.launchNode g.1 n),
    dueIf (s.pollDue g.1 n) (.waitNodePoll g.1 n []),
    dueIf ((s.whileIdle g.1 n).isSome && s.aborted g.1) (.whileNode g.1 n [])]

/-- Steps of Yelm that close, or whose outputs have reached their bound (R354, R360). -/
def State.dueStep (s : State) : Option Instr :=
  (List.range 4).findSome? fun d => (s.yelm d).steps.findSome? fun t => firstDue [
    dueIf (s.romServes d && ((t.closed.isNone && t.full) || (t.waitRes && (s.fetchBitmap d t []).isSome))) (.stepClose d t.num []),
    dueIf (t.overdue s.pcc && s.romServes d) (.stepDeadline d t.num []),
    dueIf ((s.publishDue d t || (t.wrote && t.fault)) && s.endsSteps d t && (s.publishable d t.num) == some t &&
      !(t.wrote && (s.stepPending t || s.yelmStoring (s.yelm d).server))) (.stepOutputPublish d t.num)]

/-- Ports of the fabric: refusals by the package's own routers (R335, R338), accepted flits that the round robin serves (R340). -/
def State.duePort (s : State) : Option Instr :=
  match s.bounced with
  | (agent, id, code) :: _ => some (.errorResponseArrival agent id code)
  | [] => (List.range 48).findSome? fun p => dueIf ((s.port p).up && !(s.port p).inq.isEmpty) (.deficitRound p 1)

/-- The event whose time has come, if any. -/
def State.dueEvent (s : State) : Option Instr :=
  firstDue [s.dueClock, s.dueBank, s.cores.toList.zipIdx.findSome? (fun c => s.dueCore c.2 c.1), s.dueCopy, s.dueNode, s.dueStep, s.duePort]

/-- The state after a command that waited has come to its end, if one has (R366, R372). -/
def State.hostDue (s : State) : Option State :=
  match s.unoon.await with
  | some (c, w) => if s.awaitMet w then some (s.finishAwait c w) else none
  | none => none

/-- The command received behind one that has ended, with the state in which it executes. -/
def State.nextCommand (s : State) : Option (Instr × State) :=
  match s.unoon.await, s.unoon.pendq with
  | none, c :: r => some (decodeCommand c, { s with cmd := c, unoon := { s.unoon with pendq := r, again := true } })
  | _, _ => none

/-- The next PCC cycle begins (R7), with the bank modes that were requested in the one that ends (R178). -/
def State.tick (s : State) : State :=
  let s := if s.kmodes.isEmpty then s else s.commitBanks
  { s with pcc := s.pcc + 1 }

/-- What happens next. -/
def State.advance (s : State) : Host.Outcome State Fault Refusal :=
  match s.arrived with
  | some x => s.runInput x
  | none =>
    if !s.powered then .fault .noPower
    else match s.hostDue with
    | some t => .next t
    | none => match s.nextCommand with
    | some (i, t) => exec i t
    | none => match s.dueEvent with
    | some i => exec i s
    | none => match s.readyCores with
    | [] => .next s.tick
    | i :: r => match s.arrival (i :: r) with
    | some t => .next t
    | none => s.runCore i

/-- The instance that `withFetchWord` places: it belongs to no graph. -/
def Inst.lone : Inst :=
  { uid := 1, part := 0, graph := 0, node := 0, idx := 0, wid := 0, lh := default, windows := [], entry := 0 }

/-- Core 0 about to issue the first halfword of a code stream, with no instance's history. -/
def State.withStream (s : State) (stream : List (BitVec 16)) : State :=
  s.setCore 0 { s.core 0 with phase := .run, inst := some Inst.lone, dict := [], stream := stream, pos := 0, wake := s.pcc }

end Sys2Proof.Machine
end

