-- ==== Sys2Proof/Machine/Step.lean ====
section
/-! DEFINITION. One step of the package, and a state whose next step fetches a given instruction. -/

namespace Sys2Proof.Machine

/-- One step: an input that has arrived, else an event that is due, else the bundle of a ready core, else a PCC cycle. -/
def step (s : State) : Host.Outcome State Fault Refusal := s.advance

/-- The state with the code-stream halfwords of `w` at the position that core 0 fetches next: the escape halfword and the
literal bundle above it (R102). It stands for a launch of an image that holds just these halfwords (log entry 6). -/
def State.withFetchWord (s : State) (_nbits w : Nat) : State :=
  { s with inputs := [], cur := 0 }.withStream ((List.range 25).map fun k => BitVec.ofNat 16 (w >>> (16 * k)))

end Sys2Proof.Machine
end

