-- ==== Sys2Proof/Safety.lean ====
section
/-! DEFINITION. The words that statements about the machine use: a step that goes on, a bundle that nothing but its own slots can
stop, what its slots read, the landings it starts, the state it leaves. -/

namespace Sys2Proof

/-- The step from `s` goes on to a next state. -/
def Goes (s : Machine.State) : Prop := ∃ t, Machine.step s = .next t

/-- `t` is the state one step after `s`. -/
def StepsTo (s t : Machine.State) : Prop := Machine.step s = .next t

end Sys2Proof

namespace Sys2Proof.Machine

/-! ### A bundle of one operation at issue -/

/-- The state that the bundle of the current core is judged against: what is due has landed, and replay registers that go with
this issue are in flight again (R22, R31, R317). -/
def State.atIssue (s : State) : State := (s.landDue s.cur).modCore s.cur Core.relandNow

/-- The current core as its bundle finds it. -/
def State.me (s : State) : Core := s.atIssue.core s.cur

/-- Fall-through position of a bundle at the current core's position (R89). -/
def State.fall (s : State) : Nat := fallOf (s.core s.cur).stream (s.core s.cur).pos

/-- The current core comes to issue, and nothing but the bundle's own slots can stop the bundle: the package has power (R373),
the core runs an instance and is neither stalled nor in a branch bubble (R24, R26), no asynchronous cause is pending
(R312), nothing that re-lands collides (R25, R317), no pre-emption is forced (R33), no array of the core and no bank of its
cluster holds an error (R189), and nothing is in flight where the launch interlocks (R34). -/
def State.clear (s : State) : Bool :=
  s.powered && (s.core s.cur).canIssue s.pcc && s.me.bubbles == 0 && s.me.nextAsync.isNone &&
  ((s.landDue s.cur).core s.cur).relandClash.isNone &&
  (match s.me.preempt with | none => true | some r => decide (s.me.cycle < r + 65536)) &&
  s.errs.all (fun e => match e.place with
    | .unit c => fld c 31 16 != s.cur && !(fld c 7 0 == 0x10 && clusterOf (fld c 31 16) == clusterOf s.cur)
    | .home _ _ => true) &&
  (match s.me.inst with | some x => !x.lh.ilk || s.me.flight.isEmpty | none => true)

/-- The slot has effect in a bundle without a tree: its guard reads true and its path tag is 0 or the fall-through's (R90, R91). -/
def State.on (s : State) (h : Hdr) : Bool := s.me.r.readP h.guard.toNat && (h.tag == 0 || h.tag == 5)

/-! ### What the slots read -/

/-- A scalar by name. -/
def State.sv (s : State) (n : BitVec 6) : Word := s.me.r.readS n.toNat
/-- A vector by name. -/
def State.vv (s : State) (n : BitVec 6) : VReg := s.me.r.readV n.toNat
/-- A predicate by name. -/
def State.pv (s : State) (n : BitVec 4) : Bool := s.me.r.readP n.toNat
/-- A mask by name. -/
def State.mv (s : State) (n : BitVec 3) : Word := s.me.r.readM n.toNat
/-- A tile's type word. -/
def State.tyv (s : State) (n : Nat) : TypeWord := s.me.r.readTy n
/-- A tile's data. -/
def State.tv (s : State) (n : Nat) : TileData := s.me.r.readT n

/-- The scalar is not waiting for a variable-latency result (R29). -/
def State.sOk (s : State) (n : BitVec 6) : Bool := !bit s.me.pendS ((rotS s.me.r.rot).phys n.toNat)
/-- The vector is not waiting for a variable-latency result. -/
def State.vOk (s : State) (n : BitVec 6) : Bool := !bit s.me.pendV ((rotV s.me.r.rot).phys n.toNat)
/-- The tile is not waiting for a tile load. -/
def State.tOk (s : State) (n : Nat) : Bool := !bit s.me.pendT n

/-! ### The landings it starts -/

/-- A landing of latency `lat` (R22). -/
def State.lands (s : State) (lat : Nat) (l : Land) (flags : Flags := 0) (clip : Bool := false) : Flight :=
  { due := s.me.cycle + max lat 1, land := l, flags := flags, clip := clip, xch := false, q := none }

/-- Writes to the scalar name are discarded: s0 and dead registers (R39, R42). -/
def State.sDrop (s : State) (n : BitVec 6) : Bool :=
  (rotS s.me.r.rot).phys n.toNat == 0 || (rotS s.me.r.rot).dead ((rotS s.me.r.rot).phys n.toNat)
/-- Writes to the vector name are discarded: dead registers (R42). -/
def State.vDrop (s : State) (n : BitVec 6) : Bool := (rotV s.me.r.rot).dead ((rotV s.me.r.rot).phys n.toNat)

/-- What a discarded write still lands: its flags, if it has any (R83). -/
def State.dropped (s : State) (lat : Nat) (flags : Flags) : List Flight := if flags = 0 then [] else [s.lands lat .nothing flags]

/-- Landings of a scalar result. -/
def State.putS (s : State) (n : BitVec 6) (lat : Nat) (v : Word) (flags : Flags := 0) : List Flight :=
  if s.sDrop n then s.dropped lat flags else [s.lands lat (.s ((rotS s.me.r.rot).phys n.toNat) v) flags]
/-- Landings of a vector result. -/
def State.putV (s : State) (n : BitVec 6) (lat : Nat) (v mask : VReg) (flags : Flags := 0) : List Flight :=
  if s.vDrop n then s.dropped lat flags else [s.lands lat (.v ((rotV s.me.r.rot).phys n.toNat) v mask) flags]
/-- Landings of a predicate: p0 takes nothing (R39). -/
def State.putP (s : State) (n : BitVec 4) (lat : Nat) (v : Bool) : List Flight :=
  if physP s.me.r.rot n.toNat = 0 then [] else [s.lands lat (.p (physP s.me.r.rot n.toNat) v)]
/-- Landings of a mask: m0 takes nothing (R39). -/
def State.putM (s : State) (n : BitVec 3) (lat : Nat) (v : Word) (flags : Flags := 0) : List Flight :=
  if n = 0 then s.dropped lat flags else [s.lands lat (.m n.toNat v) flags]

/-- The register takes no result now: a variable-latency result is on its way to it, or an outstanding tile store reads it (R25). -/
def State.busyReg (s : State) (r : Nat × Nat) : Bool :=
  (match r.1 with | 0 => bit s.me.pendS r.2 | 1 => bit s.me.pendV r.2 | 2 => bit s.me.pendT r.2 | _ => false) ||
  (r.1 == 2 && s.me.mem.tsts.any fun t => t.tile == r.2)

/-- The landings collide with nothing (R25) and leave no more than 16 results in flight (R315). -/
def State.fits (s : State) (l : List Flight) : Bool :=
  decide (s.me.inFlight + l.length ≤ 16) &&
  l.all (fun f => match f.land.reg with
    | none => true
    | some r => !s.busyReg r && !(s.me.flight.any fun z => z.land.reg == some r && z.due == f.due)) &&
  decide ((l.filterMap fun f => f.land.reg.map fun r => (r, f.due)).Nodup)

/-! ### The state it leaves -/

/-- The bundle has retired with the effects that `f` adds to none at all (R31). -/
def State.issued (s : State) (f : Bld → Bld) : State := s.atIssue.retire s.cur (f (Bld.start s.me)) none s.fall

/-- The bundle has retired, and all that its slots did is to start these landings. -/
def State.landing (s : State) (l : List Flight) : State := s.issued fun b => { b with lands := l }

/-- The bundle's core has taken the trap of a cause of its slot (R311). -/
def State.trapped (s : State) (k : Cause) : State := s.atIssue.takeTrap s.cur k


/-- COMPLETION OF A BUNDLE OF ONE OPERATION. Where the encoding is legal, the bundle comes to issue with nothing in its way, the
slot has effect, `ok` holds of its operands, and its landings fit, the operation `i` answers the next state in which the bundle
has retired, has started the landings `l` and has the further effects `f`. -/
def State.Does (s : State) (i : Instr) (h : Hdr) (ok : Bool) (l : List Flight) (f : Bld → Bld) : Prop :=
  i.wf = true → s.clear = true → s.on h = true → ok = true → s.fits l = true →
    exec i s = .next (s.issued fun b => { f b with lands := l })

/-- Completion of an operation that only starts landings. -/
def State.Gives (s : State) (i : Instr) (h : Hdr) (ok : Bool) (l : List Flight) : Prop :=
  i.wf = true → s.clear = true → s.on h = true → ok = true → s.fits l = true → exec i s = .next (s.landing l)

/-- Completion of an operation that starts no landing, by what the next state is like. -/
def State.Ends (s : State) (i : Instr) (h : Hdr) (ok : Bool) (p : State → Prop) : Prop :=
  i.wf = true → s.clear = true → s.on h = true → ok = true → s.fits [] = true → ∃ t, exec i s = .next t ∧ p t

/-- In `u`, the bundle of core i is held for this PCC cycle: HOLDS counts it, the time of a hold that the watchdog measures runs on, and
the core tries again in the next cycle (R27, R321). -/
def State.holding (u : State) (i : Nat) (k : HoldKind) : State :=
  let timed := fun k : HoldKind => k != .fence && k != .tlb
  u.modCore i fun c =>
    { c with
      holds := c.holds + 1, stall := none, wake := u.pcc + 1
      hold := some (k, if timed k then match c.hold with | some z => if timed z.1 then z.2 else u.pcc | none => u.pcc else u.pcc + 1) }

/-- The bundle is held as it came to issue. -/
def State.heldAt (s : State) (k : HoldKind) : State := s.atIssue.holding s.cur k

/-- A bundle that nothing else stops is held where no pre-emption request waits, and is left for its save where one does (R27, R33). -/
def State.Holds (s : State) (i : Instr) (h : Hdr) (ok : Bool) (k : HoldKind) : Prop :=
  i.wf = true → s.clear = true → s.on h = true → ok = true → s.fits [] = true →
    (s.me.preempt = none → exec i s = .next (s.heldAt k)) ∧
    ∀ r, s.me.preempt = some r → ∃ t, exec i s = .next t ∧ (t.core s.cur).phase = .saving ∧ (t.core s.cur).inst = s.me.inst ∧
      (t.core s.cur).r = s.me.r ∧ (t.core s.cur).pos = s.me.pos

/-- The class counters and the outstanding releases as a bundle's raises are held against their limits: a lowering in the same
PCC cycle prevents no overflow (R28, R35, R227). -/
def State.counts (s : State) : Drops :=
  let d := s.me.lost s.pcc
  { at_ := s.pcc, l := s.me.cnt.l + d.l, s := s.me.cnt.s + d.s, c := s.me.cnt.c + d.c, t := s.me.cnt.t + d.t
    r := s.me.mem.rels.length + d.r }

/-- A change of the issuing core at retire, and nothing else. -/
def State.onCore (s : State) (f : Core → Core) (b : Bld) : Bld := { b with post := fun t => t.modCore s.cur f }

/-- The operation takes the precise trap of the cause `k` instead (R31, R309). -/
def State.Traps (s : State) (i : Instr) (h : Hdr) (ok : Bool) (k : Cause) : Prop :=
  i.wf = true → s.clear = true → s.on h = true → ok = true → exec i s = .next (s.trapped k)

/-- A vector result holds on each element that `f` gives a value that value, takes no bit of any other element, and carries
exactly the flags that some element raises (R82, R148, R149). -/
def VRes.Holds (r : VRes) (w : Nat) (f : Nat → Option (Nat × Flags)) : Prop :=
  (∀ j < nElem w, match f j with
    | some x => elem w r.val j = x.1 % 2 ^ w ∧ elem w r.mask j = 2 ^ w - 1
    | none => elem w r.mask j = 0) ∧
  ∀ k < 6, bit r.flags k = true ↔ ∃ j < nElem w, ∃ x, f j = some x ∧ bit x.2 k = true

/-- Completion with a vector result in the elements that `f` gives a value. -/
def State.GivesV (s : State) (i : Instr) (h : Hdr) (ok : Bool) (vd : BitVec 6) (lat w : Nat) (f : Nat → Option (Nat × Flags)) : Prop :=
  ∃ r : VRes, r.Holds w f ∧ s.Gives i h ok (s.putV vd lat r.val r.mask r.flags)

/-! ### Scratchpad, memory and copy operations at issue -/

/-- The element accesses pass the three checks of R164. -/
def State.spadOk (s : State) (size : Nat) (items : List (Nat × Nat)) : Bool :=
  items.all fun e => decide (e.2 < 2 ^ 22) && e.2 % size == 0 && bankMine s.atIssue s.cur e.2

/-- A scratchpad byte of the core's cluster, as the bundle finds it. -/
def State.spadByte (s : State) (a : Nat) : Byte := (s.atIssue.cluster (clusterOf s.cur)).sram.get a

/-- Little-endian number of scratchpad bytes. -/
def State.spadNum (s : State) (a n : Nat) : Nat := ofBytes ((List.range n).map fun k => s.spadByte (a + k))

/-- A variable-latency result may be started for the register (R25). -/
def State.pendable (s : State) (r : Nat × Nat) : Bool := !s.busyReg r && !(s.me.flight.any fun z => z.land.reg == some r)

/-- The scalar register that a variable-latency result goes to, none where it is discarded. -/
def State.sDest (s : State) (n : BitVec 6) : Option Nat := if s.sDrop n then none else some ((rotS s.me.r.rot).phys n.toNat)
/-- The vector register that a variable-latency result goes to, none where it is discarded. -/
def State.vDest (s : State) (n : BitVec 6) : Option Nat := if s.vDrop n then none else some ((rotV s.me.r.rot).phys n.toNat)

/-- A change of the package at retire, and nothing else. -/
def State.onPackage (_ : State) (f : State → State) (b : Bld) : Bld := { b with post := f }

/-- The windows of the running instance. -/
def State.windowOf (s : State) (n : Nat) : WindowWord := match s.me.inst with | some i => i.windows[n]?.getD 0 | none => 0

/-- Checks 1 and 2 of R219 pass on the window. -/
def State.windowOk (s : State) (n : Nat) (org : List Nat) : Bool := winValid (s.windowOf n) && (windowCheck (s.windowOf n) org).isNone

/-- Every page of the access is translated, without a miss or a fault (R192, R193, R212). -/
def State.reaches (s : State) (a : Access) (ranges : List (Nat × Nat)) (sp : Span) : Prop :=
  spanOf (s.atIssue.page s.cur a) ranges = (sp, [], none)

/-- A page of the access has no translation to hand: `pages` are those whose walks the bundle waits for (R192). -/
def State.misses (s : State) (a : Access) (ranges : List (Nat × Nat)) (pages : List Nat) : Prop :=
  pages ≠ [] ∧ ∃ sp f, spanOf (s.atIssue.page s.cur a) ranges = (sp, pages, f)

/-- Every page of the access is looked up, and the lowest fault is `f`, at VA `va` (R193, R212). -/
def State.pageFault (s : State) (a : Access) (ranges : List (Nat × Nat)) (va : Nat) (f : WalkFault) : Prop :=
  ∃ sp, spanOf (s.atIssue.page s.cur a) ranges = (sp, [], some (va, f))

/-- The precise page fault of an access (R193, R309). -/
def pageCause (slot : Slot) (a : Access) (va : Nat) (f : WalkFault) : Cause := slotCause 0x11 slot (word va) (pageSynd a f) f.entry

/-- A bundle that nothing else stops is held while the walks of its pages run (R27, R192). -/
def State.HoldsWalks (s : State) (i : Instr) (h : Hdr) (ok : Bool) (pages : List Nat) : Prop :=
  i.wf = true → s.clear = true → s.on h = true → ok = true → s.me.preempt = none →
    exec i s = .next ((s.heldAt .tlb).modCore s.cur fun c => { c with mem := { c.mem with want := pages.eraseDups, gate := [] } })

/-- The object that a store without a window is bound to: that of the region of the launch that holds the address (R196). -/
def Core.regionOf (c : Core) (va : Nat) : Option Nat :=
  match c.inst with
  | some x => (x.lh.regions.find? fun r => decide (r.base ≤ va) && decide (va < r.base + r.size)).map (·.obj)
  | none => none

/-- An operation of the current core in the synchronisation order (R200). -/
def State.place (s t : State) (scope : Nat) (k : SyncKind) : SyncEvent :=
  let part := (s.me.owner s.cur).part
  { acc := t.accNum, agent := s.cur, uid := s.me.uid, tenant := t.tenant part, part := part, scope := scope, kind := k }

/-- Where a copy command of a slot goes (R235): on chip, or into a ring slot whose translation holds. -/
def State.ringAt (s : State) (slot : Slot) (ring : Option Span) : Prop :=
  let h := vget s.me.ch (chanOf slot) default
  if 16 ≤ h.queue.length ∨ h.spilled ≠ [] then ∃ sp, ring = some sp ∧ s.reaches .write [(s.me.ringVa (chanOf slot), 64)] sp
  else ring = none

/-- What a copy command pushes (R232 to R236). -/
def State.pushes (s : State) (slot : Slot) (kind : CopyKind) (o : CR) (ring : Option Span) (win : Nat) (desc : WindowWord)
    (ext org : List Nat) (box : TypeWord) (b : Bld) : Bld :=
  let d := s.sv o.rd
  { b with
    rc := 1
    post := fun t => t.pushCopy s.cur (chanOf slot)
      { own := s.me.owner s.cur, kind := kind, ra := s.sv o.ra, rb := s.sv o.rb, rc := s.sv o.rc, mod := o.mod, desc := desc, win := win
        ext := ext, org := org, box := box, at_ := absTime t.pcc (d.toNat / 2 ^ 24), add := word (d.toNat / 2 ^ 16 % 256), cen := d.getLsbD 3
        record := (s.me.cbase.toNat + 16 * (d.toNat / 16 % 4096)) % 2 ^ 64 } ring }

/-- The four registers of a copy command are readable, its control register is legal (R232), and C has room (R28). -/
def State.copyOk (s : State) (o : CR) : Bool :=
  s.sOk o.ra && s.sOk o.rb && s.sOk o.rc && s.sOk o.rd && decide (s.counts.c < 63) &&
  (let d := s.sv o.rd
   fld d 2 0 == 0 && (bit d 3 || (fld d 23 16 == 0 && fld d 15 4 == 0)))

/-- A matrix operand as the bundle finds it: a tile, or a scratchpad operand (R261). -/
def State.mOpnd (s : State) (k : BitVec 1) (op : BitVec 12) : MOpnd :=
  if k = 1 then
    let q : SpOpnd := { r1 := s.sv (op.extractLsb' 6 6), r2 := s.sv (op.extractLsb' 0 6) }
    { t := q.tyr, ty := s.tyv q.tyr, sp := some q, data := 0 }
  else { t := op.toNat % 16, ty := s.tyv (op.toNat % 16), sp := none, data := s.tv (op.toNat % 16) }

/-- Its registers and its tile are readable (R29). -/
def State.mReady (s : State) (k : BitVec 1) (op : BitVec 12) : Bool :=
  (k != 1 || (s.sOk (op.extractLsb' 6 6) && s.sOk (op.extractLsb' 0 6))) && s.tOk (s.mOpnd k op).t

/-- Checks 1 and 2 of R262 on its registers and its type word. -/
def MOpnd.legal (m : MOpnd) : Bool :=
  match m.sp with
  | none => true
  | some q =>
    fld q.r1 63 48 == 0 && fld q.r1 31 22 == 0 && fld q.r1 35 32 == 0 && fld q.r1 3 0 == 0 &&
    fld q.r2 63 38 == 0 && fld q.r2 21 8 == 0 && fld q.r2 25 22 == 0 && fld q.r2 5 4 == 0 &&
    !tySidx m.ty && !tyEsc m.ty && decide (tyLayout m.ty ≤ 1)

/-- Check 3 of R262 on every line. -/
def State.mLines (s : State) (m : MOpnd) (g : Geo) : Bool :=
  match m.sp with
  | none => true
  | some q => (List.range g.lines).all fun l =>
      decide (q.lineAt l < 2 ^ 22) && decide (q.lineRot l / 65536 = (q.lineRot l + (g.lineBytes - 1)) / 65536) &&
      bankMine s.atIssue s.cur (q.lineRot l)

/-- The typing rule `m` gives `a` on the core's dimension variables, and leaves them as `d` (R44, R51). -/
def State.types {α : Type} (s : State) (m : TyM α) (a : α) (d : Dims) : Prop := m.run s.me.r.d = .ok (a, d)

/-- The typing rule `m` finds a fault. -/
def State.mistyped {α : Type} (s : State) (m : TyM α) (e : TyFault) : Prop := m.run s.me.r.d = .error e

/-- The cause that a typing fault raises in a slot (R53). -/
def TyFault.cause (e : TyFault) (slot : Slot) : Cause := slotCause e.code slot e.synd0 e.synd1 e.synd2

/-- Values of the elements of a matrix operand (R65, R72), with its scale base and codebook table. -/
def State.mVals (s : State) (m : MOpnd) (g : Geo) (base : BitVec 32) (table : Vector (BitVec 16) 256) : Array (Option Num) :=
  (({ s := s.atIssue, i := s.cur, fall := s.fall, slot := .M } : Ctx).mSource m g base table).values

/-- Values of the elements of a tile, with the core's scales and codebook (R65, R72, R73). -/
def State.tileVals (s : State) (g : Geo) (data : TileData) : List (Option Num) :=
  (tileSource g data { base := s.me.e.sba, st := s.me.e.st } s.me.e.cbt0).values.toList

/-- The parameter register of an X operation (R270). -/
def State.xp (s : State) (o : XF) : Word := s.sv (BitVec.ofNat 6 (24 + o.xe.toNat))
/-- It is readable. -/
def State.xpOk (s : State) (o : XF) : Bool := s.sOk (BitVec.ofNat 6 (24 + o.xe.toNat))

/-- The result type is bound and one tile with its type word is landed. -/
def State.givesTile (s : State) (i : Instr) (h : Hdr) (ok : Bool) (d : Dims) (lat : Nat) (td : BitVec 4) (data : TileData) (ty : TypeWord)
    (flags : Flags := 0) (clip : Bool := false) : Prop :=
  s.Does i h ok [s.lands lat (.t td.toNat data ty) flags clip] fun b => { b with dims := d }

/-- The memories of the package are in canonical form: addresses strictly rising, no listed byte equal to what an unlisted address
reads as. -/
def State.memoriesCanonical (s : State) : Prop :=
  s.mem.wf = true ∧ (∀ k < 64, (s.cluster k).sram.wf = true) ∧ ∀ k < 4, (s.yelm k).scratch.wf = true

/-! ### The copy engine, Ridge, the fabric, the host -/

/-- L1 has room for the lines of these bytes beside those it holds: no set comes to hold more than twelve (R181). -/
def CoreMem.roomFor (m : CoreMem) (keys : List Nat) : Prop :=
  ∀ set < 256, (m.linesOf set ++ (keys.map (· / 128)).filter fun l => l1Set l == set).eraseDups.length ≤ 12

/-- Home key of the byte at a VA, as the channel of a copy command finds it (R240). -/
def State.homeOf (s : State) (e : CopyEntry) (a : Access) (va : Nat) : Option Nat :=
  match s.copyPage e a (va / 4096) with | .ok k => some (k + va % 4096) | _ => none

/-- Home key of the byte at a VA, as Ridge finds it for a partition (R190, R292). -/
def State.ridgeHome (s : State) (part : Nat) (a : Access) (va : Nat) : Option Nat :=
  match s.ridgePage part a (va / 4096) with | .ok k => some (k + va % 4096) | _ => none

/-- From `s` to `u`, the record at home address `k` has taken its step and no other byte of home memory has changed: the counter
has gained `add`, the status word has taken `status` by OR (R238, R299). -/
def State.Recorded (s u : State) (k : Nat) (add status : Word) : Prop :=
  u.readNat k 8 = (s.readNat k 8 + add.toNat) % 2 ^ 64 ∧ u.readNat (k + 8) 8 = s.readNat (k + 8) 8 ||| status.toNat ∧
  ∀ a, (a < k ∨ k + 16 ≤ a) → u.mem.get a = s.mem.get a

/-- From `s` to `u`, the bytes of home memory that `ws` names by key, value and mask are written under their masks, and no other
byte has changed. -/
def State.Wrote (s u : State) (ws : List (Nat × Byte × Byte)) : Prop :=
  (∀ w ∈ ws, u.mem.get w.1 = (s.mem.get w.1 &&& ~~~w.2.2) ||| (w.2.1 &&& w.2.2)) ∧
  ∀ a, (∀ w ∈ ws, w.1 ≠ a) → u.mem.get a = s.mem.get a

/-- A report of R328 is sent to the control node and kept (R370), and its count grows. -/
def State.Reported (s t : State) (kind die unit left part : Nat) : Prop :=
  let w := reportWord s.pcc kind die unit left part
  t.reports = (w :: s.reports).take 1024 ∧ t.reportCount = s.reportCount + 1 ∧ t.unoon.sent = s.unoon.sent ++ [eventBlock w]

/-- The command block `cmd` names the command `i`, and the package takes it for execution: it was received before and its turn has come, or
it arrives on the active port with none before it (R364 to R366). -/
def State.accepts (s : State) (i : Instr) : Prop :=
  s.powered = true ∧ decodeCommand s.cmd = i ∧
  (s.unoon.again = true ∨
    (s.linkUp s.cmd.port = true ∧ s.unoon.await = none ∧ s.unoon.pendq = [] ∧ s.cmd.port = s.unoon.active)) ∧
  (∀ r ∈ s.unoon.kept, r.seq ≠ s.cmd.seq.toNat) ∧ s.cmd.seq.toNat = nextSeq s.unoon.seq ∧ s.cmd.status = 0 ∧ s.cmd.rsv = 0

/-- Its SEQ is the previous one from now on. -/
def State.taken (s : State) : State := { s with unoon := { s.unoon with seq := s.cmd.seq.toNat, again := false } }

/-- COMPLETION OF A COMMAND: taken for execution, the command `i` answers the next state in which the package is as `t` and has
sent and kept the response with this status, these results and this data (R365, R366). -/
def State.Answers (s : State) (i : Instr) (t : State) (status : Nat) (res : List Word) (data : List Byte) : Prop :=
  s.accepts i → exec i s = .next (t.taken.reply (respond s.cmd status res data))

/-- Argument word k of the command block. -/
def State.arg (s : State) (k : Nat) : Nat := (vget s.cmd.a k 0).toNat

/-! ### The integer formulas of the scalar instructions -/

/-- The signed quotient of R121. -/
def quotS {n : Nat} (a b : BitVec n) : BitVec n :=
  if b = 0 then BitVec.ofInt n (-1)
  else if a = BitVec.intMin n ∧ b = BitVec.ofInt n (-1) then BitVec.intMin n
  else BitVec.ofInt n (a.toInt.tdiv b.toInt)
/-- The signed remainder of R121. -/
def remS {n : Nat} (a b : BitVec n) : BitVec n :=
  if b = 0 then a
  else if a = BitVec.intMin n ∧ b = BitVec.ofInt n (-1) then 0
  else BitVec.ofInt n (a.toInt - b.toInt * a.toInt.tdiv b.toInt)
/-- The unsigned quotient of R121. -/
def quotU {n : Nat} (a b : BitVec n) : BitVec n := if b = 0 then BitVec.allOnes n else BitVec.ofNat n (a.toNat / b.toNat)
/-- The unsigned remainder of R121. -/
def remU {n : Nat} (a b : BitVec n) : BitVec n := if b = 0 then a else BitVec.ofNat n (a.toNat - b.toNat * (a.toNat / b.toNat))
/-- The condition that CC codes (R93). -/
def condition (cc : Nat) (a b : Word) : Bool :=
  match cc with
  | 0 => decide (a = b) | 1 => decide (a ≠ b) | 2 => decide (a.toInt < b.toInt) | 3 => decide (b.toInt ≤ a.toInt)
  | 4 => decide (a.toNat < b.toNat) | _ => decide (b.toNat ≤ a.toNat)
/-- Leading zeros of an n-bit value (R118). -/
def zerosAbove (n x : Nat) : Nat := if x = 0 then n else n - 1 - x.log2
/-- An exact value clamped to the signed range of n bits (R119). -/
def clampTo (n : Nat) (x : Int) : Int := max (-2 ^ (n - 1)) (min (2 ^ (n - 1) - 1) x)

end Sys2Proof.Machine
end

