-- ==== Sys2Proof/Certificates/Slice0/Obligations.lean ====
section
/-! DEFINITION. The statements about the machine, one proposition each. -/

open Sys2Proof Sys2Proof.Machine

/-! ### The S slot -/

/-- R118, R119: the register forms of latency 1 give s[RD] the result of their row on s[RA] and s[RB], under `.w` on the low 32 bits and
sign-extended, under `.sat` clamped with SAT where that changes the result. -/
def Obligations.ScalarArithmetic : Prop :=
  ∀ (s : State) (h : Hdr) (o : SR),
    let a := s.sv o.ra
    let b := s.sv o.rb
    let w := o.mod.getLsbD 0
    let one := s.sOk o.ra
    let two := s.sOk o.ra && s.sOk o.rb
    let put := fun v : Word => s.putS o.rd 1 v
    let low := fun x : Word => x.setWidth 32
    let n := if w then 32 else 64
    let sum := if w then (low a).toInt + (low b).toInt else a.toInt + b.toInt
    let dif := if w then (low a).toInt - (low b).toInt else a.toInt - b.toInt
    let clamped := fun x : Int => s.putS o.rd 1 (BitVec.ofInt 64 (clampTo n x)) (if clampTo n x = x then 0 else flagSat)
    s.Gives (.add h o) h two (if o.mod.getLsbD 1 then clamped sum else put (if w then sx (low a + low b) else a + b)) ∧
    s.Gives (.sub h o) h two (if o.mod.getLsbD 1 then clamped dif else put (if w then sx (low a - low b) else a - b)) ∧
    s.Gives (.and h o) h two (put (a &&& b)) ∧
    s.Gives (.or h o) h two (put (a ||| b)) ∧
    s.Gives (.xor h o) h two (put (a ^^^ b)) ∧
    s.Gives (.sll h o) h two (put (if w then sx (low a <<< (b.toNat % 32)) else a <<< (b.toNat % 64))) ∧
    s.Gives (.srl h o) h two (put (if w then sx (low a >>> (b.toNat % 32)) else a >>> (b.toNat % 64))) ∧
    s.Gives (.sra h o) h two (put (if w then sx ((low a).sshiftRight (b.toNat % 32)) else a.sshiftRight (b.toNat % 64))) ∧
    s.Gives (.min h o) h two (put (BitVec.ofInt 64 (min a.toInt b.toInt))) ∧
    s.Gives (.max h o) h two (put (BitVec.ofInt 64 (max a.toInt b.toInt))) ∧
    s.Gives (.minu h o) h two (put (BitVec.ofNat 64 (min a.toNat b.toNat))) ∧
    s.Gives (.maxu h o) h two (put (BitVec.ofNat 64 (max a.toNat b.toNat))) ∧
    s.Gives (.shadd h o) h two (put ((a <<< (o.mod.toNat % 8)) + b)) ∧
    s.Gives (.clz h o) h one (put (word (if w then zerosAbove 32 (low a).toNat else zerosAbove 64 a.toNat))) ∧
    (∀ k, (if k = n then ∀ j < n, a.getLsbD j = false else k < n ∧ a.getLsbD k = true ∧ ∀ j < k, a.getLsbD j = false) →
      s.Gives (.ctz h o) h one (put (word k))) ∧
    s.Gives (.popc h o) h one (put (word ((List.range n).countP fun k => a.getLsbD k)))

/-- R118, R120, R121: fields, products and quotients. R122: the immediate forms. -/
def Obligations.ScalarFieldsImmediates : Prop :=
  (∀ (s : State) (h : Hdr) (o : SR),
     let a := s.sv o.ra
     let b := s.sv o.rb
     let d := s.sv o.rd
     let w := o.mod.getLsbD 0
     let two := s.sOk o.ra && s.sOk o.rb
     let low := fun x : Word => x.setWidth 32
     let pos := b.toNat % 64
     let len := min (min (b.toNat / 256 % 128) 64) (64 - pos)
     (∀ v : Word, (∀ k < 64, v.getLsbD k = if k < len then a.getLsbD (pos + k) else w && decide (0 < len) && a.getLsbD (pos + len - 1)) →
       s.Gives (.bext h o) h two (s.putS o.rd 1 v)) ∧
     (∀ v : Word, (∀ k < 64, v.getLsbD k = if pos ≤ k ∧ k < pos + len then a.getLsbD (k - pos) else d.getLsbD k) →
       s.Gives (.bins h o) h (two && s.sOk o.rd) (s.putS o.rd 1 v)) ∧
     s.Gives (.mul h o) h two (s.putS o.rd 3 (if w then sx (low a * low b) else a * b)) ∧
     s.Gives (.mulh h o) h two (s.putS o.rd 3 ((a.signExtend 128 * b.signExtend 128).extractLsb' 64 64)) ∧
     s.Gives (.mulhu h o) h two (s.putS o.rd 3 ((a.setWidth 128 * b.setWidth 128).extractLsb' 64 64)) ∧
     s.Gives (.div h o) h two (s.putS o.rd 12 (if w then sx (quotS (low a) (low b)) else quotS a b)) ∧
     s.Gives (.rem h o) h two (s.putS o.rd 12 (if w then sx (remS (low a) (low b)) else remS a b)) ∧
     s.Gives (.divu h o) h two (s.putS o.rd 12 (if w then sx (quotU (low a) (low b)) else quotU a b)) ∧
     s.Gives (.remu h o) h two (s.putS o.rd 12 (if w then sx (remU (low a) (low b)) else remU a b))) ∧
  (∀ (s : State) (h : Hdr) (o : SI),
     let a := s.sv o.ra
     let imm : Word := o.imm.signExtend 64
     let gives := fun (i : Instr) (v : Word) => s.Gives i h (s.sOk o.ra) (s.putS o.rd 1 v)
     gives (.addi h o) (a + imm) ∧ gives (.andi h o) (a &&& imm) ∧ gives (.ori h o) (a ||| imm) ∧ gives (.xori h o) (a ^^^ imm) ∧
     gives (.slli h o) (a <<< (o.imm.toNat % 64)) ∧ gives (.srli h o) (a >>> (o.imm.toNat % 64)) ∧
     gives (.srai h o) (a.sshiftRight (o.imm.toNat % 64)))

/-- R123, R124, R127: constants, selection, branch-target registers. R125, R126: a compare lands its result in PT and the complement in PF, a
register compare at c+2, predicate logic at c+1. The model's choices in it: log entry 76. -/
def Obligations.SelectComparePredicate : Prop :=
  (∀ (s : State) (h : Hdr),
     (∀ o : SL, s.Gives (.li h o) h true (s.putS o.rd 1 (o.imm.signExtend 64)) ∧
       s.Gives (.lih h o) h (s.sOk o.rd) (s.putS o.rd 1 ((o.imm.setWidth 64 <<< 29) ||| (s.sv o.rd &&& 0x1FFFFFFF)))) ∧
     (∀ o : SS, s.Gives (.sel h o) h (s.sOk o.ra && s.sOk o.rb) (s.putS o.rd 1 (if s.pv o.pa then s.sv o.ra else s.sv o.rb))) ∧
     (∀ o : SBL, s.Gives (.bli h o) h true [s.lands 1 (.b o.bd.toNat o.pos)]) ∧
     ∀ o : SB, s.Gives (.bmov h o) h (s.sOk o.ra) [s.lands 1 (.b o.bd.toNat ((s.sv o.ra).setWidth 32))] ∧
       s.Gives (.bget h o) h true (s.putS o.ra 1 ((s.me.r.readB o.ba.toNat).setWidth 64))) ∧
  (∀ (s : State) (h : Hdr),
     let pair := fun (pt pf : BitVec 4) (lat : Nat) (r : Bool) => s.putP pt lat r ++ s.putP pf lat (!r)
     (∀ o : SC, s.Gives (.cmp h o) h (s.sOk o.ra && s.sOk o.rb) (pair o.pt o.pf 2 (condition o.cc.toNat (s.sv o.ra) (s.sv o.rb)))) ∧
     (∀ o : SCI, s.Gives (.cmpi h o) h (s.sOk o.ra) (pair o.pt o.pf 2 (condition o.cc.toNat (s.sv o.ra) (o.imm.signExtend 64)))) ∧
     ∀ o : SP,
       s.Gives (.pand h o) h true (pair o.pt o.pf 1 (s.pv o.pa && s.pv o.pb)) ∧
       s.Gives (.por h o) h true (pair o.pt o.pf 1 (s.pv o.pa || s.pv o.pb)) ∧
       s.Gives (.pxor h o) h true (pair o.pt o.pf 1 (s.pv o.pa != s.pv o.pb)) ∧
       s.Gives (.pandn h o) h true (pair o.pt o.pf 1 (s.pv o.pa && !s.pv o.pb)) ∧
       s.Gives (.ptst h o) h (s.sOk o.ra) (pair o.pt o.pf 2 (s.sv o.ra != 0)))

/-- R128 to R131: the loop stack. R40, R132, R133: `rotcfg` writes ROT at retire, a value that breaks R40 traps; `swp` steps the bases and PRB
and sets p8. The model's choices in it: log entry 28. -/
def Obligations.LoopsAndRotation : Prop :=
  (∀ (s : State) (h : Hdr) (o : SX),
     let a := s.sv o.ra
     let n := if o.ra = 0 then o.imm.toNat / 2 ^ 14 else a.toNat
     let stop := if o.imm.toNat % 2 ^ 14 = 0 then 16384 else o.imm.toNat % 2 ^ 14
     let loops := s.me.r.loops
     let illegal := slotCause 0x02 h.slot 0 0 0
     let legal := decide (n < 2 ^ 32) && decide (s.fall < stop) && (n == 0 || decide (loops.length < 4))
     let k := o.imm.toNat % 8
     let pops := decide (1 ≤ k) && decide (k ≤ 4) && decide (k ≤ loops.length)
     s.Does (.loop h o) h (s.sOk o.ra && legal && n != 0) [] (s.onCore fun c =>
       c.pushLoop { start := BitVec.ofNat 32 s.fall, stop := BitVec.ofNat 32 stop, count := BitVec.ofNat 32 n }) ∧
     s.Ends (.loop h o) h (s.sOk o.ra && legal && n != 0) (fun t =>
       (t.core s.cur).pos = s.fall ∧ (t.core s.cur).bubbles = 0 ∧ (t.core s.cur).r.loops.length = loops.length + 1) ∧
     s.Ends (.loop h o) h (s.sOk o.ra && legal && n == 0) (fun t =>
       (t.core s.cur).pos = stop ∧ (t.core s.cur).bubbles = 2 ∧ (t.core s.cur).r = s.me.r ∧ (t.core s.cur).cycle = s.me.cycle + 1) ∧
     s.Traps (.loop h o) h (s.sOk o.ra && !legal) illegal ∧
     s.Does (.lbrk h o) h pops [] (s.onCore fun c => { c with r := { c.r with loops := c.r.loops.drop k } }) ∧
     s.Traps (.lbrk h o) h (!pops) illegal ∧
     s.Gives (.lget h o) h true (s.putS o.rd 1 (
       let e : LoopEntry := (loops[o.imm.toNat % 4]?).getD default
       match o.imm.toNat / 4 with
       | 0 => e.start.setWidth 64 | 1 => e.stop.setWidth 64 | 2 => e.count.setWidth 64 | _ => word loops.length))) ∧
  (∀ (s : State) (h : Hdr) (o : SX),
     let a := s.sv o.ra
     let top := match s.me.r.loops with | t :: _ => t.count.toNat | [] => 0
     let sized := fun (base size live : Nat) => decide (size ≤ 32) && decide (live ≤ size) && decide (if size = 0 then base = 0 else base < size)
     let legal := sized (fld a 4 0) (fld a 10 5) (fld a 16 11) && sized (fld a 21 17) (fld a 27 22) (fld a 33 28) && fld a 63 37 == 0
     let back := fun base size : Nat => if size = 0 then base else (base + size - 1) % size
     s.Does (.rotcfg h o) h (s.sOk o.ra && legal) [] (s.onCore fun c => { c with r := c.r.setRot a }) ∧
     s.Traps (.rotcfg h o) h (s.sOk o.ra && !legal) (slotCause 0x02 h.slot 0 0 0) ∧
     s.Traps (.swp h o) h s.me.r.loops.isEmpty (slotCause 0x02 h.slot 0 0 0) ∧
     s.Does (.swp h o) h (!s.me.r.loops.isEmpty) [] (s.onCore fun c => { c with r := c.r.swp (o.imm.toNat % 8) }) ∧
     s.Ends (.rotcfg h o) h (s.sOk o.ra && legal) (fun t =>
       let r := (t.core s.cur).r
       r.rot = a ∧ (∀ j < 64, vget r.s j 0 = if (rotS a).dead j then 0 else vget s.me.r.s j 0) ∧
       ∀ j < 64, vget r.v j 0 = if (rotV a).dead j then 0 else vget s.me.r.v j 0) ∧
     (rotOk s.me.r.rot = true → s.Ends (.swp h o) h (!s.me.r.loops.isEmpty) fun t =>
      let r := (t.core s.cur).r
      (rotS r.rot).base = back (rotS s.me.r.rot).base (rotS s.me.r.rot).size ∧ (rotS r.rot).size = (rotS s.me.r.rot).size ∧
      (rotS r.rot).live = (rotS s.me.r.rot).live ∧
      (rotV r.rot).base = back (rotV s.me.r.rot).base (rotV s.me.r.rot).size ∧ (rotV r.rot).size = (rotV s.me.r.rot).size ∧
      (rotV r.rot).live = (rotV s.me.r.rot).live ∧
      rotP r.rot = (rotP s.me.r.rot + 7) % 8 ∧ r.readP 8 = decide (o.imm.toNat % 8 < top - 1) ∧
      ∀ j < 7, r.readP (9 + j) = s.me.r.readP (8 + j)))

/-- R134 to R138: bucket selection and dimension variables. R139, R140: `tyget` reads half of a type word, `tyset` replaces one, and a word
that no extent value can make well formed traps. -/
def Obligations.DimensionsAndTypeWords : Prop :=
  (∀ (s : State) (h : Hdr) (o : SX),
     let a := s.sv o.ra
     let dims := s.me.r.d
     let fault := fun s1 s2 : Word => slotCause 0x03 h.slot 0x20 s1 s2
     let n := o.imm.toNat % 16
     let v := if o.ra = 0 then o.imm.toNat / 16 else a.toNat
     let range := decide (1 ≤ v) && decide (v < 2 ^ 32)
     let boundTo := fun (k : Nat) (x : Nat) => vget dims k none == some (BitVec.ofNat 32 x)
     let free := fun k : Nat => vget dims k none == none
     s.Does (.dbind h o) h (s.sOk o.ra && range && free n) [] (fun b => { b with dims := vset dims n (some (BitVec.ofNat 32 v)) }) ∧
     s.Does (.dbind h o) h (s.sOk o.ra && range && boundTo n v) [] id ∧
     s.Traps (.dbind h o) h (s.sOk o.ra && !range) (fault 1 (word v)) ∧
     (∀ w, vget dims n none = some w → w.toNat ≠ v → s.Traps (.dbind h o) h (s.sOk o.ra && range) (fault (w.setWidth 64) (word v))) ∧
     s.Does (.dfree h o) h true [] (fun b => { b with dims := Vector.ofFn fun k => if o.imm.getLsbD k.val then none else dims[k] }) ∧
     s.Gives (.dget h o) h true (s.putS o.rd 1 (match vget dims n none with | some x => x.setWidth 64 | none => 0)) ∧
     -- a bucket table of `len` entries in registers rb, rb + 1, …
     (let len := o.imm.toNat % 16
      let dv := o.imm.toNat / 16 % 16
      let entry := fun k : Nat => s.sv (BitVec.ofNat 6 (o.rb.toNat + k))
      let size := fun k : Nat => (entry k).toNat % 2 ^ 32
      let table := decide (1 ≤ len) && decide (len ≤ 8) && decide (o.rb.toNat + len ≤ 64) &&
        (List.range len).all fun k => s.sOk (BitVec.ofNat 6 (o.rb.toNat + k))
      let rising := decide (0 < size 0) && (List.range len).all fun k => k == 0 || decide (size (k - 1) < size k)
      let lands := fun k : Nat => [s.lands 1 (.b (o.imm.toNat / 2 ^ 8 % 16) ((entry k).extractLsb' 32 32)),
        s.lands 1 (.pad (o.imm.toNat / 2 ^ 12 % 4) (BitVec.ofNat 32 (size k - a.toNat)))]
      (∀ k < len, (∀ j < k, size j < a.toNat) → a.toNat ≤ size k → a ≠ 0 →
        s.Does (.bsel h o) h (s.sOk o.ra && table && rising && free dv) (lands k)
          (fun b => { b with dims := vset dims dv (some (BitVec.ofNat 32 (size k))) }) ∧
        s.Does (.bsel h o) h (s.sOk o.ra && table && rising && boundTo dv (size k)) (lands k) id) ∧
      ((a = 0 ∨ ∀ k < len, size k < a.toNat) →
        s.Traps (.bsel h o) h (s.sOk o.ra && table && rising) (fault (word (size (len - 1))) a)))) ∧
  (∀ (s : State) (h : Hdr) (o : SX),
     let n := o.imm.toNat % 16
     let t : TypeWord := s.sv o.rb ++ s.sv o.ra
     let two := s.sOk o.ra && s.sOk o.rb
     s.Gives (.tyget h o) h (s.tOk n) (s.putS o.rd 1 (if o.imm.getLsbD 4 then (s.tyv n).extractLsb' 64 64 else (s.tyv n).extractLsb' 0 64)) ∧
     s.Gives (.tyset h o) h (two && (!tyValid t || tyBasic t)) [s.lands 1 (.ty n t)] ∧
     s.Traps (.tyset h o) h (two && tyValid t && !tyBasic t)
       (slotCause 0x03 h.slot (word (n <<< 10 ||| 1 <<< 4 ||| 3 <<< 2)) (s.sv o.ra) (s.sv o.rb)))

/-- R141, R329: the system registers, by number, with what a kernel reads from each (the layouts of R12, R82, R176, R233, R242, R256, R285,
R287, R308 to R314) and whether it may write it. A number that the map does not name, the supervisor registers among them, and a write to
a read-only register are illegal operations. A write lands at c+1, and the old value at c+2; bits without a meaning are discarded. -/
def Obligations.SystemRegisters : Prop :=
  ∀ (s : State) (h : Hdr) (o : SX),
    let a := s.sv o.ra
    let n := o.imm.toNat % 4096
    let c := s.me
    let x := c.x
    let flag := fun b : Bool => if b then 1 else 0
    let entry := fun k : Nat =>
      let b := (s.atIssue.cluster (clusterOf s.cur)).bank k
      let mode := match b.mode with | .cache => 0 | .spad => 1 | .fifo => 2
      let own := if b.mode = .spad then b.own else 0
      let prod := if b.mode = .fifo then b.prod else 0
      let cons := if b.mode = .fifo then b.cons else 0
      mode <<< 14 ||| flag b.ready <<< 13 ||| own <<< 6 ||| prod <<< 4 ||| cons <<< 2
    let grant := (match c.grant.cls with | some k => if s.pcc < c.grant.gend then 2 ^ 63 + k <<< 61 else 0 | none => 0) + c.grant.gend % 2 ^ 48
    let pend := match c.grant.pend with | some p => 1 <<< 60 ||| p.1 <<< 58 ||| p.2 <<< 53 | none => 0
    let readOnly : List (Nat × Word) :=
      [(0x000, word s.pcc), (0x001, c.wid), (0x002, c.level), (0x003, vget c.grid 0 0), (0x004, vget c.grid 1 0), (0x005, vget c.grid 2 0),
       (0x006, vget c.grid 3 0), (0x007, vget c.grid 4 0), (0x008, vget c.grid 5 0), (0x010, x.cause), (0x011, x.synd0), (0x012, x.synd1),
       (0x013, x.synd2), (0x014, x.synd3), (0x015, x.trappc), (0x016, word (x.rtry <<< 10 ||| c.nq <<< 4 ||| flag x.hnd)), (0x022, c.stalls),
       (0x023, c.holds), (0x024, word (c.cnt.l ||| c.cnt.s <<< 8 ||| c.cnt.c <<< 16 ||| c.cnt.t <<< 24 ||| c.mem.rels.length <<< 32)),
       (0x025, c.r.rot), (0x030, word (grant ||| pend)), (0x031, c.e.padsel), (0x041, vget c.cwp 0 0), (0x042, vget c.cwp 1 0)] ++
      (List.range 16).map fun k =>
        (0x050 + k, word (entry (4 * k) ||| entry (4 * k + 1) <<< 16 ||| entry (4 * k + 2) <<< 32 ||| entry (4 * k + 3) <<< 48))
    let readWrite : List (Nat × Word) :=
      [(0x020, c.e.fpflags.setWidth 64), (0x021, word (flag c.e.clip)), (0x032, (vget c.r.pad 0 0).setWidth 64),
       (0x033, (vget c.r.pad 1 0).setWidth 64), (0x034, (vget c.r.pad 2 0).setWidth 64), (0x035, (vget c.r.pad 3 0).setWidth 64), (0x040, c.cbase)]
    let illegal := slotCause 0x02 h.slot 0 0 0
    let lands := fun v old : Word =>
      (if 0x32 ≤ n ∧ n ≤ 0x35 then s.lands 1 (.pad (n - 0x32) (v.setWidth 32)) else s.lands 1 (.csr n v)) :: s.putS o.rd 2 old
    (∀ old, (n, old) ∈ readOnly →
      s.Gives (.csrr h o) h true (s.putS o.rd 2 old) ∧ s.Traps (.csrw h o) h (s.sOk o.ra) illegal ∧
      s.Traps (.csrs h o) h (s.sOk o.ra) illegal ∧ s.Traps (.csrc h o) h (s.sOk o.ra) illegal) ∧
    (∀ old, (n, old) ∈ readWrite →
      s.Gives (.csrr h o) h true (s.putS o.rd 2 old) ∧ s.Gives (.csrw h o) h (s.sOk o.ra) (lands a old) ∧
      s.Gives (.csrs h o) h (s.sOk o.ra) (lands (old ||| a) old) ∧ s.Gives (.csrc h o) h (s.sOk o.ra) (lands (old &&& ~~~a) old)) ∧
    (n ∉ readOnly.map (·.1) → n ∉ readWrite.map (·.1) →
      s.Traps (.csrr h o) h true illegal ∧ s.Traps (.csrw h o) h (s.sOk o.ra) illegal ∧
      s.Traps (.csrs h o) h (s.sOk o.ra) illegal ∧ s.Traps (.csrc h o) h (s.sOk o.ra) illegal) ∧
    (n = 0x800 ∨ n = 0x801 ∨ (0x810 ≤ n ∧ n ≤ 0x81F) →
      s.Traps (.csrr h o) h true illegal ∧ s.Traps (.csrw h o) h (s.sOk o.ra) illegal ∧
      s.Traps (.csrs h o) h (s.sOk o.ra) illegal ∧ s.Traps (.csrc h o) h (s.sOk o.ra) illegal) ∧
    ∀ (d : Core) (v : Word),
      d.land (.csr 0x20 v) = { d with e := { d.e with fpflags := v.setWidth 6 } } ∧
      d.land (.csr 0x21 v) = { d with e := { d.e with clip := v.getLsbD 0 } } ∧
      d.land (.csr 0x40 v) = { d with cbase := v &&& 0x00FFFFFFFFFFFFF0 }

/-- R142, R309, R313: `trap` takes the software trap: with a trap vector and no handler running, the handler starts. R143, R314, R317: `tret`
ends the handler and goes on at TRAPPC, or under `.skip` at its fall-through, two bubbles later, with the replay registers landing from
the bundle that issues there; outside a handler it is illegal. R19: `exit` discards the results in flight and retires the instance, which
stays on its core until L, S and T are zero and then leaves it. R27, R30, R145: a `wait` whose limits are not met holds its bundle. R20,
R27, R146: `bar` is legal at a ganged or paired level; it retires once every other member of the group has reached the same generation or
left, lets those that wait at it go on in the same cycle, and holds until then; no other slot of a held `wait` issues. R33: a held bundle
is left for a save that is asked for. The model's choices in it: log entries 58, 59, 77. -/
def Obligations.TrapReturnExitWaitBar : Prop :=
  (∀ (s : State) (h : Hdr) (o : SX),
     let k : Cause := { code := 0x0C, synd0 := word (o.imm.toNat % 65536), synd1 := s.sv o.ra, synd2 := 0, synd3 := word h.slot.code }
     s.Traps (.trap h o) h (s.sOk o.ra) k ∧
     ((Instr.trap h o).wf = true → s.clear = true → s.on h = true → s.sOk o.ra = true → s.me.x.hnd = false →
       ∀ x, s.me.inst = some x → x.lh.tven = true → ∃ t, exec (.trap h o) s = .next t ∧
         let d := t.core s.cur
         d.x.cause = 0x0C ∧ d.x.synd0 = k.synd0 ∧ d.x.synd1 = k.synd1 ∧ d.x.synd2 = 0 ∧ d.x.synd3 = k.synd3 ∧
         d.x.trappc = word s.me.pos ∧ d.x.hnd = true ∧ d.pos = x.lh.tvec ∧ d.r = s.me.r ∧ d.cnt = s.me.cnt ∧ t.mem = s.mem) ∧
     s.Does (.tret h o) h s.me.x.hnd [] (fun b => { b with tret := some (o.imm.getLsbD 0) }) ∧
     s.Ends (.tret h o) h s.me.x.hnd (fun t =>
       let d := t.core s.cur
       let pc := s.me.x.trappc.toNat
       d.x = { (if s.me.x.rtryPos = s.me.pos then { s.me.x with rtry := 0, run := 0 } else s.me.x) with hnd := false } ∧ d.pos = (if o.imm.getLsbD 0 then fallOf s.me.stream pc else pc) ∧
       d.bubbles = 2 ∧ d.reland = true ∧ d.r = s.me.r ∧ d.cnt = s.me.cnt ∧ t.mem = s.mem ∧ ∀ j, j ≠ s.cur → t.core j = s.core j) ∧
     s.Traps (.tret h o) h (!s.me.x.hnd) (slotCause 0x02 h.slot 0 0 0)) ∧
  (∀ (s : State) (h : Hdr) (o : SX), s.errs = [] →
     let n := s.me.cnt
     s.Ends (.exit h o) h (n.l != 0 || n.s != 0 || n.t != 0) (fun t =>
       let d := t.core s.cur
       d.phase = .retiring ∧ d.inst = s.me.inst ∧ d.flight = [] ∧ d.replay = [] ∧ d.asyncs = [] ∧ d.cnt = n ∧ d.mem.loads = s.me.mem.loads ∧
       d.mem.stores = s.me.mem.stores ∧ d.mem.dirty = s.me.mem.dirty ∧ d.ch = s.me.ch ∧ t.mem = s.mem ∧ t.copies = s.copies ∧
       ∀ j, j ≠ s.cur → t.core j = s.core j) ∧
     s.Ends (.exit h o) h (n.l == 0 && n.s == 0 && n.t == 0) fun t =>
       let d := t.core s.cur
       d.phase = .idle ∧ d.inst = none ∧ d.flight = [] ∧ d.r = Regs.start ∧ d.mem.dirty = [] ∧ d.ch = s.me.ch ∧
       (∀ r ∈ s.copies, r.e.kind ≠ .get → r ∈ t.copies) ∧ ∀ j, j ≠ s.cur → t.core j = { s.core j with mem := (t.core j).mem }) ∧
  (∀ (s : State) (h : Hdr) (o : SW),
     let n := s.me.cnt
     let met := decide (n.l ≤ o.l.toNat) && decide (n.s ≤ o.s.toNat) && decide (n.c ≤ o.c.toNat) && decide (n.t ≤ o.t.toNat)
     s.Does (.wait h o) h met [] id ∧ s.Holds (.wait h o) h (!met) .wait ∧
     -- while the limits are not met, no other slot of the bundle issues, whatever it holds
     ∀ (hd : Head) (ops : List SlotOp), hd.code = none → hd.bad = false → hd.tests = [] → hd.drain = false → h.slot = .S → met = false →
       (Instr.wait h o).wf = true → s.clear = true → s.on h = true → s.fits [] = true → s.me.preempt = none →
       issueBundle hd (waitOp h o :: ops) s = .next (s.heldAt .wait)) ∧
  ∀ (s : State) (h : Hdr) (o : SX) (x : Inst), s.me.inst = some x →
    let l := o.imm.toNat % 8
    let marks := x.lh.levels[l]?.getD 0
    let legal := decide (1 ≤ l) && decide (l ≤ x.lh.nf) && (marks.getLsbD 0 || marks.getLsbD 1)
    let size := (x.lh.counts.take l).foldl (· * ·) 1
    let mate := fun y : Inst => y.graph = x.graph ∧ y.node = x.node ∧ y.idx / size = x.idx / size
    let made := fun c : Core => c.bars[l]?.getD 0
    let g := made s.me + 1
    let waiting := fun c : Core => c.phase = .run ∧ ∃ t, c.hold = some (.bar l, t)
    let complete :=
      (∀ j < 256, j ≠ s.cur → ∀ y, (s.core j).inst = some y → mate y → (s.core j).phase ≠ .retiring →
        g ≤ made (s.core j) ∨ (g = made (s.core j) + 1 ∧ waiting (s.core j))) ∧
      ∀ v ∈ s.saved, mate v.inst → g ≤ made v.core
    s.Traps (.bar h o) h (!legal) (slotCause 0x02 h.slot 0 0 0) ∧
    (complete → s.Ends (.bar h o) h legal fun t =>
      (t.core s.cur).bars = s.me.bars.set l g ∧ (t.core s.cur).cycle = s.me.cycle + 1 ∧ (t.core s.cur).hold = none ∧ t.mem = s.mem ∧
      ∀ j < 256, j ≠ s.cur →
        ((∃ y, (s.core j).inst = some y ∧ mate y) ∧ waiting (s.core j) ∧ s.pcc < (s.core j).wake →
          t.core j = { s.core j with wake := s.pcc, holds := (s.core j).holds - 1 }) ∧
        (¬((∃ y, (s.core j).inst = some y ∧ mate y) ∧ waiting (s.core j) ∧ s.pcc < (s.core j).wake) → t.core j = s.core j)) ∧
    (¬complete → s.Holds (.bar h o) h legal (.bar l))

/-! ### The V slots -/

/-- R80, R81, R150, R151: vector floating-point arithmetic on the active elements, rounded once. The model's choices in it: log entry 63. -/
def Obligations.VectorFloat : Prop :=
  ∀ (s : State) (h : Hdr) (o : VR),
    let t := ffmtEt o.et.toNat
    let m := rmode o.rm.toNat
    let a := fun j => t.decode (elem t.w (s.vv o.va) j)
    let b := fun j => t.decode (elem t.w (s.vv o.vb) j)
    let c := fun j => t.decode (elem t.w (s.vv o.vc) j)
    let codeA := fun j => elem t.w (s.vv o.va) j
    let codeB := fun j => elem t.w (s.vv o.vb) j
    let half := 2 ^ (t.w - 1)
    let one := s.vOk o.va
    let two := one && s.vOk o.vb
    let three := two && s.vOk o.vc
    let gives := fun (i : Instr) (ok : Bool) (lat : Nat) (f : Nat → Nat × Flags) =>
      s.GivesV i h ok o.vd lat t.w fun j => if active (s.mv o.msk) t.w j then some (f j) else none
    let sign := fun (g : Nat → Nat) (j : Nat) => if (a j).isNan then (t.nan, if (a j).raises then flagNV else 0) else (g (codeA j), (0 : Flags))
    gives (.vfadd h o) two 4 (fun j => t.round m (ieeeSum m [a j, b j])) ∧
    gives (.vfsub h o) two 4 (fun j => t.round m (ieeeSum m [a j, (b j).negate])) ∧
    gives (.vfmul h o) two 4 (fun j => t.round m ((a j).mul (b j))) ∧
    gives (.vffma h o) three 4 (fun j => t.round m (ieeeSum m [(a j).mul (b j), c j])) ∧
    gives (.vffms h o) three 4 (fun j => t.round m (ieeeSum m [(a j).mul (b j), (c j).negate])) ∧
    gives (.vfmin h o) two 4 (fun j => t.minmax false (codeA j) (codeB j)) ∧
    gives (.vfmax h o) two 4 (fun j => t.minmax true (codeA j) (codeB j)) ∧
    gives (.vfabs h o) one 4 (sign fun x => x % half) ∧
    gives (.vfneg h o) one 4 (sign fun x => if x < half then x + half else x - half) ∧
    gives (.vfdiv h o) two 12 (fun j => t.roundWith m ((a j).div (b j))) ∧
    gives (.vfsqrt h o) one 12 (fun j => t.round m (a j).sqrt) ∧
    gives (.vfexp2 h o) one 8 (fun j => t.round m (a j).exp2) ∧
    gives (.vflog2 h o) one 8 (fun j => t.roundWith m (a j).log2) ∧
    gives (.vfrcp h o) one 8 (fun j => t.roundWith m ((Machine.Num.ofInt 1).div (a j))) ∧
    gives (.vfrsq h o) one 8 (fun j => t.roundWith m (a j).rsqrt)

/-- R152, R153: vector integer arithmetic on the active elements, signed or under `.u` unsigned, wrapped or under `.sat` clamped. -/
def Obligations.VectorInteger : Prop :=
  ∀ (s : State) (h : Hdr) (o : VR),
    let w := etWidth o.et
    let a := fun j => elem w (s.vv o.va) j
    let b := fun j => elem w (s.vv o.vb) j
    let sa := fun j => sgn w (a j)
    let sb := fun j => sgn w (b j)
    let u := o.mod.getLsbD 1
    let va := fun j => if u then (a j : Int) else sa j
    let vb := fun j => if u then (b j : Int) else sb j
    let two := s.vOk o.va && s.vOk o.vb
    let gives := fun (i : Instr) (ok : Bool) (f : Nat → Nat × Flags) =>
      s.GivesV i h ok o.vd 2 w fun j => if active (s.mv o.msk) w j then some (f j) else none
    let exact := fun x : Int => if o.mod.getLsbD 0 then (wrap w (clampTo w x), if clampTo w x = x then (0 : Flags) else flagSat) else (wrap w x, 0)
    gives (.vadd h o) two (fun j => exact (sa j + sb j)) ∧
    gives (.vsub h o) two (fun j => exact (sa j - sb j)) ∧
    gives (.vmul h o) two (fun j => exact (sa j * sb j)) ∧
    gives (.vmulh h o) two (fun j => (wrap w (va j * vb j / 2 ^ w), 0)) ∧
    gives (.vand h o) two (fun j => (a j &&& b j, 0)) ∧
    gives (.vor h o) two (fun j => (a j ||| b j, 0)) ∧
    gives (.vxor h o) two (fun j => (a j ^^^ b j, 0)) ∧
    gives (.vandn h o) two (fun j => (a j &&& (2 ^ w - 1 - b j), 0)) ∧
    gives (.vsll h o) two (fun j => (a j * 2 ^ (b j % w), 0)) ∧
    gives (.vsrl h o) two (fun j => (a j / 2 ^ (b j % w), 0)) ∧
    gives (.vsra h o) two (fun j => (wrap w (sa j / 2 ^ (b j % w)), 0)) ∧
    gives (.vmin h o) two (fun j => (wrap w (min (va j) (vb j)), 0)) ∧
    gives (.vmax h o) two (fun j => (wrap w (max (va j) (vb j)), 0)) ∧
    gives (.vabs h o) (s.vOk o.va) (fun j => exact (sa j).natAbs)

/-- R154 to R157: conversion, compares into masks, mask logic. -/
def Obligations.ConvertCompareMask : Prop :=
  ∀ (s : State) (h : Hdr),
    (∀ o : VR,
      let src : BitVec 3 := o.mod.extractLsb' 0 3
      let wd := etWidth o.et
      let ws := etWidth src
      let nd := nElem wd
      let ns := nElem ws
      let hi := if o.mod.getLsbD 3 then 1 else 0
      let from_ := fun k : Nat =>
        if nd = 2 * ns then (if hi * ns ≤ k ∧ k - hi * ns < ns then some (k - hi * ns) else none)
        else if ns = 2 * nd then some (k + hi * nd) else some k
      s.GivesV (.vcvt h o) h (s.vOk o.va) o.vd 4 wd fun k =>
        if active (s.mv o.msk) wd k then (from_ k).map fun j => vConvert o.et src (rmode o.rm.toNat) (elem ws (s.vv o.va) j) else none) ∧
    (∀ (o : VC) (v : Word) (flags : Flags),
      let w := etWidth o.et
      let two := s.vOk o.va && s.vOk o.vb
      let on := fun j => active (s.mv o.msk) w j
      -- the lanes of element j hold its result, those of inactive elements 0; the flags are those that active elements raise
      let holds := fun f : Nat → Nat → Bool × Flags =>
        (∀ l < 64, v.getLsbD l = (on (32 * l / w) && (f (elem w (s.vv o.va) (32 * l / w)) (elem w (s.vv o.vb) (32 * l / w))).1)) ∧
        ∀ k < 6, bit flags k = true ↔ ∃ j < nElem w, on j = true ∧ bit (f (elem w (s.vv o.va) j) (elem w (s.vv o.vb) j)).2 k = true
      (holds (fCompare (ffmtEt o.et.toNat) o.cc.toNat) → s.Gives (.vfcmp h o) h two (s.putM o.md 2 v flags)) ∧
      (holds (fun a b => (condition o.cc.toNat (sx (BitVec.ofNat 32 a)) (sx (BitVec.ofNat 32 b)), 0)) → s.Gives (.vcmp h o) h two (s.putM o.md 2 v flags))) ∧
    ∀ o : VM,
      s.Gives (.mand h o) h true (s.putM o.md 2 (s.mv o.ma &&& s.mv o.mb)) ∧
      s.Gives (.mor h o) h true (s.putM o.md 2 (s.mv o.ma ||| s.mv o.mb)) ∧
      s.Gives (.mxor h o) h true (s.putM o.md 2 (s.mv o.ma ^^^ s.mv o.mb)) ∧
      s.Gives (.mandn h o) h true (s.putM o.md 2 (s.mv o.ma &&& ~~~(s.mv o.mb))) ∧
      s.Gives (.mpop h o) h true (s.putS o.rd 2 (word ((List.range 64).countP (s.mv o.ma).getLsbD)))

/-- R158 to R161, R163: moves, permutes and tile rows. The model's choices in it: log entry 62. -/
def Obligations.VectorMoves : Prop :=
  ∀ (s : State) (h : Hdr),
    (∀ o : VR,
      let w := etWidth o.et
      let n := nElem w
      let a := elem w (s.vv o.va)
      let b := elem w (s.vv o.vb)
      let on := active (s.mv o.msk) w
      let two := s.vOk o.va && s.vOk o.vb
      let some_ := fun x : Nat => some (x, (0 : Flags))
      s.GivesV (.vmerge h o) h two o.vd 2 w (fun j => some_ (if on j then a j else b j)) ∧
      s.GivesV (.vlane h o) h true o.vd 2 32 (fun j => if bit (s.mv o.msk) j then some_ j else none) ∧
      s.GivesV (.vperm h o) h (two && s.vOk o.vc) o.vd 3 w (fun j =>
        let k := elem 32 (s.vv o.vc) (govLane w j) % (2 * n)
        if on j then some_ (if k < n then a k else b (k - n)) else none) ∧
      s.GivesV (.vslide h o) h (two && s.vOk o.vc) o.vd 3 32 (fun i =>
        let k := elem 32 (s.vv o.vc) 0 % 64
        if bit (s.mv o.msk) i then some_ (if i + k < 64 then elem 32 (s.vv o.va) (i + k) else elem 32 (s.vv o.vb) (i + k - 64)) else none)) ∧
    (∀ o : VS,
      let w := etWidth o.et
      let k := o.imm.toNat % 64
      let x := elem w (s.vv o.va) k
      let illegal := slotCause 0x02 h.slot 0 0 0
      s.GivesV (.vbcast h o) h (s.sOk o.sa) o.vd 2 w (fun j => if active (s.mv o.msk) w j then some ((s.sv o.sa).toNat, 0) else none) ∧
      s.Gives (.vmovs h o) h (s.vOk o.va && decide (k < nElem w)) (s.putS o.vd 3 (if o.et = 4 then sx (BitVec.ofNat 32 x) else word x)) ∧
      s.GivesV (.vmovsIns h o) h (s.sOk o.sa && decide (k < nElem w)) o.vd 3 w (fun j => if j = k then some ((s.sv o.sa).toNat, 0) else none) ∧
      s.Traps (.vmovs h o) h (s.vOk o.va && decide (nElem w ≤ k)) illegal ∧
      s.Traps (.vmovsIns h o) h (s.sOk o.sa && decide (nElem w ≤ k)) illegal) ∧
    ∀ o : VT,
      let row := (s.sv o.sa + o.imm.signExtend 64).toNat
      let lanes := laneMask (s.mv o.msk)
      let ok := s.sOk o.sa && decide (row < 32)
      s.Gives (.vtrow h o) h (ok && s.tOk o.tt.toNat) (s.putV o.vd 3 ((s.tv o.tt.toNat).extractLsb' (2048 * row) 2048) lanes) ∧
      s.Gives (.vtwr h o) h (ok && s.vOk o.vd) [s.lands 3 (.trow o.tt.toNat row (s.vv o.vd) lanes)] ∧
      (∀ l < 64, ∀ k < 32, lanes.getLsbD (32 * l + k) = bit (s.mv o.msk) l)

/-- R81, R162: a reduction writes element 0 with the pairwise tree of its elements, a scan writes every element with the running value; lanes
that the mask excludes hold the identity. The model's choices in it: log entries 60, 61. -/
def Obligations.ReductionsAndScans : Prop :=
  ∀ (s : State) (h : Hdr) (o : VR),
    let t := ffmtEt o.et.toNat
    let m := rmode o.rm.toNat
    let fstep := fun a b : Nat => match o.mod.toNat with | 0 => t.round m (exactSum m [t.decode a, t.decode b]) | 1 => t.minmax false a b | _ => t.minmax true a b
    let fid := match o.mod.toNat with | 0 => 2 ^ (t.w - 1) | 1 => t.infCode false | _ => t.infCode true
    let s32 := fun a => sgn 32 a
    let add := fun a b : Nat => let x := s32 a + s32 b
      if o.mod = 8 then (wrap 32 (clampTo 32 x), if clampTo 32 x = x then (0 : Flags) else flagSat) else (wrap 32 x, 0)
    let istep := fun a b : Nat => match o.mod.toNat with
      | 1 => (if s32 b < s32 a then b else a, (0 : Flags)) | 2 => (if s32 a < s32 b then b else a, 0)
      | 3 => (min a b, 0) | 4 => (max a b, 0) | 5 => (a &&& b, 0) | 6 => (a ||| b, 0) | 7 => (a ^^^ b, 0) | _ => add a b
    let iid := match o.mod.toNat with | 1 => 2 ^ 31 - 1 | 2 => 2 ^ 31 | 3 => 2 ^ 32 - 1 | 5 => 2 ^ 32 - 1 | _ => 0
    let items := fun (w ident : Nat) => (List.range (nElem w)).map fun j => if active (s.mv o.msk) w j then elem w (s.vv o.va) j else ident
    -- element i of level k of the pairwise tree, and the flags that some step of it raises
    let reduce := fun (i : Instr) (w ident : Nat) (f : Nat → Nat → Nat × Flags) =>
      let level : Nat → Nat → Nat := fun k =>
        Nat.rec (fun i => (items w ident).getD i 0) (fun _ below i => (f (below (2 * i)) (below (2 * i + 1))).1) k
      let steps := if w = 64 then 5 else 6
      ∀ g : Flags, (∀ b < 6, bit g b = true ↔ ∃ k < steps, ∃ i < 2 ^ (steps - 1 - k), bit (f (level k (2 * i)) (level k (2 * i + 1))).2 b = true) →
        s.GivesV i h (s.vOk o.va) o.vd 6 w fun j => if j = 0 then some (level steps 0, g) else none
    -- element j of the scan, which begins with `first` of element 0, and the flags of every step
    let scan := fun (i : Instr) (w ident : Nat) (first : Nat → Nat × Flags) (f : Nat → Nat → Nat × Flags) =>
      let item := fun j => (items w ident).getD j 0
      let prefix_ : Nat → Nat := fun j => Nat.rec (first (item 0)).1 (fun k before => (f before (item (k + 1))).1) j
      ∀ g : Flags, (∀ b < 6, bit g b = true ↔
          bit (first (item 0)).2 b = true ∨ ∃ k < nElem w - 1, bit (f (prefix_ k) (item (k + 1))).2 b = true) →
        s.GivesV i h (s.vOk o.va) o.vd 6 w fun j => some (prefix_ j, g)
    let canonical := fun a : Nat => if (t.decode a).isNan then (t.nan, if (t.decode a).raises then flagNV else 0) else (a, (0 : Flags))
    reduce (.vfred h o) t.w fid fstep ∧ reduce (.vred h o) 32 iid istep ∧
    scan (.vfscan h o) t.w fid canonical fstep ∧ scan (.vscan h o) 32 iid (fun a => (a, 0)) istep

/-- R164 to R168: scratchpad loads read their active elements at issue and land at c+6; stores commit at c+6. An element that breaks a check
of R164 traps. The model's choices in it: log entries 63, 78. -/
def Obligations.ScratchpadAccess : Prop :=
  ∀ (s : State) (h : Hdr) (o : VS),
    let base := s.sv o.sa + o.imm.signExtend 64
    let w := etWidth o.et
    let idx := s.vv o.va
    let line := ((List.range 64).filter fun j => bit (s.mv o.msk) j).map fun j => (j, (base.toNat + 4 * j) % 2 ^ 64)
    let spread := ((List.range (nElem w)).filter (active (s.mv o.msk) w)).map fun j =>
      (j, (base.toNat + elem 32 idx (govLane w j) * 2 ^ (o.mod.toNat % 4)) % 2 ^ 64)
    let rows := fun items : List (Nat × Nat) => items.map fun e => (e.2 / 65536, e.2 % 65536 / 256)
    let load := fun (i : Instr) (ok : Bool) (w : Nat) (items : List (Nat × Nat)) =>
      ∃ r : VRes, r.Holds w (fun j => (items.find? fun e => e.1 == j).map fun e => (s.spadNum e.2 (w / 8), 0)) ∧
        s.Does i h (s.sOk o.sa && ok && s.spadOk (w / 8) items) (s.putV o.vd 6 r.val r.mask r.flags) fun b => { b with rows := rows items }
    let store := fun (i : Instr) (ok : Bool) (w : Nat) (items : List (Nat × Nat)) =>
      let cells := items.flatMap fun e => (toBytes (w / 8) (elem w (s.vv o.vd) e.1)).zipIdx.map fun b => (e.2 + b.2, b.1)
      s.Does i h (s.sOk o.sa && ok && s.vOk o.vd && s.spadOk (w / 8) items) (if items = [] then [] else [s.lands 6 (.cells cells)])
        fun b => { b with rows := rows items }
    load (.vld h o) true 32 line ∧ store (.vst h o) true 32 line ∧
    load (.vgat h o) (s.vOk o.va) w spread ∧ store (.vsca h o) (s.vOk o.va) w spread ∧
    (let mine := fun a : Nat =>
       let b := (s.atIssue.cluster (clusterOf s.cur)).bank (a / 65536)
       b.mode == .spad && b.ready && b.own == s.cur % 4 && b.ownUid == s.me.uid
     let traps := fun (i : Instr) (ok : Bool) (size : Nat) (items : List (Nat × Nat)) =>
       let fails := fun p : Nat → Bool => ∀ e, items.find? (fun e => p e.2) = some e →
         s.Traps i h (s.sOk o.sa && ok) (slotCause 0x02 h.slot 0 (word e.2) (word e.1))
       fails (fun a => decide (2 ^ 22 ≤ a)) ∧
       ((∀ e ∈ items, e.2 < 2 ^ 22) → fails (fun a => a % size != 0) ∧
         ((∀ e ∈ items, e.2 % size = 0) → fails fun a => !mine a))
     traps (.vld h o) true 4 line ∧ traps (.vst h o) (s.vOk o.vd) 4 line ∧
     traps (.vgat h o) (s.vOk o.va) (w / 8) spread ∧ traps (.vsca h o) (s.vOk o.va && s.vOk o.vd) (w / 8) spread)

/-- R164, R169, R171 to R173: scratchpad atomics, FIFO banks, the Yelm queue. A `vatom` applies its active lanes in ascending order: lane j
takes the word as the lower lanes at its address leave it, the bank takes the last value, and the words of one lock bit beyond the first
are retried. A FIFO push and pop change the bank's entries and the counts that its two sides see, the other side's 8 PCC cycles later. The
queue of the die's Yelm appends what its partition pushes, with NaNs replaced and faulty entries marked (R352). -/
def Obligations.AtomicsFifosYpush : Prop :=
  (∀ (s : State) (h : Hdr) (o : VS),
     let base := s.sv o.sa + o.imm.signExtend 64
     let k := clusterOf s.cur
     let items := ((List.range 64).filter fun j => bit (s.mv o.msk) j).map fun j => (j, (base.toNat + 4 * elem 32 (s.vv o.va) j) % 2 ^ 64)
     let lane := fun (w j : Nat) => atomRes o.mod.toNat w (elem 32 (s.vv o.vd) j)
     let word_ := fun (lanes : Nat → Bool) (a : Nat) =>
       (items.filter fun e => e.2 == a && lanes e.1).foldl (fun w e => (lane w e.1).1) (s.spadNum a 4)
     let old := fun e : Nat × Nat => word_ (fun j => decide (j < e.1)) e.2
     let bank := fun b : Nat => (s.atIssue.cluster k).bank b
     let f := base.toNat
     let named := decide (f < 2 ^ 22) && f % 65536 == 0
     let b := f / 65536
     let party := fun (core uid : Nat) => (bank b).mode == .fifo && (bank b).ready && core == s.cur % 4 && (uid == s.me.uid || uid == 0)
     let count := o.imm.toNat % 8
     let regs := s.sOk o.sa && s.vOk o.va && s.vOk o.vd
     (∃ (v : VRes) (ws : List (Nat × Nat)),
       (∀ j < 64, (∀ e, items.find? (fun e => e.1 == j) = some e → elem 32 v.val j = old e % 2 ^ 32 ∧ elem 32 v.mask j = 2 ^ 32 - 1) ∧
         (items.find? (fun e => e.1 == j) = none → elem 32 v.mask j = 0)) ∧
       (∀ n < 6, bit v.flags n = true ↔ ∃ e ∈ items, bit (lane (old e) e.1).2 n = true) ∧
       (ws.map (·.1)).Nodup ∧ (∀ a x, (a, x) ∈ ws ↔ (∃ e ∈ items, e.2 = a) ∧ x = word_ (fun _ => true) a) ∧
       s.Does (.vatom h o) h (regs && s.spadOk 4 items) (s.putV o.vd 6 v.val v.mask v.flags) fun b =>
         { b with
           extra := (((ws.map (·.1)).map (· / 65536)).eraseDups.map fun n => (n, atomCost ((ws.map (·.1)).filter fun w => w / 65536 == n))).reverse
           post := fun t => t.modCluster k fun c => { c with sram := ws.foldl (fun mem w => mem.writeBytes w.1 (toBytes 4 w.2)) c.sram } }) ∧
     (let fails := fun p : Nat → Bool => ∀ e, items.find? (fun e => p e.2) = some e →
        s.Traps (.vatom h o) h regs (slotCause 0x02 h.slot 0 (word e.2) (word e.1))
      fails (fun a => decide (2 ^ 22 ≤ a)) ∧
      ((∀ e ∈ items, e.2 < 2 ^ 22) → fails (fun a => a % 4 != 0) ∧ ((∀ e ∈ items, e.2 % 4 = 0) → fails fun a => !bankMine s.atIssue s.cur a))) ∧
     s.Does (.fpush h o) h (s.sOk o.sa && s.vOk o.vd && named && party (bank b).prod (bank b).prodUid && decide ((bank b).pcount < 256)) []
       (fun x => { x with extra := [(b, 1)], post := fun t => t.modBank k b fun q => q.push t.pcc s.me.uid (s.vv o.vd) }) ∧
     s.Traps (.fpush h o) h (s.sOk o.sa && s.vOk o.vd && named && party (bank b).prod (bank b).prodUid && decide (256 ≤ (bank b).pcount))
       (slotCause 0x07 h.slot 0 (word f) 0) ∧
     s.Traps (.fpush h o) h (s.sOk o.sa && s.vOk o.vd && !(named && party (bank b).prod (bank b).prodUid)) (slotCause 0x02 h.slot 0 (word f) 0) ∧
     s.Does (.fpop h o) h (s.sOk o.sa && named && party (bank b).cons (bank b).consUid && decide (0 < (bank b).ccount))
       (s.putV o.vd 6 ((bank b).entries.headD 0) (BitVec.allOnes 2048))
       (fun x => { x with extra := [(b, 1)], post := fun t => t.modBank k b fun q => q.pop t.pcc s.me.uid }) ∧
     s.Traps (.fpop h o) h (s.sOk o.sa && named && party (bank b).cons (bank b).consUid && (bank b).ccount == 0)
       (slotCause 0x08 h.slot 0 (word f) 0) ∧
     s.Traps (.fpop h o) h (s.sOk o.sa && !(named && party (bank b).cons (bank b).consUid)) (slotCause 0x02 h.slot 0 (word f) 0) ∧
     (let part := match s.me.inst with | some i => i.part | none => 0
      let records := (List.range count).map fun e => (s.vv o.vd).extractLsb' (512 * e) 512
      s.Does (.ypush h o) h (s.vOk o.vd && decide (count ≤ (s.atIssue.die (dieOf s.cur)).yelm.freeSeen)) []
       (fun x => { x with post := fun t => t.modYelm (dieOf s.cur) (fun y => y.append part records) })) ∧
     s.Traps (.ypush h o) h (s.vOk o.vd && decide ((s.atIssue.die (dieOf s.cur)).yelm.freeSeen < count)) (slotCause 0x07 h.slot 0 (word count) 0)) ∧
  -- the new value of each row of R169, its lock bits and its retries
  (∀ old v : BitVec 32,
     let nan := fun x : BitVec 32 => decide (0x7F800000 < x.toNat % 2 ^ 31)
     let quiet := fun x : BitVec 32 => x.getLsbD 22
     let order := fun x : BitVec 32 => if x.getLsbD 31 then -((x.toNat % 2 ^ 31 : Nat) : Int) - 1 else (x.toNat : Int)
     let gives := fun (op : Nat) (x : BitVec 32) => atomRes op old.toNat v.toNat = (x.toNat, 0)
     gives 0 (old + v) ∧ gives 1 (old &&& v) ∧ gives 2 (old ||| v) ∧ gives 3 (old ^^^ v) ∧ gives 4 (if v.slt old then v else old) ∧
     gives 5 (if old.slt v then v else old) ∧ gives 6 (if v.ult old then v else old) ∧ gives 7 (if old.ult v then v else old) ∧ gives 8 v ∧
     atomRes 9 old.toNat v.toNat = fp32.round .rne (ieeeSum .rne [fp32.decode old.toNat, fp32.decode v.toNat]) ∧
     (nan old || nan v → ∀ op, op = 10 ∨ op = 11 →
       atomRes op old.toNat v.toNat = (0x7FC00000, if (nan old && !quiet old) || (nan v && !quiet v) then flagNV else 0)) ∧
     (!(nan old || nan v) → gives 10 (if order v < order old then v else old) ∧ gives 11 (if order old < order v then v else old))) ∧
  (∀ a : Nat, lockBit a < 8 ∧ ∀ j < 3, (lockBit a).testBit j =
     ((a.testBit (2 + j) ^^ a.testBit (5 + j)) ^^ (a.testBit (8 + j) ^^ a.testBit (11 + j)) ^^ (decide (j < 2) && a.testBit (14 + j)))) ∧
  (∀ ws : List Nat, atomCost ws = ws.length + ((List.range 8).map fun n => (ws.filter fun w => lockBit w == n).length - 1).sum) ∧
  (∀ (q : Bank) (pcc uid : Nat) (v : VReg) (t : Nat),
     let p := q.push pcc uid v
     let r := q.pop pcc uid
     p.entries = q.entries ++ [v] ∧ p.pcount = q.pcount + 1 ∧ p.ccount = q.ccount ∧ p.prodUid = uid ∧ p.consUid = q.consUid ∧
     (p.arrive t).ccount = (q.arrive t).ccount + (if pcc + 8 ≤ t then 1 else 0) ∧
     r.entries = q.entries.tail ∧ r.ccount = q.ccount - 1 ∧ r.pcount = q.pcount ∧ r.consUid = uid ∧ r.prodUid = q.prodUid ∧
     (r.arrive t).pcount = (q.arrive t).pcount - (if pcc + 8 ≤ t then 1 else 0)) ∧
  (∀ (y : Yelm) (p : Nat) (es : List WindowWord),
     (y.part = some p → y.append p es = { y with queue := y.queue ++ es.map yelmStore }) ∧
     (y.part ≠ some p → y.append p es = { y with discard := y.discard + es.length })) ∧
  ∀ w : WindowWord,
    let y := yelmStore w
    let aff := fun (x : WindowWord) (i : Nat) => x.toNat / 2 ^ (64 + 32 * i) % 2 ^ 32
    let nan := fun i => decide (0x7F800000 < aff w i % 2 ^ 31)
    let n := w.toNat / 2 ^ 52 % 16
    let first := w.toNat / 2 ^ 32 % 256
    (w.getLsbD 31 = false →
      (∀ i < 14, aff y i = if nan i then 0xFF800000 else aff w i) ∧ y.toNat % 2 ^ 29 = w.toNat % 2 ^ 29 ∧
      y.toNat / 2 ^ 31 % 2 ^ 33 = w.toNat / 2 ^ 31 % 2 ^ 33 ∧ (y.getLsbD 30 = true ↔ ∃ i < 14, nan i = true) ∧
      (y.getLsbD 29 = true ↔ w.toNat / 2 ^ 56 % 256 ≠ 0 ∨ w.toNat / 2 ^ 24 % 32 ≠ 0 ∨ n = 0 ∨ 14 < n ∨ 256 < first + n ∨
        ∃ i < 14, n ≤ i ∧ aff w i ≠ 0)) ∧
    (w.getLsbD 31 = true →
      (∀ j < 512, j ≠ 29 → j ≠ 30 → y.getLsbD j = w.getLsbD j) ∧ y.getLsbD 30 = false ∧
      (y.getLsbD 29 = true ↔ ∃ j < 512, w.getLsbD j = true ∧ j ≠ 31 ∧ ¬(40 ≤ j ∧ j < 52) ∧ ¬(64 ≤ j ∧ j < 120)))

/-! ### The M, X and K slots -/

/-- R259 to R269: a matrix multiply with readable, legal operands that type, a free pipeline and a grant of its class lands the result of R265
with the derived type; a typing fault traps; without the grant the core stalls and requests it (R286). `.sat` on a float row and an
operation inside the occupancy of the last one (R263) are illegal. R77 to R79, R265: on the INT32 row an element of the result is the
accumulator plus the sum of the products along K, clamped under `.sat` and wrapped otherwise; on the FP32 row it is their exact sum
rounded once, on the FP64 row that of three beats in turn; rows and columns that the padding excludes keep the accumulator. The model's
choices in it: log entries 7, 49. -/
def Obligations.MatrixMultiply : Prop :=
  (∀ (s : State) (h : Hdr) (o : MF),
     let z := o.mod.getLsbD 0
     let sat := o.mod.getLsbD 1
     let a := s.mOpnd o.ak o.aop
     let b := s.mOpnd o.bk o.bop
     let td := o.td.toNat
     let rule := fun k : MKind => mTyping k z td a b (if z then 0 else s.tyv td)
     let judged := fun k : MKind => s.mReady o.ak o.aop && s.mReady o.bk o.bop && (z || s.tOk td) &&
       (!sat || (k != .codebook && int32Row a.ty b.ty)) && s.me.e.occ == 0 && a.legal && b.legal
     let run := fun (i : Instr) (k : MKind) =>
       (∀ r res ga gb gd d, s.types (rule k) (r, res, ga, gb, gd) d →
         let out := mResult r z sat (s.tv td) ga gb gd (s.mVals a ga s.me.e.sba s.me.e.cbt0) (s.mVals b gb s.me.e.sbb s.me.e.cbt1)
           (padOf s.me 0) (padOf s.me 3) (padOf s.me 6)
         let rows := (a.rows ga ++ b.rows gb).eraseDups
         let cls := if r.acc = 1 then 2 else 1
         let lands := [s.lands r.lat (.t td out.1 res) out.2]
         let ok := judged k && s.mLines a ga && s.mLines b gb
         s.Does i h (ok && s.me.grant.valid cls s.pcc) lands (fun x =>
           { x with dims := d, mOcc := some r.occ, grant := some cls
                    extra := ((rows.map (·.1)).eraseDups.map fun n => (n, (rows.filter fun q => q.1 == n).length)).reverse }) ∧
         (i.wf = true → s.clear = true → s.on h = true → ok = true → s.fits lands = true → s.me.grant.valid cls s.pcc = false →
           s.me.preempt = none →
           exec i s = .next ((s.atIssue.stallRequest s.cur cls).modCore s.cur fun c => (c.stallCycle .grant none s.pcc).nextPcc s.pcc))) ∧
       ∀ e, s.mistyped (rule k) e → s.Traps i h (judged k) (e.cause h.slot)
     let early := fun (i : Instr) (k : MKind) =>
       let ready := s.mReady o.ak o.aop && s.mReady o.bk o.bop && (z || s.tOk td)
       let allowed := !sat || (k != .codebook && int32Row a.ty b.ty)
       s.Traps i h (ready && !allowed) (slotCause 0x02 h.slot 0 0 0) ∧
       s.Traps i h (ready && allowed && s.me.e.occ != 0) (slotCause 0x02 h.slot 0 (word s.me.e.occ) 0)
     run (.tmma h o) .dense ∧ run (.tmmas h o) .sparse ∧ run (.tmmac h o) .codebook ∧
     early (.tmma h o) .dense ∧ early (.tmmas h o) .sparse ∧ early (.tmmac h o) .codebook ∧
     s.Does (.tzero h o) h (s.me.e.occ == 0) [s.lands 1 (.tzero td)] (fun x => { x with mOcc := some 1 }) ∧
     s.Traps (.tzero h o) h (s.me.e.occ != 0) (slotCause 0x02 h.slot 0 (word s.me.e.occ) 0)) ∧
  (∀ (r : MRow) (z sat : Bool) (c : TileData) (ga gb gd : Geo) (a b : Array (Option Machine.Num)) (pm pn pk i j : Nat),
     i < gd.r1 → j < gd.r0 → fmtBits r.acc * (gd.r1 * gd.r0) ≤ 65536 →
     let w := fmtBits r.acc
     let at_ := i * gd.r0 + j
     let old := if z then 0 else (c.extractLsb' (w * at_) w).toNat
     let padded := gd.r1 - pm ≤ i ∨ gd.r0 - pn ≤ j
     let product := fun k : Nat => match a[i * ga.r0 + k]?.getD none, b[k * gb.r0 + j]?.getD none with
       | some x, some y => [x.mul y]
       | _, _ => []
     let along := List.range (ga.r0 - pk)
     let result := ((mResult r z sat c ga gb gd a b pm pn pk).1.extractLsb' (w * at_) w).toNat
     let total := sgn 32 old + (along.map fun k => ((product k).map numInt).sum).sum
     let beat := fun (acc n : Nat) =>
       (fp64.round .rne (exactSum .rne (fp64.decode acc :: (along.filter fun k => k / 2 == n).flatMap product))).1
     (r.acc = 8 → result = if padded then old else wrap 32 (if sat then clampTo 32 total else total)) ∧
     (r.acc = 2 → result = if padded then old else (fp32.round .rne (exactSum .rne (fp32.decode old :: along.flatMap product))).1) ∧
     (r.acc = 1 → result = if padded then old else beat (beat (beat old 0) 1) 2)) ∧
  -- `exact_sum` of R79
  (∀ (m : RMode) (terms : List Machine.Num),
     let sum := exactSum m terms
     let pos := terms.any (· == .inf false)
     let neg := terms.any (· == .inf true)
     let bad := terms.any Num.isNan || (pos && neg)
     (bad → sum = .nan (terms.any Num.raises || (pos && neg))) ∧
     (bad = false → pos → sum = .inf false) ∧ (bad = false → neg → sum = .inf true) ∧
     (bad = false → pos = false → neg = false → ∀ g : Int, (∀ t ∈ terms, ∀ s n e, t = .fin s n e → g ≤ e) →
       let value : Int := (terms.map fun t => match t with | .fin s n e => (if s then -1 else 1) * (n * 2 ^ (e - g).toNat : Int) | _ => 0).sum
       (value = 0 → sum = .fin ((terms.all fun t => t.isZero && t.neg?) || (m == .rdn && terms.any fun t => !t.isZero)) 0 0) ∧
       (value ≠ 0 → ∃ n e, sum = .fin (decide (value < 0)) n e ∧ g ≤ e ∧ (n * 2 ^ (e - g).toNat : Int) = value.natAbs)))

/-- R271, R276, R277, R279: transposition (type only, or by the engine), expansion, reshaping, casting and moves of a tile. R48: in row-major
storage the element of row-major index i is the w bits at w i, for every format but the codebook and every tile that fits. The model's
choices in it: log entries 8, 56. -/
def Obligations.TileTransforms : Prop :=
  (∀ (s : State) (h : Hdr) (o : XF),
     let ty := s.tyv o.ta.toNat
     let data := s.tv o.ta.toNat
     let td := o.td.toNat
     let p := s.xp o
     let src := s.tOk o.ta.toNat
     let par := src && s.xpOk o && o.td == o.ta
     let typeOnly := fun (i : Instr) (ok : Bool) (d : Dims) (new : TypeWord) =>
       s.Does i h ok [s.lands 0 (.ty td new)] fun b => { b with dims := d }
     let pose := fun new : TypeWord => do
       let g ← xSource o.ta.toNat ty
       needCond (decide (1 ≤ tyRank ty)) (tileOpnd 0 o.ta.toNat) 4 (tyRank ty)
       let gn ← checkResult td new
       pure (g, gn)
     let flat := decide (o.td = o.ta ∧ tyLayout ty ≤ 1 ∧ tyDens ty = 0)
     let swapped := swapExts ty
     (∀ g gn d, s.types (pose (setLayout swapped (1 - tyLayout ty))) (g, gn) d →
       typeOnly (.xpose h o) (src && flat) d (setLayout swapped (1 - tyLayout ty))) ∧
     (∀ g gn d, s.types (pose swapped) (g, gn) d →
       let ok := src && !flat && tySgeo ty == 0 && tyDens ty == 0
       let codes := g.codes data
       let from_ := (List.range g.count).map (poseIndex g)
       let res := gn.build (from_.map fun i => codes.toArray[i]?.getD none).toArray
       let ranks := (escRanks (escCode g.fmt) codes 0).toArray
       let outs := poseOutliers (tyOcnt ty) data (from_.zipIdx.filterMap fun q => (ranks[q.1]?.getD none).map fun r => (q.2, r))
       (tyFmt ty = 12 → s.givesTile (.xpose h o) h ok d 6 o.td
         (Config.codebookTranspose data ty &&& BitVec.ofNat 65536 (2 ^ (8 * gn.storage) - 1)) swapped) ∧
       (tyFmt ty ≠ 12 → tyEsc ty = false → s.givesTile (.xpose h o) h ok d 6 o.td res swapped) ∧
       (tyFmt ty ≠ 12 → tyEsc ty = true → outs.length ≤ 64 → s.givesTile (.xpose h o) h ok d 6 o.td
         (res ||| outs.zipIdx.foldl (fun acc q => acc ||| entryBits q.2 q.1) 0) (setOcnt swapped outs.length)) ∧
       (tyFmt ty ≠ 12 → tyEsc ty = true → 64 < outs.length → s.Traps (.xpose h o) h ok (slotCause 0x0A h.slot 0 (word outs.length) 0))) ∧
     (∀ g gn d, let dense := putBits ty 86 19 0
       s.types (do let g ← xSource o.ta.toNat ty
                   let gn ← checkDerived (tileOpnd 3 td) dense
                   pure (g, gn)) (g, gn) d →
       s.givesTile (.xexp h o) h src d 6 o.td
         (gn.build ((g.codes data).map fun c => some (c.getD 0)).toArray ||| copyIdx g gn data ||| copyTail data (tyOcnt ty)) dense) ∧
     (∀ new d, s.types (xreshTyping td p ty) new d → typeOnly (.xresh h o) par d new) ∧
     (∀ new d, s.types (xcastTyping td p ty) new d →
       typeOnly (.xcast h o) (par && decide (p.toNat < 32) && decide (1 ≤ p.toNat % 32) && decide (p.toNat % 32 ≤ 12)) d new) ∧
     s.Gives (.xmov h o) h src [s.lands 6 (.t td data ty)]) ∧
  (∀ (g : Geo) (codes : List Nat), g.layout = 0 → g.dens = 0 → g.fmt ≠ 12 → 0 < g.r0 →
     (∀ c ∈ codes, c < 2 ^ fmtBits g.fmt) → codes.length = g.count → g.count * fmtBits g.fmt ≤ 65536 →
     let data := g.build (codes.map some).toArray
     (∀ i < g.count, (data.extractLsb' (i * fmtBits g.fmt) (fmtBits g.fmt)).toNat = codes.getD i 0) ∧
     (∀ k, g.count * fmtBits g.fmt ≤ k → data.getLsbD k = false) ∧
     g.codes data = codes.map some) ∧
  -- the element in row j and column i of the result is the one in row i and column j of the source
  (∀ (g : Geo) (o i j : Nat), i < g.r1 → j < g.r0 → poseIndex g (o * (g.r0 * g.r1) + j * g.r1 + i) = o * (g.r0 * g.r1) + i * g.r0 + j) ∧
  -- entry k of the result's outliers: the position of its k-th escape with the value of that escape's entry in the source
  (∀ (ocnt : Nat) (data : TileData) (pairs : List (Nat × Nat)) (k : Nat), k < (poseOutliers ocnt data pairs).length →
     let entry := fun n : Nat => data.extractLsb' (8 * (8184 - 8 * n)) 64
     ∀ e, (poseOutliers ocnt data pairs)[k]? = some e →
       (∀ j n, pairs[k]? = some (j, n) → e.extractLsb' 0 16 = BitVec.ofNat 16 j ∧ e.extractLsb' 16 16 = 0 ∧
         e.extractLsb' 32 32 = if n < ocnt then (entry n).extractLsb' 32 32 else 0) ∧
       (pairs[k]? = none → e = entry k)) ∧
  (∀ (k : Nat) (e : BitVec 64), k < 64 → ∀ b < 65536,
     (entryBits k e).getLsbD b = (decide (8 * (8184 - 8 * k) ≤ b) && e.getLsbD (b - 8 * (8184 - 8 * k))))

/-- R273, R275, R278: conversion and quantisation of a tile, and the sum of two. R275: which elements are elected, the scale of a block, and
what a quantised tile is made of. R69, R273, R278: the code of a value, and of a sum. -/
def Obligations.TileArithmetic : Prop :=
  (∀ (s : State) (h : Hdr) (o : XF),
    let ty := s.tyv o.ta.toNat
    let data := s.tv o.ta.toNat
    let td := o.td.toNat
    let p := s.xp o
    let src := s.tOk o.ta.toNat
    let join := fun l : List Flags => l.foldl (fun a b => a ||| b) 0
    (∀ g gn new d, s.types (xcvtTyping o.ta.toNat td p ty) (g, gn, new) d →
      let vals := s.tileVals (if p.getLsbD 13 then { g with sgeo := 0 } else g) data
      let codes := vals.map fun v => v.map (toCode gn.fmt gn.esc (rmode (p.toNat / 256 % 4)))
      s.givesTile (.xcvt h o) h (src && s.xpOk o && xcvtOk p) d 6 o.td
        (gn.build (codes.map fun c => c.map (·.1)).toArray ||| copyIdx g gn data) new (join (codes.filterMap fun c => c.map (·.2)))) ∧
    (∀ g gn new d, s.types (xquantTyping o.ta.toNat td p ty) (g, gn, new) d →
      let vals := (s.tileVals g data).zipIdx.filterMap fun v => v.1.map fun n => (v.2, n)
      let cand := candidates gn p vals
      let ok := src && s.xpOk o && xquantOk p
      let res := quantise gn p { base := s.me.e.sba, st := s.me.e.st } vals
      (cand.length ≤ 64 →
        s.givesTile (.xquant h o) h ok d 10 o.td (res cand).1 (setOcnt new cand.length) (res cand).2 ∧
        s.givesTile (.xquantSat h o) h ok d 10 o.td (res cand).1 (setOcnt new cand.length) (res cand).2) ∧
      (64 < cand.length →
        s.Traps (.xquant h o) h ok (slotCause 0x0A h.slot 0 (word cand.length) 0) ∧
        s.givesTile (.xquantSat h o) h ok d 10 o.td (res (topMag 64 cand)).1 (setOcnt new (topMag 64 cand).length)
          (res (topMag 64 cand)).2 true)) ∧
    ∀ g d, s.types (xaddTyping o.ta.toNat td ty (s.tyv td)) g d →
      let codes := ((g.codes data).zip (g.codes (s.tv td))).map fun q => addCode g.fmt (q.1.getD 0) (q.2.getD 0)
      s.givesTile (.xadd h o) h (src && s.tOk td) d 6 o.td (g.build (codes.map fun c => some c.1).toArray) ty (join (codes.map (·.2)))) ∧
  (∀ (gn : Geo) (p : Word) (vals : List (Nat × Machine.Num)), (vals.map (·.1)).Nodup → ∀ v ∈ vals,
    let elected := v ∈ candidates gn p vals
    (v.2.isNan = true → ¬elected) ∧ (fld p 11 10 = 0 → ¬elected) ∧
    (v.2.isNan = false → fld p 11 10 = 1 → (elected ↔ magLt (fp32.decode (fld p 63 32)) v.2 = true)) ∧
    (v.2.isNan = false → fld p 11 10 = 2 → gn.blockOf v.1 < gn.blocks →
      (elected ↔ (vals.filter fun u => !u.2.isNan && gn.blockOf u.1 == gn.blockOf v.1 &&
        (magLt v.2 u.2 || (!magLt u.2 v.2 && decide (u.1 < v.1)))).length < fld p 63 32))) ∧
  (∀ (n : Nat) (l : List (Nat × Machine.Num)), (l.map (·.1)).Nodup → (∀ v ∈ l, v.2.isNan = false) →
    (topMag n l).length = min n l.length ∧
    ∀ v, v ∈ topMag n l ↔ v ∈ l ∧ (l.filter fun u => magLt v.2 u.2 || (!magLt u.2 v.2 && decide (u.1 < v.1))).length < n) ∧
  (∀ (z : Scales) (fmt : Nat) (amax : Machine.Num), amax.isNan = false → (∀ i < 16, (z.get i).isNan = false) →
    let k := scaleIndex z fmt amax
    let reaches := fun i : Nat => magLt ((z.get i).mul (Num.ofInt (fmaxOf fmt))) amax = false
    k < 16 ∧
    ((∃ i < 16, reaches i) → reaches k ∧ ∀ i < 16, reaches i → magLt (z.get i) (z.get k) = false ∧ (i < k → magLt (z.get k) (z.get i) = true)) ∧
    ((∀ i < 16, ¬reaches i) → ∀ i < 16, magLt (z.get k) (z.get i) = false ∧ (i < k → magLt (z.get i) (z.get k) = true))) ∧
  (∀ (gn : Geo) (p : Word) (z : Scales) (vals cand : List (Nat × Machine.Num)) (amax : Nat → Machine.Num),
    let isCand := fun i : Nat => cand.any fun c => c.1 == i
    let plain := fun b : Nat => vals.filter fun v => gn.blockOf v.1 == b && !v.2.isNan && !isCand v.1
    (∀ v ∈ vals, gn.blockOf v.1 < gn.blocks) →
    (∀ b < gn.blocks, amax b = (plain b).foldl (fun a v => if magLt a v.2 then v.2.abs else a) (.fin false 0 0)) →
    let idx := fun b : Nat => scaleIndex z gn.fmt (amax b)
    let code := fun v : Nat × Machine.Num =>
      if isCand v.1 then (escCode gn.fmt, (0 : Flags)) else toCode gn.fmt gn.esc (rmode (fld p 9 8)) (v.2.div (z.get (idx (gn.blockOf v.1)))).1
    let outs := vals.filter fun v => isCand v.1
    let res := quantise gn p z vals cand
    (∀ b < gn.blocks, ∀ v ∈ plain b, magLt (amax b) v.2 = false) ∧
    (∀ b < gn.blocks, (∃ v ∈ plain b, amax b = v.2.abs) ∨ amax b = .fin false 0 0) ∧
    (∀ b < 65536, res.1.getLsbD b =
      ((gn.build (vals.map fun v => some (code v).1).toArray).getLsbD b ||
       ((List.range gn.blocks).any fun k => (idx k <<< (8 * gn.idxOff + 4 * k)).testBit b) ||
       (outs.zipIdx.any fun q => (entryBits q.2 (((BitVec.ofNat 32 (fp32.round .rne q.1.2).1 : BitVec 32) ++ (0 : BitVec 16)) ++
          BitVec.ofNat 16 q.1.1)).getLsbD b))) ∧
    ∀ b < 6, bit res.2 b = ((vals.any fun v => bit (code v).2 b) || outs.any fun v => bit (fp32.round .rne v.2).2 b)) ∧
  (∀ (fmt : Nat) (esc : Bool) (m : RMode) (x : Machine.Num),
    (∀ f, ffmtOf fmt = some f →
      let r := f.round m x
      toCode fmt esc m x = if esc = true ∧ r.1 = escCode fmt then (if fmt = 7 then 0 else f.nan, r.2) else r) ∧
    (ffmtOf fmt = none →
      let w := fmtBits fmt
      let r := x.toInt w m
      (toCode fmt esc m x).1 = wrap w (if esc = true ∧ r.1 = -2 ^ (w - 1) then r.1 + 1 else r.1))) ∧
  (∀ a b : Nat, addCode 8 a b = (wrap 32 (sgn 32 a + sgn 32 b), 0) ∧
    ∀ fmt f, ffmtOf fmt = some f → addCode fmt a b = f.round .rne (exactSum .rne [f.decode a, f.decode b]))

/-- R280, R281, R326: `xch` in a paired launch supplies its half. Where the partner's half is there and agrees, the two are exchanged: the
partner's tile and type land 40 issue cycles later, and the halves leave the link once both bundles have met. Where they do not agree it
traps with the shape fault. Without the partner's half the core stalls, and supplies its half once; a core that is asked to save withdraws
it. A partner that left or took a hard fault before it supplied the half is a partner fault. Outside a paired launch `xch` is illegal. The
model's choices in it: log entry 55. -/
def Obligations.PairExchange : Prop :=
  ∀ (s : State) (h : Hdr) (o : XF) (own : TypeWord) (x : Inst), s.me.inst = some x →
    let c := s.me
    let u := s.atIssue
    let k := c.e.xnum
    let ta := o.ta.toNat
    let mine : XchHalf := { graph := x.graph, node := x.node, idx := x.idx, num := k, data := s.tv ta, ty := own, taken := false }
    let of := fun (g : XchHalf) (idx : Nat) => g.graph == x.graph && g.node == x.node && g.idx == idx && g.num == k
    let other := if x.idx % 2 = 0 then x.idx + 1 else x.idx - 1
    let supplied := if s.link.any (fun g => of g x.idx) then s.link else s.link ++ [mine]
    let met := fun l : List XchHalf =>
      if l.any fun g => of g x.idx && g.taken then l.filter fun g => !(of g x.idx || of g other)
      else l.map fun g => if of g other then { g with taken := true } else g
    let theirs := s.link.find? fun g => of g other && !g.taken
    let land : Flight := { s.lands 40 (.t o.td.toNat 0 0) with xch := true }
    let ready := (Instr.xch h o).wf = true ∧ s.clear = true ∧ s.on h = true ∧ s.tOk ta = true
    (x.lh.pairLevel = none → s.Traps (.xch h o) h (s.tOk ta) (slotCause 0x02 h.slot 0 0 0)) ∧
    (∀ e, x.lh.pairLevel.isSome = true → constExts c.r.d (s.tyv ta) = .error e →
      s.Traps (.xch h o) h (s.tOk ta) (slotCause 0x03 h.slot (typeSynd (tileOpnd 0 ta) e.1 2) e.2.1 e.2.2)) ∧
    (ready → x.lh.pairLevel.isSome = true → constExts c.r.d (s.tyv ta) = .ok own → s.fits [land] = true →
      (u.partnerLost s.cur k = true →
        exec (.xch h o) s = .next (s.trapped (slotCause 0x0F h.slot 0 (word k) (u.partnerCause s.cur)))) ∧
      (u.partnerLost s.cur k = false →
        (∀ g, theirs = some g → pairTypes c.r.d ta o.td.toNat own g.ty = .ok () →
          ∃ t, exec (.xch h o) s = .next t ∧ (t.core s.cur).flight = c.flight ++ [{ land with land := .t o.td.toNat g.data g.ty }] ∧
            (t.core s.cur).e.xnum = k + 1 ∧ (t.core s.cur).cycle = c.cycle + 1 ∧ (t.core s.cur).r.t = c.r.t ∧ t.link = met supplied ∧
            t.mem = s.mem ∧ ∀ j, j ≠ s.cur → t.core j = s.core j) ∧
        (∀ g e, theirs = some g → pairTypes c.r.d ta o.td.toNat own g.ty = .error e →
          exec (.xch h o) s = .next ({ u with link := met supplied }.takeTrap s.cur (slotCause e.code .X e.synd0 e.synd1 e.synd2))) ∧
        (theirs = none → c.preempt = none →
          exec (.xch h o) s = .next ({ u with link := supplied }.modCore s.cur fun c => (c.stallCycle .pair none s.pcc).nextPcc s.pcc)) ∧
        (theirs = none → ∀ r, c.preempt = some r → ∃ t, exec (.xch h o) s = .next t ∧ (t.core s.cur).phase = .saving ∧
          t.link = supplied.filter fun g => !(of g x.idx && !g.taken))))

/-- R283 to R285, R287: the scale set, the codebook tables, grant requests, PADSEL. R177 to R179: a request for a bank's mode is noted at
retire, where the checks of R178 hold, and takes effect with the next PCC cycle; the change of mode leaves the bank empty and not READY,
and its completion makes it READY with its SRAM clear. The model's choices in it: log entry 64. -/
def Obligations.EngineStateBankModes : Prop :=
  (∀ (s : State) (h : Hdr) (o : KF),
     let k := o.ks.toNat
     let ks : BitVec 6 := o.ks.setWidth 6
     let a := s.sv ks
     let b := s.sv (BitVec.ofNat 6 (k + 1))
     let ok := s.sOk ks
     let two := ok && s.sOk (BitVec.ofNat 6 (k + 1))
     let tgt := a.toNat / 16 % 4
     let idx := a.toNat % 16
     let form := fld a 31 6 == 0 && tgt != 3 && (tgt == 0 || idx == 0) && (tgt != 0 || fld a 63 48 == 0)
     -- sign 0 and an exponent that is neither 0 nor all ones
     let normal := if tgt = 0 then !bit a 47 && fld a 46 39 != 0 && fld a 46 39 != 255 else !bit a 63 && fld a 62 55 != 0 && fld a 62 55 != 255
     let engine := fun f : Engine → Engine => s.onCore fun c => { c with e := f c.e }
     let illegal := fun w : Word => slotCause 0x02 h.slot 0 w 0
     s.Does (.kscl h o) h (ok && form && normal) [] (engine fun e =>
       match tgt with
       | 0 => { e with st := vset e.st idx (a.extractLsb' 32 16) }
       | 1 => { e with sba := a.extractLsb' 32 32 }
       | _ => { e with sbb := a.extractLsb' 32 32 }) ∧
     s.Traps (.kscl h o) h (ok && !form) (illegal 0) ∧
     s.Traps (.kscl h o) h (ok && form && !normal) (slotCause 0x0B h.slot 0 a 0) ∧
     (let legal := k % 2 == 0 && fld b 63 9 == 0 && fld b 1 0 == 0
      let row := b.toNat % 256
      s.Does (.kcode h o) h (two && legal) [] (engine fun e =>
        let put := fun t : Vector (BitVec 16) 256 => Vector.ofFn fun n : Fin 256 =>
          if row ≤ n.val ∧ n.val < row + 4 then a.extractLsb' (16 * (n.val - row)) 16 else t[n]
        if b.getLsbD 8 then { e with cbt1 := put e.cbt1 } else { e with cbt0 := put e.cbt0 }) ∧
      s.Traps (.kcode h o) h (two && !legal) (illegal b)) ∧
     (let log := a.toNat / 16 % 32
      let legal := fld a 63 9 == 0 && fld a 3 2 == 0 && decide (8 ≤ log) && decide (log ≤ 24) && a.toNat % 4 != 3
      s.Does (.kgrant h o) h (ok && legal) [] (fun b => { b with post := fun t => t.requestGrant s.cur (a.toNat % 4) log }) ∧
      s.Traps (.kgrant h o) h (ok && !legal) (illegal 0)) ∧
     (let legal := fld a 63 9 == 0 && decide (fld a 8 6 ≤ 4) && decide (fld a 5 3 ≤ 4) && decide (fld a 2 0 ≤ 4)
      s.Does (.kpad h o) h (ok && legal) [] (engine fun e => { e with padsel := a }) ∧
      s.Traps (.kpad h o) h (ok && !legal) (illegal 0))) ∧
  -- a grant request is pending from its retire, at the tail of the die's queue, in place of one that was pending
  (∀ (t : State) (i cls log : Nat), i < 256 →
     let u := t.requestGrant i cls log
     u.core i = { t.core i with grant := { (t.core i).grant with pend := some (cls, log) } } ∧
     u.die (i / 64) = { t.die (i / 64) with queue := (t.die (i / 64)).queue.filter (fun q => q.core != i) ++ [{ core := i, pcc := t.pcc }] } ∧
     (∀ j, j ≠ i → u.core j = t.core j) ∧ (∀ j, j ≠ i / 64 → u.die j = t.die j) ∧ u = { t with cores := u.cores, dies := u.dies }) ∧
  ((∀ (s : State) (h : Hdr) (o : KF),
     let a := s.sv (o.ks.setWidth 6)
     let ok := s.sOk (o.ks.setWidth 6)
     let k := clusterOf s.cur
     let n := a.toNat % 64
     let peer := a.toNat / 2 ^ 14 % 4
     let m : BankMode := match a.toNat / 64 % 4 with | 0 => .cache | 1 => .spad | _ => .fifo
     s.Does (.kmode h o) h (ok && kmodeOk s.atIssue s.cur a) [] (fun b => { b with post := fun t =>
       { t with kmodes := t.kmodes ++
           [{ cluster := k, bank := n, mode := m, core := s.cur % 4, uid := (t.core s.cur).uid, peer := peer
              peerUid := (t.core (4 * k + peer)).uid, cons := a.getLsbD 13 }] } }) ∧
     s.Traps (.kmode h o) h (ok && !kmodeOk s.atIssue s.cur a) (slotCause 0x02 h.slot 0 a 0)) ∧
   (∀ (t : State) (r : BankReq), r.cluster < 64 → r.bank < 64 →
     let b := (t.cluster r.cluster).bank r.bank
     let u := t.commitBank r
     let b' := (u.cluster r.cluster).bank r.bank
     (t.kmodes = [r] → t.tick = { u with kmodes := [], pcc := t.pcc + 1 }) ∧
     (b.mode = r.mode → u = t) ∧
     (b.mode ≠ r.mode → t.departed r.uid = false → (r.peerUid = 0 ∨ t.departed r.peerUid = false) →
       b'.mode = r.mode ∧ b'.ready = false ∧ b'.entries = [] ∧ b'.pcount = 0 ∧ b'.ccount = 0 ∧ b'.since = t.pcc ∧
       (r.mode = .spad → b'.own = r.core ∧ b'.ownUid = r.uid) ∧
       (r.mode = .fifo → r.cons = false → b'.prod = r.core ∧ b'.cons = r.peer) ∧
       (r.mode = .fifo → r.cons = true → b'.prod = r.peer ∧ b'.cons = r.core) ∧
       (∀ n, n ≠ r.bank → (u.cluster r.cluster).bank n = (t.cluster r.cluster).bank n) ∧
       ∀ j, j ≠ r.cluster → (u.cluster j).banks = (t.cluster j).banks)) ∧
   ∀ (s : State) (k b : Nat), s.powered = true → k < 64 → b < 64 → ((s.cluster k).bank b).ready = false →
     ∃ t, exec (.bankModeReady k b) s = .next t ∧
       ((t.cluster k).bank b).ready = true ∧ ((t.cluster k).bank b).mode = ((s.cluster k).bank b).mode ∧
       (∀ c, c ≠ b → c < 64 → (t.cluster k).bank c = (s.cluster k).bank c) ∧
       (∀ a, a / 65536 = b → (t.cluster k).sram.get a = 0) ∧
       (∀ a, a / 65536 ≠ b → (t.cluster k).sram.get a = (s.cluster k).sram.get a) ∧
       (∀ j, j ≠ k → t.cluster j = s.cluster j) ∧ t.cores = s.cores ∧ t.mem = s.mem)

/-! ### The C slots: memory and synchronisation -/

/-- R28, R211 to R218: loads, stores and atomics as they issue. The access is translated, its counter rises, a load's destination becomes
pending, and the access is outstanding from the retire on; a misaligned vector or atomic access and a counter above 63 trap. R198: what is
outstanding once a load or a store of local bytes has started. R192, R193, R212, R309: a page without translation holds the bundle for its
walk, and a page that may not be accessed is a precise page fault at the lowest VA. The model's choices in it: log entries 19, 20, 51, 63. -/
def Obligations.LoadsStoresAtomics : Prop :=
  (∀ (s : State) (h : Hdr),
     let code := h.slot.code
     let toList := fun (file : Nat) (r : Option Nat) => (r.map fun n => (file, n)).toList
     let free := fun (file : Nat) (r : Option Nat) => match r with | some n => s.pendable (file, n) | none => true
     let full := fun which count : Nat => slotCause 0x09 h.slot (word which) (word count) 0
     let judged := fun (i : Instr) (ok : Bool) (a : Access) (va n : Nat) =>
       (∀ pages, s.misses a [(va, n)] pages → s.HoldsWalks i h ok pages) ∧
       ∀ at_ f, s.pageFault a [(va, n)] at_ f → s.Traps i h ok (pageCause h.slot a at_ f)
     let start := fun (i : Instr) (ok : Bool) (a : Access) (va n file : Nat) (dest : Option Nat) (kind : LoadKind) =>
       judged i ok a va n ∧ ∀ sp, s.reaches a [(va, n)] sp →
         s.Does i h (ok && decide (s.counts.l < 63) && free file dest) [] (fun b =>
           { b with rl := 1, pends := toList file dest, post := fun t => t.startLoad s.cur code va n kind sp }) ∧
         s.Traps i h (ok && decide (63 ≤ s.counts.l)) (full 0 s.counts.l)
     let store := fun (i : Instr) (ok : Bool) (va : Nat) (bytes : List Byte) =>
       judged i ok .write va bytes.length ∧ ∀ sp, s.reaches .write [(va, bytes.length)] sp →
         s.Does i h (ok && decide (s.counts.s < 63)) [] (fun b => { b with rs := 1, post := fun t => t.startStore s.cur code va bytes sp }) ∧
         s.Traps i h (ok && decide (63 ≤ s.counts.s)) (full 1 s.counts.s)
     let illegal := fun va : Nat => slotCause 0x02 h.slot 0 (word va) 0
     (∀ o : CI,
       let va := (s.sv o.rb + o.imm.signExtend 64).toNat
       let rb := s.sOk o.rb
       let both := rb && s.sOk o.rd
       let d := s.sDest o.rd
       let v := s.sv o.rd
       start (.ld h o) rb .read va 8 0 d (.scalar d) ∧ start (.ldW h o) rb .read va 4 0 d (.scalar d) ∧
       start (.ldH h o) rb .read va 2 0 d (.scalar d) ∧ start (.ldB h o) rb .read va 1 0 d (.scalar d) ∧
       store (.st h o) both va (toBytes 8 v.toNat) ∧ store (.stW h o) both va (toBytes 4 v.toNat) ∧
       store (.stH h o) both va (toBytes 2 v.toNat) ∧ store (.stB h o) both va (toBytes 1 v.toNat) ∧
       start (.vldm h o) (rb && va % 4 == 0) .read va 256 1 (s.vDest o.rd) (.vector (s.vDest o.rd)) ∧
       store (.vstm h o) (rb && s.vOk o.rd && va % 4 == 0) va (toBytes 256 (s.vv o.rd).toNat) ∧
       s.Traps (.vldm h o) h (rb && va % 4 != 0) (illegal va) ∧
       s.Traps (.vstm h o) h (rb && s.vOk o.rd && va % 4 != 0) (illegal va)) ∧
     ∀ o : CA,
       let va := (s.sv o.rb).toNat
       let n := if o.size = 0 then 4 else 8
       let two := s.sOk o.rb && s.sOk o.rc
       let three := two && s.sOk o.rd
       let d := s.sDest o.rd
       let trim := fun x : Word => word (x.toNat % 2 ^ (8 * n))
       start (.amo h o) (two && va % n == 0) .atomic va n 0 d (.amo d o.aop.toNat (trim (s.sv o.rc))) ∧
       start (.cas h o) (three && va % n == 0) .atomic va n 0 d (.cas d (trim (s.sv o.rd)) (trim (s.sv o.rc))) ∧
       s.Traps (.amo h o) h (two && va % n != 0) (illegal va) ∧
       s.Traps (.cas h o) h (three && va % n != 0) (illegal va)) ∧
  ∀ (t : State) (i slot va n : Nat) (kind : LoadKind) (bytes : List Byte) (sp : Span), i < 256 →
    let m := (t.core i).mem
    let region := (t.core i).regionOf
    let unit := match kind with | .vector _ => 4 | _ => if va % n = 0 then n else 1
    (kind.atomic = false → kind ≠ .poll → sp.remote = false → (∀ l ∈ m.loads, l.asked = true) → (∀ l ∈ m.tlds, l.asked = true) →
      let l : LoadOp := { id := t.serial, slot := slot, va := va, n := n, kind := kind, span := sp, fwd := m.forward unit sp
                          obj := region va, asked := true, keep := true }
      let u := t.startLoad i slot va n kind sp
      (u.core i).mem = { m with loads := m.loads ++ [l] } ∧ u.serial = t.serial + 1 ∧ u.mem = t.mem ∧
      ∀ j, j ≠ i → u.core j = t.core j) ∧
    (let u := t.startStore i slot va bytes sp
     (u.core i).mem.stores.map (·.id) = m.stores.map (·.id) ++ [t.serial] ∧
      (∃ st, (u.core i).mem = { m with stores := m.stores ++ [st] } ∧ st.va = va ∧ st.epoch = m.epoch ∧
        st.bytes.map (fun d => (d.key, d.val, d.mask)) =
          (List.range bytes.length).map (fun k => (sp.key ((va + k) % 2 ^ 64), bytes.getD k 0, (0xFF : Byte))) ∧
        st.bytes.map (·.obj) = bytes.map fun _ => region va) ∧
      u.serial = t.serial + 1 ∧ u.mem = t.mem ∧ ∀ j, j ≠ i → u.core j = t.core j)

/-- R219, R223, R225: tile loads and stores as they issue. Both read their registers, check the window (R219 checks 1 and 2), type their box
against the tile (R51, R56, R60), translate its bytes, and are outstanding from the retire on, with T raised; a tile load makes its tile
pending. What each check finds traps, a page without translation holds the bundle for its walk (R192, R193), and T above 63 traps (R28).
The model's choices in it: log entries 16, 20, 79. -/
def Obligations.TileLoadsAndStores : Prop :=
  (∀ (s : State) (h : Hdr) (o : CW),
     let a := s.sv o.rx
     let b := if o.ry = 0 then 0 else s.sv o.ry
     let org := [a.toNat % 2 ^ 32, a.toNat / 2 ^ 32, b.toNat % 2 ^ 32, b.toNat / 2 ^ 32]
     let win := o.win.toNat
     let w := s.windowOf win
     let t := o.tt.toNat
     let chk := o.mod.getLsbD 0
     let regs := s.sOk o.rx && (o.ry == 0 || s.sOk o.ry)
     let judged := fun (i : Instr) (ok : Bool) (rule : TyM (TypeWord × List Nat)) (acc : Access)
         (started : TypeWord → List Nat → Span → State → State) (free : Bool) (pends : List (Nat × Nat)) =>
       s.Traps i h (ok && !winValid w) (slotCause 0x02 h.slot 0 0 0) ∧
       (∀ k, windowCheck w org = some k → s.Traps i h (ok && winValid w) (slotCause 0x02 h.slot 0 (word win) (word k))) ∧
       (∀ e, s.mistyped rule e → s.Traps i h (ok && s.windowOk win org) (e.cause h.slot)) ∧
       ∀ box ext d, s.types rule (box, ext) d →
         (∀ pages, s.misses acc (boxRanges w box ext org) pages → s.HoldsWalks i h (ok && s.windowOk win org) pages) ∧
         (∀ at_ f, s.pageFault acc (boxRanges w box ext org) at_ f → s.Traps i h (ok && s.windowOk win org) (pageCause h.slot acc at_ f)) ∧
         ∀ sp, s.reaches acc (boxRanges w box ext org) sp →
           s.Does i h (ok && s.windowOk win org && decide (s.counts.t < 63) && free) []
             (fun x => { x with dims := d, rt := 1, pends := pends, post := started box ext sp }) ∧
           s.Traps i h (ok && s.windowOk win org && decide (63 ≤ s.counts.t)) (slotCause 0x09 h.slot (word 3) (word s.counts.t) 0)
     judged (.tld h o) (regs && (!chk || s.tOk t)) (boxTyping w win org (if chk then some (tileOpnd 3 t, s.tyv t) else none) (some t)) .read
       (fun box ext sp u => u.startTld s.cur
         { id := u.serial, slot := h.slot.code, tile := t, win := win, desc := w, box := box, ext := ext, org := org, span := sp
           fwd := (u.core s.cur).mem.forward 4 sp, asked := !sp.remote, keep := true })
       (s.pendable (2, t)) [(2, t)] ∧
     judged (.tst h o) (regs && s.tOk t) (boxTyping w win org (some (tileOpnd 1 t, s.tyv t)) none) .write
       (fun box ext sp u => u.startTst s.cur
         { id := u.serial, slot := h.slot.code, tile := t, win := win, desc := w, box := box, ext := ext, org := org, span := sp
           data := s.tv t, ocnt := tyOcnt (s.tyv t), epoch := (u.core s.cur).mem.epoch })
       true []) ∧
  -- what is outstanding once a tile load of local bytes or a tile store has started
  ∀ (t : State) (i : Nat), i < 256 →
    let m := (t.core i).mem
    let still := fun u : State => u.serial = t.serial + 1 ∧ u.mem = t.mem ∧ (u.core i).r = (t.core i).r ∧ ∀ j, j ≠ i → u.core j = t.core j
    (∀ l : TldOp, l.asked = true → (∀ x ∈ m.loads, x.asked = true) → (∀ x ∈ m.tlds, x.asked = true) →
      ((t.startTld i l).core i).mem = { m with tlds := m.tlds ++ [l] } ∧ still (t.startTld i l)) ∧
    ∀ l : TstOp, ((t.startTst i l).core i).mem = { m with tsts := m.tsts ++ [l] } ∧ still (t.startTst i l)

/-- R201 to R204, R226 to R229: release, acquire, cross-path fence and fence. An acquire or a fence whose condition does not hold holds its
bundle. R230: a `waitge` on a counter of this package goes on once the counter has reached the value and the agent's releases have taken
their places, and holds its bundle until then; on a counter of another accelerator it goes by the value last read there; a misaligned one
traps. R200: an acquire and a satisfied `waitge` take their places in the synchronisation order. R201, R207: the release's entry in the
agent's program order. The model's choices in it: log entries 24, 63, 74. -/
def Obligations.Synchronisation : Prop :=
  -- L1 keeps nothing clean, nor what loads bring that have read by now
  let drop := fun (i : Nat) (t : State) => t.modMem i fun m =>
    { m with clean := [], far := [], loads := m.loads.map fun l => { l with keep := false }, tlds := m.tlds.map fun l => { l with keep := false } }
  (∀ (s : State) (h : Hdr) (o : CF),
     let obj := o.obj.toNat
     let m := s.me.mem
     let drop := drop s.cur
     let entered := s.me.relIn.contains (s.me.x.hnd, s.me.pos) && h.slot == .C0
     let done := m.rels.isEmpty && s.atIssue.writesDone s.cur o.scope.toNat
     s.Does (.rel h o) h (!entered && decide (s.counts.r < 16)) [] (s.onPackage fun t => t.enterRelease s.cur obj o.scope.toNat) ∧
     s.Does (.rel h o) h entered [] id ∧
     s.Traps (.rel h o) h (!entered && decide (16 ≤ s.counts.r)) (slotCause 0x09 h.slot (word 4) (word s.counts.r) 0) ∧
     s.Does (.acq h o) h m.rels.isEmpty [] (s.onPackage fun t =>
       { drop t with sync := t.sync ++ [s.place t o.scope.toNat (.acquire obj)] }) ∧
     s.Holds (.acq h o) h (!m.rels.isEmpty) .acq ∧
     s.Does (.fence h o) h done [] (s.onPackage drop) ∧
     s.Holds (.fence h o) h (!done) .fence ∧
     s.Does (.xfence h o) h true [] (
       if o.pa = o.pb then id
       else if o.pb = 0 then s.onPackage drop
       else if o.pa = 0 ∨ 4 ≤ o.pa.toNat then s.onPackage fun t => t.writeBack s.cur fun _ => true
       else id)) ∧
  (∀ (s : State) (h : Hdr) (o : CI) (sp : Span), s.errs = [] →
     let va := (s.sv o.rb + o.imm.signExtend 64).toNat
     let want := s.sv o.rd
     let two := s.sOk o.rb && s.sOk o.rd
     let m := s.me.mem
     let keys := sp.keys
     let slot := h.slot.code
     let judged := (m.gate.find? fun g => g.1 == slot).map (·.2)
     let polled := (m.poll.find? fun p => p.1 == slot).map (·.2)
     let older := m.olderWriter (2 ^ 64) sp.keyRanges || m.olderStore (2 ^ 64) sp.keyRanges
     let reached := !older && decide (want.toNat ≤ ofBytes (keys.map fun k => s.atIssue.l1Read s.cur false k))
     let noted := s.atIssue.modMem s.cur fun m => { m with gate := (slot, sp) :: m.gate.filter fun g => g.1 != slot }
     let put := fun t : State => t.writeBack s.cur fun d => keys.any fun k => k == d.key
     -- adds of this package on the counter whose acknowledgements are still to come have taken their places before it
     let seen := fun t : State =>
       let mine := fun r : RemReq => r.access == 2 && !r.copy && !r.placed && !r.refused && r.key == keys.headD 0
       { drop s.cur t with
         remote := t.remote.map fun r => if mine r then { r with placed := true } else r
         sync := t.sync ++ (t.remote.filter mine).map (fun r => t.event r.own r.agent 4 (.add r.key)) ++ [s.place t 5 (.waitge (keys.headD 0))] }
     let runs := (Instr.waitge h o).wf = true ∧ s.clear = true ∧ s.on h = true ∧ two = true ∧ s.fits [] = true ∧ s.me.preempt = none
     -- the counter, judged now, or as judged when the held bundle first came to issue
     ((judged = none ∧ va % 8 = 0 ∧ s.reaches .read [(va, 8)] sp) ∨ judged = some sp →
       (sp.remote = false →
         s.Does (.waitge h o) h (two && m.rels.isEmpty && reached) [] (s.onPackage fun t => seen (put t)) ∧
         (runs → (m.rels.isEmpty && reached) = false → exec (.waitge h o) s = .next ((put noted).holding s.cur .waitge))) ∧
       (sp.remote = true →
         (∀ v, polled = some (.inl v) →
           s.Does (.waitge h o) h (two && m.rels.isEmpty && decide (want ≤ v)) [] (s.onPackage seen) ∧
           (runs → want ≤ v → m.rels.isEmpty = false → exec (.waitge h o) s = .next (noted.holding s.cur .waitge))) ∧
         (∀ c, polled = some (.inr c) →
           s.Traps (.waitge h o) h two (slotCause 0x0D h.slot (word va) (keySynd (keyAcc (keys.headD 0)) 0) 0)) ∧
         ((polled = none ∨ ∃ v, polled = some (.inl v) ∧ ¬ want ≤ v) → runs →
           exec (.waitge h o) s = .next ((noted.pollRemote s.cur slot va sp).holding s.cur .waitge)))) ∧
     (∀ pages, judged = none → va % 8 = 0 → s.misses .read [(va, 8)] pages → s.HoldsWalks (.waitge h o) h two pages) ∧
     (∀ at_ f, judged = none → va % 8 = 0 → s.pageFault .read [(va, 8)] at_ f → s.Traps (.waitge h o) h two (pageCause h.slot .read at_ f)) ∧
     s.Traps (.waitge h o) h (two && judged.isNone && va % 8 != 0) (slotCause 0x02 h.slot 0 (word va) 0)) ∧
  -- a release that enters the agent's program order; at domain and system scope it ends the epoch of the writes before it
  ∀ (t : State) (i obj scope : Nat), i < 256 → (∀ r ∈ (t.core i).mem.rels, r.id < t.serial) →
    let m := (t.core i).mem
    let u := t.enterRelease i obj scope
    let n := (u.core i).mem
    n.rels.map (fun r => (r.id, r.obj, r.scope)) = m.rels.map (fun r => (r.id, r.obj, r.scope)) ++ [(t.serial, obj, scope)] ∧
    n.epoch = (if 4 ≤ scope then m.epoch + 1 else m.epoch) ∧ n.stores = m.stores ∧ n.tsts = m.tsts ∧ n.dirty = m.dirty ∧
    u.serial = t.serial + 1 ∧ u.mem = t.mem ∧ (u.core i).r = (t.core i).r ∧ (∀ j, j ≠ i → u.core j = t.core j) ∧
    ∀ r ∈ n.rels, r.id = t.serial →
      r.epoch = (if 4 ≤ scope then some (m.epoch % 256) else none) ∧ (scope < 4 ∨ (m.stores = [] ∧ m.tsts = []) → r.marked = true)

/-- R231 to R236, R244 to R248, R253, R254: the copy commands without a typed operand push what they read. R61, R250, R251: the window and
typed copy commands push their window or the type word they carry. R234: the checks of each command in their order, each with its trap,
that of the control register first; then those of the window (R219) and of its type; C above 63 traps (R28). R235: a push joins the 16
entries on chip while there is room, else the spill ring, whose slot translates at issue or is a spill fault. The model's choices in it:
log entries 5, 63, 80. -/
def Obligations.CopyPushes : Prop :=
  (∀ (s : State) (h : Hdr) (o : CR),
     let a := s.sv o.ra
     let b := s.sv o.rb
     let c := s.sv o.rc
     let d := s.sv o.rd
     let va := fun x : Word => fld x 63 56 == 0
     let window := fun x : Word => decide (Config.windowBase ≤ x.toNat) && decide (x.toNat < Config.vaLimit)
     let ord := o.mod.getLsbD 0
     let held := vget s.me.ch (chanOf h.slot) default
     let slotVa := s.me.ringVa (chanOf h.slot)
     let regs := s.sOk o.ra && s.sOk o.rb && s.sOk o.rc && s.sOk o.rd
     let operand := fun (v : Word) (k : Nat) => slotCause 0x02 h.slot 0 v (word k)
     -- the checks of a command: what must hold, and the operand that it is about
     let control : Bool × Word × Nat := (fld d 2 0 == 0 && (bit d 3 || (fld d 23 16 == 0 && fld d 15 4 == 0)), d, 3)
     let pass := fun l : List (Bool × Word × Nat) => l.all (·.1)
     let ordered := fun (i : Instr) (ok : Bool) (l : List (Bool × Word × Nat)) => ∀ k v n, l[k]? = some (false, v, n) →
       pass (l.take k) = true → s.Traps i h (regs && ok) (operand v n)
     -- what a command does once its checks have passed: the slot of the ring, C, the push
     let pushed := fun (i : Instr) (ok : Bool) (f : Option Span → Bld → Bld) =>
       (∀ ring, s.ringAt h.slot ring →
         s.Does i h (ok && decide (s.counts.c < 63)) [] (f ring) ∧
         s.Traps i h (ok && decide (63 ≤ s.counts.c)) (slotCause 0x09 h.slot (word 2) (word s.counts.c) 0)) ∧
       (16 ≤ held.queue.length ∨ held.spilled ≠ [] →
         (∀ pages, s.misses .write [(slotVa, 64)] pages → s.HoldsWalks i h (ok && decide (s.counts.c < 63)) pages) ∧
         ∀ at_ f, s.pageFault .write [(slotVa, 64)] at_ f → s.Traps i h ok (slotCause 0x12 h.slot (word at_) (pageSynd .write f) f.entry))
     let pushes := fun (i : Instr) (k : CopyKind) (own : List (Bool × Word × Nat)) =>
       ordered i true (control :: own) ∧ pushed i (regs && pass (control :: own)) fun ring => s.pushes h.slot k o ring 0 0 [] [] 0
     let et := c.toNat / 2 ^ 36 % 8
     let op := fld c 34 32
     let size := if et = 2 then 2 else 4
     let rows := [(va b, b, 1), (va c, c, 2), (fld a 63 56 != 0, a, 0), (fld a 6 0 == 0, a, 0), (fld b 6 0 == 0, b, 1), (fld c 2 0 == 0, c, 2)]
     pushes (.copy h o) .copy [(va a, a, 0), (va b, b, 1), (fld c 63 32 == 0, c, 2), (!ord || window a, a, 0)] ∧
     pushes (.copy2d h o) .copy2d [(va a, a, 0), (va b, b, 1), (fld c 23 12 != 0, c, 2), (fld c 11 0 != 0, c, 2), (fld a 1 0 == 0, a, 0),
       (fld b 1 0 == 0, b, 1), (!ord || window a, a, 0)] ∧
     pushes (.gath h o) .gath (rows ++ [(!ord || window (a &&& 0x00FFFFFFFFFFFFFF), a, 0)]) ∧
     pushes (.scat h o) .scat rows ∧
     pushes (.cred h o) .cred [(va a, a, 0), (va b, b, 1),
       (fld c 63 39 == 0 && (et == 0 || et == 2 || et == 4) && (!bit c 35 || (et == 4 && op == 0)) && decide (op ≤ 2) && fld c 31 0 % size == 0, c, 2),
       (a.toNat % size == 0, a, 0), (b.toNat % size == 0, b, 1)] ∧
     pushes (.cexp h o) .cexp (if ord then [(fld a 63 30 == 0 && fld a 23 22 == 0, a, 0), (va b, b, 1), (fld b 4 0 == 0, b, 1),
         (fld a 29 24 != 0, a, 0), (fld a 9 0 == 0, a, 0), (ringOk s.atIssue s.cur (fld a 21 0) (fld a 29 24), a, 0)]
       else [(va a, a, 0), (va b, b, 1), (fld b 4 0 == 0, b, 1), (fld a 6 0 == 0, a, 0)]) ∧
     pushes (.ssend h o) .ssend [(va a, a, 0), (va b, b, 1), (fld b 2 0 == 0, b, 1), (fld c 55 50 == 0 && fld c 31 24 == 0, c, 2)] ∧
     pushes (.cadd h o) .cadd [(d.getLsbD 3 && (o.ra == 0 || fld d 23 16 == 0), d, 3)] ∧
     (let boxed := fun (i : Instr) (k : CopyKind) (own : List (Bool × Word × Nat)) (win : Nat) (org : List Nat) =>
        let w := s.windowOf win
        let legal := regs && pass (control :: own)
        let rule : TyM (TypeWord × List Nat) := do
          let be ← boxAt w win false org
          checkWord (boxOpnd win) be.1
          pure be
        ordered i true (control :: own) ∧
        s.Traps i h (legal && !winValid w) (slotCause 0x02 h.slot 0 0 0) ∧
        (∀ k, windowCheck w org = some k → s.Traps i h (legal && winValid w) (slotCause 0x02 h.slot 0 (word win) (word k))) ∧
        (∀ e, s.mistyped rule e → s.Traps i h (legal && s.windowOk win org) (e.cause h.slot)) ∧
        ∀ box ext d, s.types rule (box, ext) d → pushed i (legal && s.windowOk win org) fun ring x =>
          { s.pushes h.slot k o ring win w ext org box x with dims := d }
      let org := fun xy z : Word => [xy.toNat % 2 ^ 32, xy.toNat / 2 ^ 32, z.toNat / 2 ^ 32, 0]
      let box := [(va a, a, 0), (fld a 7 0 == 0, a, 0), (fld c 31 8 == 0, c, 2), (!o.mod.getLsbD 1 || window a, a, 0)]
      boxed (.copywLd h o) .copywLd box (c.toNat % 256) (org b c) ∧
      boxed (.copywSt h o) .copywSt box (c.toNat % 256) (org b c) ∧
      boxed (.get h o) .get [(fld b 31 8 == 0, b, 1), (fld c 63 32 == 0 && fld c 15 14 == 0, c, 2)] (b.toNat % 256) (org a b)) ∧
     (let t := c.toNat % 16
      let ty := s.tyv t
      let checks := [control, (fld a 63 32 == 0 && fld a 15 14 == 0, a, 0), (va b, b, 1), (fld b 7 0 == 0, b, 1), (fld c 63 4 == 0, c, 2)]
      let legal := regs && s.tOk t && pass checks
      ordered (.put h o) (s.tOk t) checks ∧
      s.Traps (.put h o) h (legal && !tyValid ty) (slotCause 0x03 h.slot (typeSynd (tileOpnd 0 t) 0 0) 1 0) ∧
      (∀ e, carryType s.me.r.d t ty = .error e → s.Traps (.put h o) h (legal && tyValid ty) (e.cause h.slot)) ∧
      ∀ w, carryType s.me.r.d t ty = .ok w → pushed (.put h o) (legal && tyValid ty) fun ring => s.pushes h.slot .put o ring 0 0 [] [] w)) ∧
  -- the channel takes the entry on chip while it has room there, else behind what its ring holds
  ∀ (t : State) (i k : Nat) (e : CopyEntry), i < 256 → k < 2 →
    let old := vget (t.core i).ch k default
    let new := fun u : State => vget (u.core i).ch k default
    let still := fun u : State => (u.core i).r = (t.core i).r ∧ (u.core i).cnt = (t.core i).cnt ∧ ∀ j, j ≠ i → u.core j = t.core j
    (let u := t.pushCopy i k e none
     new u = { old with queue := old.queue ++ [e] } ∧ u.mem = t.mem ∧ still u) ∧
    ∀ sp : Span,
      let u := t.pushCopy i k e (some sp)
      new u = { old with spilled := old.spilled ++ [e], ring := old.ring + 1 } ∧ (∀ a, a ∉ sp.keys → u.mem.get a = t.mem.get a) ∧ still u

/-! ### Bundles, retirement, traps -/

/-- R86, R90, R91, R101: an empty bundle issues and does nothing; an operation whose guard reads false or whose path is not taken does
nothing; an operation whose encoding is not legal, and a reserved opcode, raise the illegal-operation trap of the slot; an illegal code
raises the illegal-code trap. R24, R88, R89: a branch tree goes to the target of its first leaf whose test holds, after two bubbles, and a
call leaves the fall-through in b15; with no such leaf the next code is the fall-through. The model's choices in it: log entries 17, 26,
58. -/
def Obligations.GuardsLegalityTrees : Prop :=
  (∀ s : State, s.clear = true →
     (∀ slot, s.fits [] = true → exec (.nop slot) s = .next (s.landing [])) ∧
     (∀ (i : Instr) (h : Hdr), i.hdr? = some h →
       (i.wf = false → exec i s = .next (s.trapped (slotCause 0x02 h.slot 0 0 0))) ∧
       (i.wf = true → s.on h = false → s.fits [] = true → exec i s = .next (s.landing []))) ∧
     (∀ slot raw, exec (.reservedOpcode slot raw) s = .next (s.trapped (slotCause 0x02 slot 0 0 0))) ∧
     exec .illegalCode s = .next (s.trapped (bundleCause 0x01
       (word (((s.core s.cur).stream[(s.core s.cur).pos]?.map BitVec.toNat).getD 0)) 0 0))) ∧
  (∀ (s : State) (drain : Bool) (tests : List Test), s.clear = true → s.me.preempt = none →
     let holds := fun t : Test => s.pv t.pred != (t.sense == 1)
     let link := s.lands 1 (.b 15 (BitVec.ofNat 32 s.fall))
     ((∀ t ∈ tests, holds t = false) → s.fits [] = true → exec (.branchTree drain tests) s = .next (s.landing [])) ∧
     ∀ (k : Nat) (t : Test), tests[k]? = some t → holds t = true → (∀ j < k, ∀ u, tests[j]? = some u → holds u = false) →
       s.fits (if t.kind = 1 then [link] else []) = true →
       ∃ u, exec (.branchTree drain tests) s = .next u ∧
         (u.core s.cur).pos = (s.me.r.readB t.tgt.toNat).toNat ∧ (u.core s.cur).bubbles = 2 ∧ (u.core s.cur).cycle = s.me.cycle + 1 ∧
         (u.core s.cur).r = s.me.r ∧ (u.core s.cur).flight = s.me.flight ++ (if t.kind = 1 then [link] else []))

/-- R22, R31, R89, R129: a bundle that only starts landings leaves every register, flag, counter and special register of its core, every other
core, every byte of home memory and every scratchpad as the bundle found them; it adds the landings, one issue cycle, and the next
position, which closes the loops that end there. R26, R28, R29, R263: what a bundle with any effects does as it retires. Counters rise,
destinations become pending, dimension variables take their values and results start; then its effects on the package happen; then the
core moves on, with the occupancy of its matrix operation, and stalls for the bank conflicts of its accesses (R166). The model's choices
in it: log entry 27. -/
def Obligations.RetireFrame : Prop :=
  (∀ (s : State) (l : List Flight), s.clear = true →
     let c := s.me
     let t := s.landing l
     let d := t.core s.cur
     let loops := c.r.loops
     d.flight = c.flight ++ l ∧ d.cycle = c.cycle + 1 ∧
     d.r = { c.r with loops := d.r.loops } ∧ d.e = { c.e with occ := c.e.occ - 1 } ∧ d.x = (if c.x.rtryPos = c.pos then { c.x with rtry := 0, run := 0 } else c.x) ∧
     d.cnt = c.cnt ∧ d.pendS = c.pendS ∧ d.pendV = c.pendV ∧ d.pendT = c.pendT ∧ d.bars = c.bars ∧ d.grant = c.grant ∧
     d.stalls = c.stalls ∧ d.holds = c.holds ∧ d.cbase = c.cbase ∧ d.cwp = c.cwp ∧ d.spr = c.spr ∧ d.ch = c.ch ∧ d.wid = c.wid ∧
     d.level = c.level ∧ d.grid = c.grid ∧ d.inst = c.inst ∧ d.phase = c.phase ∧ d.stream = c.stream ∧ d.dict = c.dict ∧
     d.replay = c.replay ∧ d.asyncs = c.asyncs ∧ d.preempt = c.preempt ∧ d.hold = none ∧ d.stall = none ∧ d.held = 0 ∧
     d.drawn = c.drawn ∧ d.drops = c.drops ∧ d.broke = c.broke ∧ d.again = c.again ∧ d.lastCause = c.lastCause ∧
     d.relIn = c.relIn.filter (· != (c.x.hnd, c.pos)) ∧
     d.mem = { c.mem with want := [], walks := [], walked := [], poll := [], gate := [] } ∧
     ((∀ e es, loops = e :: es → e.stop.toNat ≠ s.fall) → d.pos = s.fall ∧ d.r.loops = loops) ∧
     (∀ e es, loops = e :: es → e.stop.toNat = s.fall → 1 < e.count.toNat →
       d.pos = e.start.toNat ∧ d.r.loops = { e with count := e.count - 1 } :: es) ∧
     (∀ e es, loops = e :: es → e.stop.toNat = s.fall → e.count.toNat ≤ 1 → (∀ f fs, es = f :: fs → f.stop.toNat ≠ s.fall) →
       d.pos = s.fall ∧ d.r.loops = es) ∧
     (∀ j, j ≠ s.cur → t.core j = s.core j) ∧
     t = { s.atIssue with cores := t.cores } ∧ t.mem = s.mem ∧ (∀ key, isSram key = false → t.readHome key = s.readHome key) ∧
     ((s.core s.cur).reland = false → (∀ f ∈ (s.core s.cur).flight, (s.core s.cur).cycle < f.due) →
       s.me = s.core s.cur ∧ t.clusters = s.clusters)) ∧
  ∀ (s : State) (f : Bld → Bld), s.cur < 256 → (f (Bld.start s.me)).exit = false →
    let b := f (Bld.start s.me)
    let c := s.me
    let t := s.issued f
    ∃ v : State,
      (let d := v.core s.cur
       d.cnt = { l := c.cnt.l + b.rl, s := c.cnt.s + b.rs, c := c.cnt.c + b.rc, t := c.cnt.t + b.rt } ∧
       d.flight = c.flight ++ b.lands ∧ d.r = { c.r with d := b.dims } ∧
       (∀ n < 64, bit d.pendS n = (bit c.pendS n || b.pends.contains (0, n)) ∧ bit d.pendV n = (bit c.pendV n || b.pends.contains (1, n))) ∧
       (∀ n < 16, bit d.pendT n = (bit c.pendT n || b.pends.any fun r => decide (2 ≤ r.1) && r.2 == n)) ∧
       d.x = (if c.x.rtryPos = c.pos then { c.x with rtry := 0, run := 0 } else c.x) ∧ d.e = c.e ∧ d.pos = c.pos ∧ d.cycle = c.cycle ∧
       d.ch = c.ch ∧ d.inst = c.inst ∧ d.phase = c.phase ∧ d.grant = c.grant ∧ d.stalls = c.stalls ∧ d.hold = none ∧ d.stall = none) ∧
      (∀ j, j ≠ s.cur → v.core j = s.core j) ∧ v = { s.atIssue with cores := v.cores } ∧
      let u := b.post v
      let e := u.core s.cur
      let d := t.core s.cur
      t = { u with cores := t.cores } ∧ (∀ j, j ≠ s.cur → t.core j = u.core j) ∧
      d.cycle = e.cycle + 1 ∧ d.wake = u.pcc + 1 ∧ d.cnt = e.cnt ∧ d.flight = e.flight ∧ d.pendS = e.pendS ∧ d.pendV = e.pendV ∧
      d.pendT = e.pendT ∧ d.mem = e.mem ∧ d.ch = e.ch ∧ (b.tret = none → d.x = e.x) ∧
      d.e = { e.e with occ := match b.mOcc with | some n => n - 1 | none => e.e.occ - 1 } ∧
      (let uses := fun bank : Nat => (b.rows.eraseDups.filter fun r => r.1 == bank).length + ((b.extra.filter fun x => x.1 == bank).map (·.2)).sum
       ∃ n, (∀ bank, uses bank ≤ n + 1) ∧ (n = 0 ∨ ∃ bank, uses bank = n + 1) ∧ d.stalls = e.stalls + word n ∧
         d.stallEnd = if n = 0 then none else some (u.pcc + 1 + n)) ∧
      (b.skip = none → b.tret = none → (∀ l ls, e.r.loops = l :: ls → l.stop.toNat ≠ s.fall) →
        d.pos = s.fall ∧ d.r = e.r ∧ d.bubbles = e.bubbles) ∧
      ∀ p, b.skip = some p → d.pos = p ∧ d.bubbles = 2 ∧ d.r = e.r

/-- R308 to R315: taking a trap. CAUSE, SYND0 to SYND3 and TRAPPC are written; every result in flight goes to a replay register with the
cycles that remain; a program trap of an instance with a handler sets HND and goes to TVEC in the next issue cycle, without one it goes to
containment; a page or spill fault goes to Ridge; a program trap while a handler runs is the nested trap; a pair timeout or partner fault
withdraws the half supplied. R322, R323: containment at the lowest level that does not hand the fault on. Ignore goes on at the
fall-through of the trapping bundle, of a copy fault at the bundle itself; retry issues it again up to three times, and relaunches the
group of a hard fault where R324 allows it, else the fault climbs; kill-self ends the group; a fault that climbs past the top ends the
launch. The model's choices in it: log entries 53, 67, 77. -/
def Obligations.TrapEntryContainment : Prop :=
  (∀ (s : State) (i : Nat) (k : Cause), i < 256 →
     let c := s.core i
     let t := s.takeTrap i k
     let d := t.core i
     let w := if k.code = 0x0E ∨ k.code = 0x0F then s.withdrawHalf i else s
     let at_ := fun k : Cause => w.setCore i { (c.saveFlights.noteTrap k).clearWait with wake := s.pcc + 1 }
     let row := c.x.run ≠ 0 ∧ c.x.rtryCode = k.code ∧ c.x.rtryPos = c.pos
     let noted := d.x.cause = word ((if 0x11 ≤ k.code then 256 else 0) + k.code) ∧ d.x.synd0 = k.synd0 ∧ d.x.synd1 = k.synd1 ∧
       d.x.synd2 = k.synd2 ∧ d.x.synd3 = k.synd3 ∧ d.x.trappc = word c.pos ∧
       (row → d.x.run = c.x.run + 1 ∧ d.x.rtry = c.x.rtry) ∧ (¬row → d.x.run = 1 ∧ d.x.rtry = 0)
     let saved := d.flight = [] ∧
       d.replay.map (fun z => (z.rem, z.land, z.flags, z.hnd)) =
         c.replay.map (fun z => (z.rem, z.land, z.flags, z.hnd)) ++ c.flight.map fun f => (f.due - c.cycle, f.land, f.flags, c.x.hnd)
     -- the TLBs give up a translation that a page fault found without W (KIND 1)
     let dropped := s.modCluster (i / 4) fun z =>
       { z with tlb := z.tlb.filter fun x => !(decide (x.va ≤ k.synd0.toNat) && decide (k.synd0.toNat < x.va + x.size)) }
     let kept := d.r = c.r ∧ d.cnt = c.cnt ∧ d.inst = c.inst ∧ t.mem = s.mem ∧ t.link = w.link ∧
       t.clusters = (if k.code = 0x11 ∧ fld k.synd1 3 0 = 1 then dropped else s).clusters ∧
       ∀ j, j ≠ i → t.core j = s.core j
     (∀ x, c.inst = some x → k.code < 0x11 → c.x.hnd = false →
       (x.lh.tven = true → noted ∧ saved ∧ kept ∧ d.e = { c.e with occ := c.e.occ - 1 } ∧ d.x.hnd = true ∧ d.pos = x.lh.tvec ∧
         d.cycle = c.cycle + 1 ∧ d.phase = c.phase) ∧
       (x.lh.tven = false → t = (at_ k).contain i k)) ∧
     (k.code = 0x11 ∨ k.code = 0x12 →
       noted ∧ saved ∧ kept ∧ d.e = c.e ∧ d.x.hnd = c.x.hnd ∧ d.pos = c.pos ∧ d.phase = .service ∧ d.serving = some k) ∧
     (k.code < 0x11 → c.x.hnd = true → k.nest.code = 0x17 ∧ k.nest.synd0 = k.synd0 ∧ t = (at_ k.nest).contain i k.nest) ∧
     (0x13 ≤ k.code → t = ((at_ k).noteBroke i k).contain i k)) ∧
  (∀ (s : State) (i : Nat) (k : Cause) (x : Inst), (s.core i).inst = some x →
     let tries := (s.core i).x.run
     let again := fun l : Nat => k.hard = false ∧ tries ≤ 3 ∨ k.hard = true ∧ relaunchOk x.lh l (s.spareFor i) = true
     let on := fun l : Nat => x.lh.policy l = 3 ∨ x.lh.policy l = 1 ∧ ¬again l
     (∀ l ≤ x.lh.nf, (∀ j < l, on j) →
       (x.lh.policy l = 0 → k.code ≠ 0x14 → s.contain i k = s.modCore i fun c =>
         { c with x := { c.x with hnd := false }, phase := .run, pos := fallOf c.stream c.x.trappc.toNat, reland := true, relIn := [] }) ∧
       (x.lh.policy l = 0 → k.code = 0x14 → s.contain i k = s.modCore i fun c => { c with phase := .run, reland := true }) ∧
       (x.lh.policy l = 1 → k.hard = false → tries ≤ 3 → s.contain i k = s.modCore i fun c =>
         { c with phase := .run, reland := true, x := { c.x with rtry := c.x.rtry + 1 } }) ∧
       (x.lh.policy l = 1 → k.hard = true → again l → s.contain i k = s.relaunch x.graph x.node l x.idx) ∧
       (x.lh.policy l = 2 → s.contain i k = s.killGroup x.graph x.node l x.idx)) ∧
     ((∀ j ≤ x.lh.nf, on j) → s.contain i k = s.killGroup x.graph x.node x.lh.nf x.idx))

/-- R22, R83, R165, R275, R317: results that are due land in landing order; the exception flags they carry go into FPFLAGS by OR, and a clip
into QSTAT.CLIP, after every value of the cycle; V1 commits write the scratchpad. R22, R39, R42: what one landing does to the registers:
its own register takes the value and no other register changes; s0, p0, m0 and dead registers take nothing. The model's choices in it: log
entries 27, 54. -/
def Obligations.LandingsAndEffect : Prop :=
  (∀ (s : State) (i : Nat), s.powered = true → i < 256 → (s.core i).canIssue s.pcc = true →
     let c := s.core i
     let due := fun commit : Bool => sortBy Flight.due (c.flight.filter fun f => decide (f.due ≤ c.cycle)) |>.filter fun f => f.land.isCommit == commit
     let accrued := fun (t : State) (fs : List Flight) =>
       let e := (fs.foldl (fun c f => c.land f.land) c).e
       let n := (t.core i).e
       n = { e with fpflags := n.fpflags, clip := n.clip } ∧ n.clip = (e.clip || fs.any (·.clip)) ∧
       ∀ k < 6, n.fpflags.getLsbD k = (e.fpflags.getLsbD k || fs.any fun f => f.flags.getLsbD k)
     (due false ≠ [] → ∃ t, exec (.resultLanding i) s = .next t ∧
       (t.core i).flight = c.flight.filter (fun f => !(decide (f.due ≤ c.cycle) && !f.land.isCommit)) ∧
       (t.core i).r = ((due false).foldl (fun c f => c.land f.land) c).r ∧ accrued t (due false) ∧
       (t.core i).cycle = c.cycle ∧ (t.core i).pos = c.pos ∧ (t.core i).cnt = c.cnt ∧
       t.mem = s.mem ∧ t.clusters = s.clusters ∧ ∀ j, j ≠ i → t.core j = s.core j) ∧
     (due true ≠ [] → ∃ t, exec (.v1Commit i) s = .next t ∧
       (t.core i).flight = c.flight.filter (fun f => !(decide (f.due ≤ c.cycle) && f.land.isCommit)) ∧ (t.core i).r = c.r ∧ accrued t (due true) ∧
       (t.cluster (i / 4)).sram = ((due true).flatMap fun f => match f.land with | .cells xs => xs | _ => []).foldl
         (fun m x => m.set x.1 x.2) (s.cluster (i / 4)).sram ∧
       (t.cluster (i / 4)).banks = (s.cluster (i / 4)).banks ∧ (∀ k, k ≠ i / 4 → t.cluster k = s.cluster k) ∧
       t.mem = s.mem ∧ ∀ j, j ≠ i → t.core j = s.core j)) ∧
  (∀ (c : Core),
     (∀ r x, r < 64 → let d := c.land (.s r x)
       d = { c with r := { c.r with s := d.r.s } } ∧
       ∀ j < 64, vget d.r.s j 0 = if j = r ∧ r ≠ 0 ∧ (rotS c.r.rot).dead r = false then x else vget c.r.s j 0) ∧
     (∀ r x mask, r < 64 → let d := c.land (.v r x mask)
       d = { c with r := { c.r with v := d.r.v } } ∧
       ∀ j < 64, ∀ b, (vget d.r.v j 0).getLsbD b =
         if j = r ∧ (rotV c.r.rot).dead r = false ∧ mask.getLsbD b then x.getLsbD b else (vget c.r.v j 0).getLsbD b) ∧
     (∀ r x ty, r < 16 → let d := c.land (.t r x ty)
       d = { c with r := { c.r with t := d.r.t, ty := d.r.ty } } ∧
       ∀ j, d.r.readT j = (if j = r then x else c.r.readT j) ∧ d.r.readTy j = if j = r then ty else c.r.readTy j) ∧
     (∀ r row x mask, r < 16 → row < 32 → let d := c.land (.trow r row x mask)
       d = { c with r := { c.r with t := d.r.t } } ∧
       ∀ j, ∀ b < 65536, (d.r.readT j).getLsbD b =
         if j = r ∧ 2048 * row ≤ b ∧ b < 2048 * (row + 1) ∧ mask.getLsbD (b - 2048 * row) then x.getLsbD (b - 2048 * row)
         else (c.r.readT j).getLsbD b) ∧
     (∀ r, r < 16 → let d := c.land (.tzero r)
       d = { c with r := { c.r with t := d.r.t, ty := d.r.ty } } ∧
       ∀ j, d.r.readT j = (if j = r then 0 else c.r.readT j) ∧ d.r.readTy j = if j = r then setOcnt (c.r.readTy j) 0 else c.r.readTy j) ∧
     (∀ r x, r < 16 → let d := c.land (.p r x)
       d = { c with r := { c.r with p := d.r.p } } ∧ ∀ j < 16, vget d.r.p j false = if j = r ∧ r ≠ 0 then x else vget c.r.p j false) ∧
     (∀ r x, r < 8 → let d := c.land (.m r x)
       d = { c with r := { c.r with m := d.r.m } } ∧ ∀ j < 8, vget d.r.m j 0 = if j = r ∧ r ≠ 0 then x else vget c.r.m j 0) ∧
     (∀ r x, r < 16 → let d := c.land (.b r x)
       d = { c with r := { c.r with b := d.r.b } } ∧ ∀ j, d.r.readB j = if j = r then x else c.r.readB j) ∧
     (∀ r x, r < 4 → let d := c.land (.pad r x)
       d = { c with r := { c.r with pad := d.r.pad } } ∧ ∀ j < 4, vget d.r.pad j 0 = if j = r then x else vget c.r.pad j 0) ∧
     (∀ r x, r < 16 → let d := c.land (.ty r x)
       d = { c with r := { c.r with ty := d.r.ty } } ∧ ∀ j, d.r.readTy j = if j = r then x else c.r.readTy j) ∧
     c.land .nothing = c ∧
     (∀ x, c.land (.csr 0x20 x) = { c with e := { c.e with fpflags := x.extractLsb' 0 6 } } ∧
       c.land (.csr 0x21 x) = { c with e := { c.e with clip := x.getLsbD 0 } } ∧
       c.land (.csr 0x40 x) = { c with cbase := x &&& 0x00FFFFFFFFFFFFF0 }))

/-! ### Events of a core -/

/-- R26, R281, R308, R312, R321, R326: the ends of stalls and the traps that are no slot's. A bank-conflict stall runs out; the asynchronous
cause that arrived first is taken before the next bundle; the watchdog traps a bundle held for longer than the limit, the time before a
save counted; a pair stall ends with the partner's half, or with a pair timeout after 2^PTO cycles, or with a partner fault once the
partner has left or has taken a hard fault before it supplied that half, whose SYND2 is the partner's CAUSE. The model's choices in it:
log entry 68. -/
def Obligations.StallEndsAndAsyncTraps : Prop :=
  ∀ (s : State) (i : Nat), s.powered = true → i < 256 →
    let c := s.core i
    (∀ t, c.stallEnd = some t → t ≤ s.pcc →
      exec (.scratchpadStallEnd i) s = .next (s.modCore i fun c => { c with stallEnd := none })) ∧
    (∀ a, c.nextAsync = some a → c.canIssue s.pcc = true → c.bubbles = 0 →
      exec (.asyncTrap i) s =
        .next (((s.landDue i).modCore i fun c => { c with asyncs := c.asyncs.erase a }).takeTrap i a.cause)) ∧
    (∀ k t, c.phase = .run → c.hold = some (k, t) → (k = .wait ∨ (∃ l, k = .bar l) ∨ k = .waitge ∨ k = .acq) →
      2 ^ s.watchLog c < c.held + (s.pcc - t) →
      exec (.watchdog i) s = .next (s.takeTrap i (bundleCause 0x16 0 (word (c.held + (s.pcc - t))) 0))) ∧
    (∀ t x, c.phase = .run → c.stall = some (.pair, t) → c.inst = some x →
      let k := c.e.xnum
      let half := s.link.find? fun h => (h.graph == x.graph && h.node == x.node && h.idx == partnerIdx x.idx && h.num == k) && !h.taken
      let fault := slotCause 0x0F .X 0 (word k) (s.partnerCause i)
      (half.isSome = true → exec (.xchHalfArrival i) s =
        .next (s.modCore i fun c => if s.pcc < c.wake then { c with wake := s.pcc, stalls := c.stalls - 1 } else c)) ∧
      (t + 2 ^ x.lh.pto ≤ s.pcc → half = none →
        exec (.pairTimeout i) s = .next (s.takeTrap i (slotCause 0x0E .X 0 (word k) 0))) ∧
      (half = none → s.partnerHere i = false → exec (.partnerFault i) s = .next (s.takeTrap i fault)) ∧
      (∀ p n, s.partnerAt i = some p → p.broke = some n → n ≤ k → exec (.partnerFault i) s = .next (s.takeTrap i fault)) ∧
      (∀ p, s.partnerAt i = some p → s.partnerCause i = p.x.cause))

/-- R193, R313, R324, R327, R330: service of a page or spill fault, after which the bundle issues again or is saved where a pre-emption
request waits, and hard faults of a core. The model's choices in it: log entries 26, 53, 54. -/
def Obligations.ServiceAndHardFaults : Prop :=
  ∀ (s : State) (i : Nat), s.powered = true → i < 256 →
    let c := s.core i
    let woken := fun c : Core => { c with serving := none, wake := s.pcc + 1 }
    (c.phase = .service → c.preempt = none →
      exec (.pageFaultService i true) s = .next (s.modCore i fun c => { woken c with phase := .run, reland := true })) ∧
    (∀ r, c.phase = .service → c.preempt = some r →
      ∃ t, exec (.pageFaultService i true) s = .next t ∧ (t.core i).phase = .saving ∧ (t.core i).reland = true ∧ (t.core i).r = c.r ∧
        (t.core i).x = c.x ∧ (t.core i).pos = c.pos ∧ (t.core i).inst = c.inst ∧ t.mem = s.mem ∧ ∀ j, j ≠ i → t.core j = s.core j) ∧
    (∀ k, c.phase = .service → c.serving = some k →
      exec (.pageFaultService i false) s = .next (((s.modCore i woken).modCore i fun c => { c with phase := .run }).contain i k)) ∧
    (∀ kind idx, coreKind kind = true → idx < 256 → c.spareDue = false → c.unplaceable = false →
      let t := s.modCore i fun c => { c with spareDue := true }
      (c.inst = none → exec (.coreHardFault i kind idx) s = .next t) ∧
      ∀ x, c.inst = some x → exec (.coreHardFault i kind idx) s =
        .next (t.postAsync x.uid (bundleCause 0x15 (word (i * 65536 + idx * 256 + kind)) 0 0)))

/-- R33, R210, R318 to R320: a pre-emption request; the save that is forced when no drain point comes within 65,536 issue cycles, taken where
the next bundle comes to issue, whose own trap comes first; the save, and the kill of an instance whose save area cannot be written; the
resume. The model's choices in it: log entries 9, 25, 68. -/
def Obligations.SaveAndResume : Prop :=
  ∀ (s : State) (i : Nat), s.powered = true → i < 256 →
    let c := s.core i
    (∀ x, c.inst = some x → c.preempt = none → (c.phase = .run ∨ c.phase = .service ∨ c.phase = .resuming) →
      ∃ t, exec (.preemptRequest i) s = .next t ∧ (t.core i).preempt = some c.cycle ∧ (t.core i).r = c.r ∧ (t.core i).pos = c.pos ∧
        (∀ p, s.partnerCore i = some p → (s.core p).preempt = none → (s.core p).phase = .run → p ≠ i →
          (t.core p).preempt = some (s.core p).cycle) ∧ t.mem = s.mem) ∧
    (∀ r b, c.canIssue s.pcc = true → c.bubbles = 0 → c.preempt = some r → 65536 ≤ c.cycle - r → c.nextAsync = none →
      s.errs = [] → (∀ x, c.inst = some x → x.lh.ilk = false) →
      let l := s.landDue i
      let u := l.modCore i Core.relandNow
      let h := c.fetched.1
      (l.core i).relandClash = none → h.code = none → h.bad = false → b.miss = [] →
      (∀ k, u.judgeSlots i h c.fetched.2 = (b, some k) → exec (.forcedSave i) s = .next (u.takeTrap i k)) ∧
      (u.judgeSlots i h c.fetched.2 = (b, none) → b.pair = none → (u.core i).inFlight + b.lands.length ≤ 16 →
        ∃ t, exec (.forcedSave i) s = .next t ∧ (t.core i).phase = .saving ∧ (t.core i).inst = c.inst ∧ (t.core i).pos = c.pos ∧
          (t.core i).r = (u.core i).r ∧ (t.core i).flight = (u.core i).flight ∧ (t.core i).replay = (u.core i).replay ∧ t.mem = s.mem ∧
          ∀ j, j ≠ i → t.core j = s.core j)) ∧
    (∀ x, c.inst = some x → c.phase = .saving → c.cnt.l = 0 → c.cnt.s = 0 → c.cnt.t = 0 →
      (∃ t, exec (.contextSave i true) s = .next t ∧ (t.core i).inst = none ∧ (t.core i).phase = .idle ∧
        (t.core i).mem.dirty = [] ∧
        ∃ v ∈ t.saved, v.inst = x ∧ v.core.r = c.r ∧ v.core.x = c.x ∧ v.core.pos = c.pos ∧ v.core.flight = [] ∧ v.core.reland = true ∧
          v.core.e = c.e ∧ v.core.bars = c.bars ∧ v.core.grant = default ∧
          -- the time of a hold that the watchdog measures, up to the save
          (∀ k z, c.hold = some (k, z) → (k = .wait ∨ (∃ l, k = .bar l) ∨ k = .waitge ∨ k = .acq) → v.core.held = c.held + (s.pcc - z)) ∧
          ((c.hold = none ∨ ∃ z, c.hold = some (.fence, z) ∨ c.hold = some (.tlb, z)) → v.core.held = c.held)) ∧
      exec (.contextSave i false) s =
        .next ((s.modCore i fun c => c.saveFlights.noteTrap (bundleCause 0x18 (Config.saveArea x.uid) 0 0)).killGroup x.graph x.node
          (killLevel x.lh) x.idx)) ∧
    (c.phase = .resuming → s.copiesDone c.uid = true →
      ∃ t, exec (.contextResume i) s = .next t ∧ (t.core i).phase = .run ∧ (t.core i).wake = s.pcc + 1 ∧ (t.core i).r = c.r ∧
        (t.core i).pos = c.pos ∧ (t.core i).preempt = c.preempt ∧
        (t.core i).cnt = { c.cnt with c := (c.ch.toList.map fun h => (h.entriesOf c.uid).length).foldl (· + ·) 0 } ∧
        t.mem = s.mem ∧ ∀ j, j ≠ i → t.core j = s.core j)

/-! ### Memory events -/

/-- R22, R28, R181, R198, R214, R216: data of a load returns. The register takes it, its pending bit clears and L falls; home memory, the
other registers and every other core stay where L1 has room for the lines read, so that it gives up none. R217, R218: an atomic on home
memory reads the old value and writes the new one at its home in one step; no other byte of memory changes, and its destination takes the
old value. R217: the operations of `amo` on w bits. The model's choices in it: log entries 19, 51, 52, 71, 73. -/
def Obligations.LoadAndAtomicReturns : Prop :=
  (∀ (s : State) (i id : Nat) (stale : Bool) (remote : List Byte) (l : LoadOp), s.powered = true → i < 256 → s.errs = [] →
     let c := s.core i
     c.phase = .run → (c.mem.loads.find? fun l => l.id == id) = some l → c.mem.loadReady l remote = true → l.kind.atomic = false →
     let x := ofBytes (l.span.keys.map (s.gather i stale l.span l.fwd remote))
     c.mem.roomFor l.span.keys →
     ∃ t, exec (.loadDataReturn i id stale remote) s = .next t ∧
       (let d := t.core i
        (d.mem.loads.map fun y => { y with asked := true, keep := true }) =
          ((c.mem.loads.filter fun y => y.id != l.id).map fun y => { y with asked := true, keep := true }) ∧
        d.mem.dirty = c.mem.dirty ∧ d.mem.stores = c.mem.stores ∧
        (l.kind = .poll → assoc d.mem.poll l.slot = some (.inl (word x)) ∧ d.r = c.r ∧ d.cnt = c.cnt) ∧
        -- after a word of another accelerator, or one that tells of a grid's end, L1 gives up what it held clean, and keeps nothing that a
        -- load which was asked for earlier brings (R209)
        ((farKeys l.span l.fwd ≠ [] ∨ ∃ k ∈ nearKeys l.span l.fwd, k / 8 ∈ s.news) → l.kind ≠ .poll →
          (∀ y ∈ d.mem.loads, y.keep = false) ∧ (∀ z ∈ d.mem.clean, ∃ k ∈ l.span.keys, k / 32 = z.1) ∧
          ∀ z ∈ d.mem.far, z.key ∈ farKeys l.span l.fwd) ∧
        (∀ r, l.kind = .scalar r → d.cnt = { c.cnt with l := c.cnt.l - 1 } ∧
          match r with
          | some n => d.r = (c.land (.s n (word x))).r ∧ d.pendS = c.pendS &&& ~~~((1 : Word) <<< n)
          | none => d.r = c.r ∧ d.pendS = c.pendS) ∧
        (∀ r, l.kind = .vector r → d.cnt = { c.cnt with l := c.cnt.l - 1 } ∧
          match r with
          | some n => d.r = (c.land (.v n (BitVec.ofNat 2048 x) (BitVec.allOnes 2048))).r ∧ d.pendV = c.pendV &&& ~~~((1 : Word) <<< n)
          | none => d.r = c.r ∧ d.pendV = c.pendV) ∧
        d.pos = c.pos ∧ d.cycle = c.cycle ∧ d.flight = c.flight) ∧
       t.mem = s.mem ∧ t.clusters = s.clusters ∧ ∀ j, j ≠ i → t.core j = s.core j) ∧
  (∀ (s : State) (i id : Nat) (l : LoadOp) (n : Nat), s.powered = true → i < 256 → s.errs = [] → s.mem.wf = true →
     let c := s.core i
     let keys := l.span.keys
     c.phase = .run → (c.mem.loads.find? fun l => l.id == id) = some l → c.mem.loadReady l [] = true →
     l.fwd = [] → keys.Nodup → keys.length = l.n → (∀ k ∈ keys, k < 2 ^ 52 ∧ ∀ d ∈ c.mem.dirty, d.key / 8 ≠ k / 8) →
     let old := ofBytes (keys.map s.mem.get)
     let run := fun new : Nat =>
       ∃ t, exec (.loadDataReturn i id false []) s = .next t ∧
         ofBytes (keys.map t.mem.get) = new % 2 ^ (8 * l.n) ∧ (∀ a, a ∉ keys → t.mem.get a = s.mem.get a) ∧
         (t.core i).r = (c.land (.s n (word old))).r ∧ (t.core i).cnt = { c.cnt with l := c.cnt.l - 1 } ∧
         (t.core i).pendS = c.pendS &&& ~~~((1 : Word) <<< n) ∧ ∀ j, j ≠ i → t.core j = s.core j
     (∀ op v, l.kind = .amo (some n) op v → run (amoNew (8 * l.n) op old v.toNat)) ∧
     (∀ e v, l.kind = .cas (some n) e v → run (if old = e.toNat then v.toNat else old))) ∧
  (∀ (old v : BitVec 32) (p q : BitVec 64),
     (amoNew 32 0 old.toNat v.toNat = (old + v).toNat ∧ amoNew 32 1 old.toNat v.toNat = (old &&& v).toNat ∧
      amoNew 32 2 old.toNat v.toNat = (old ||| v).toNat ∧ amoNew 32 3 old.toNat v.toNat = (old ^^^ v).toNat ∧
      amoNew 32 4 old.toNat v.toNat = (if v.slt old then v else old).toNat ∧ amoNew 32 5 old.toNat v.toNat = (if old.slt v then v else old).toNat ∧
      amoNew 32 6 old.toNat v.toNat = (if v.ult old then v else old).toNat ∧ amoNew 32 7 old.toNat v.toNat = (if old.ult v then v else old).toNat ∧
      amoNew 32 8 old.toNat v.toNat = v.toNat) ∧
     (amoNew 64 0 p.toNat q.toNat = (p + q).toNat ∧ amoNew 64 1 p.toNat q.toNat = (p &&& q).toNat ∧
      amoNew 64 2 p.toNat q.toNat = (p ||| q).toNat ∧ amoNew 64 3 p.toNat q.toNat = (p ^^^ q).toNat ∧
      amoNew 64 4 p.toNat q.toNat = (if q.slt p then q else p).toNat ∧ amoNew 64 5 p.toNat q.toNat = (if p.slt q then q else p).toNat ∧
      amoNew 64 6 p.toNat q.toNat = (if q.ult p then q else p).toNat ∧ amoNew 64 7 p.toNat q.toNat = (if p.ult q then q else p).toNat ∧
      amoNew 64 8 p.toNat q.toNat = q.toNat))

/-- R28, R181, R215, R225: stores and tile stores are performed in L1, where it has room for their lines. A core-path read of a stored byte
gives what was stored and of any other byte what it gave before; home memory does not change; S or T falls. The model's choices in it: log
entries 21, 51, 52. -/
def Obligations.StoresPerformed : Prop :=
  ∀ (s : State) (i : Nat), s.powered = true → i < 256 →
    let c := s.core i
    c.phase = .run → c.mem.loads = [] → c.mem.tlds = [] →
    (∀ st rest, c.mem.stores = st :: rest → c.mem.tsts = [] → (st.bytes.map (·.key)).Nodup → c.mem.roomFor (st.bytes.map (·.key)) →
      (∀ d ∈ st.bytes, d.mask = 0xFF ∧ isRemote d.key = false ∧ d.key < noKey) → s.merging c.uid (st.bytes.map fun d => (d.key, d.key + 1)) = false →
      ∃ t, exec (.storePerformed i) s = .next t ∧
        (∀ d ∈ st.bytes, t.l1Read i false d.key = d.val) ∧
        (∀ a, (∀ d ∈ st.bytes, d.key ≠ a) → t.l1Read i false a = s.l1Read i false a) ∧
        (t.core i).mem.stores = rest ∧ (t.core i).cnt = { c.cnt with s := c.cnt.s - 1 } ∧ (t.core i).r = c.r ∧
        t.mem = s.mem ∧ t.clusters = s.clusters ∧ ∀ j, j ≠ i → t.core j = s.core j) ∧
    (∀ id st, (c.mem.tsts.find? fun t => t.id == id) = some st → c.mem.stores = [] →
      (∀ t ∈ c.mem.tsts, t.id < id → meets t.span.keyRanges st.span.keyRanges = false) →
      let ws := boxWrites st.desc st.box st.ext st.org st.data st.ocnt
      (∀ w ∈ ws, isRemote (st.span.key w.1) = false ∧ st.span.key w.1 < noKey) → (ws.map fun w => st.span.key w.1).Nodup →
      c.mem.roomFor (ws.map fun w => st.span.key w.1) → s.merging c.uid st.span.keyRanges = false →
      ∃ t, exec (.tstSourceRead i id) s = .next t ∧
        (∀ w ∈ ws, t.l1Read i false (st.span.key w.1) = (s.l1Read i false (st.span.key w.1) &&& ~~~w.2.2) ||| (w.2.1 &&& w.2.2)) ∧
        (∀ a, (∀ w ∈ ws, st.span.key w.1 ≠ a) → t.l1Read i false a = s.l1Read i false a) ∧
        (t.core i).mem.tsts = c.mem.tsts.filter (fun x => x.id != id) ∧ (t.core i).cnt = { c.cnt with t := c.cnt.t - 1 } ∧
        (t.core i).r = c.r ∧ t.mem = s.mem ∧ t.clusters = s.clusters ∧ ∀ j, j ≠ i → t.core j = s.core j)

/-- R223, R224: a tile load arrives. The tile takes the box with its type word and escape count, its pending bit clears and T falls; more than
64 escapes leave the tile and raise the outlier fault instead. The model's choices in it: log entries 52, 79. -/
def Obligations.TileLoadArrives : Prop :=
  ∀ (s : State) (i id : Nat) (stale : Bool) (remote : List Byte) (l : TldOp), s.powered = true → i < 256 → s.errs = [] →
    let c := s.core i
    c.phase = .run → (c.mem.tlds.find? fun l => l.id == id) = some l → c.mem.tldReady l remote = true → l.tile < 16 →
    let r := boxTile l.desc l.box l.ext l.org fun va => s.gather i stale l.span l.fwd remote (l.span.key va)
    c.mem.roomFor (({ l.span with ranges := tldUses l r.2 } : Span).keys ++ l.span.keys) →
    ∃ t, exec (.tileLoadArrival i id stale remote) s = .next t ∧
      ((t.core i).mem.tlds.map fun x => { x with asked := true, keep := true }) =
        ((c.mem.tlds.filter fun x => x.id != l.id).map fun x => { x with asked := true, keep := true }) ∧
      (t.core i).cnt = { c.cnt with t := c.cnt.t - 1 } ∧
      (t.core i).pendT = c.pendT &&& ~~~((1 : BitVec 16) <<< l.tile) ∧ t.mem = s.mem ∧ t.clusters = s.clusters ∧
      (r.2 ≤ 64 →
        (t.core i).r = { c.r with t := vset c.r.t l.tile r.1, ty := vset c.r.ty l.tile (setOcnt l.box r.2) } ∧
        (t.core i).asyncs = c.asyncs) ∧
      (64 < r.2 → (t.core i).r = c.r ∧ ∀ x, c.inst = some x → (t.core i).asyncs = c.asyncs ++
        [{ pcc := s.pcc, deferred := false
           cause := { code := 0x0A, synd0 := 0, synd1 := word r.2, synd2 := word l.win, synd3 := word l.slot } }])

/-- R181, R200, R201, R229: L1 performs dirty bytes at their homes, changing exactly the bits that were written, as it writes back a line or
everything, or gives up a line, which it then holds no more; a release takes its place in the synchronisation order, after its writes in
whole 8-byte words are performed. The model's choices in it: log entries 24, 65, 72. -/
def Obligations.WriteBackAndRelease : Prop :=
  ∀ (s : State) (i : Nat), s.powered = true → i < 256 → s.errs = [] →
    let c := s.core i
    s.mem.wf = true → (c.mem.dirty.map (·.key)).Nodup → (∀ d ∈ c.mem.dirty, d.key < 2 ^ 52) →
    let performed := fun (t : State) (p : DirtyByte → Bool) =>
      (t.core i).mem.dirty = c.mem.dirty.filter (fun d => !p d) ∧
      (∀ d ∈ c.mem.dirty, p d = true → t.mem.get d.key = (s.mem.get d.key &&& ~~~d.mask) ||| (d.val &&& d.mask)) ∧
      (∀ a, (∀ d ∈ c.mem.dirty, p d = true → d.key ≠ a) → t.mem.get a = s.mem.get a) ∧
      (t.core i).r = c.r ∧ (t.core i).cnt = c.cnt ∧ ∀ j, j ≠ i → t.core j = s.core j
    (∀ line : Option Nat,
      let p := fun d : DirtyByte => match line with | some l => d.key / 128 == l | none => true
      c.mem.dirty.any p = true →
      ∃ t, exec (.writesPerformedAtScope i line) s = .next t ∧ performed t p ∧ t.sync = s.sync) ∧
    (∀ r rest, c.mem.rels = r :: rest → s.relReady i r = true →
      let o := c.owner i
      ∃ t, exec (.releaseTakesPlace i r.id) s = .next t ∧
        performed t (fun d => c.mem.dirty.any fun e => decide (e.ser < r.id) && e.key / 8 == d.key / 8) ∧
        (t.core i).mem.rels = rest ∧
        t.sync = s.sync ++ [{ acc := s.accNum, agent := i, uid := o.uid, tenant := s.tenant o.part, part := o.part, scope := r.scope
                              kind := .release r.obj }]) ∧
    (∀ line : Nat,
      let t := s.evictLine i line
      performed t (fun d => d.key / 128 == line) ∧ (t.core i).mem.clean = c.mem.clean.filter (fun x => x.1 / 4 != line) ∧
      (t.core i).mem.far = c.mem.far.filter (fun x => x.key / 128 != line) ∧ t.sync = s.sync)

/-- R190 to R192: the walks that a held bundle waits for complete; their translations enter the cluster's TLBs. R190, R191, R193: a walk of a
table. An entry without V, a malformed entry and a local address beyond the package end it with their fault, in that order; a pointer goes
one level down; a leaf translates the whole of its page. The model's choices in it: log entries 20, 51, 73. -/
def Obligations.PageTableWalks : Prop :=
  (∀ (s : State) (i : Nat) (evict : List Nat) (x : Inst), s.powered = true → i < 256 → s.errs = [] →
     let c := s.core i
     c.inst = some x → c.mem.want ≠ [] →
     let res := c.mem.want.map fun p => (p, s.walk x.part (4096 * p))
     let ok := res.filterMap fun r => match r.2 with | .inl t => some t | .inr _ => none
     ∃ t, exec (.tlbWalkComplete i evict) s = .next t ∧
       (t.core i).mem.want = [] ∧ (t.core i).mem.walked = c.mem.walked ++ ok ∧
       (t.core i).mem.walks = c.mem.walks ++ res.filterMap (fun r => match r.2 with | .inr f => some (r.1, some f) | .inl _ => none) ∧
       (t.cluster (i / 4)).tlb = ok ++ (s.cluster (i / 4)).tlb.filter (fun z => !(evict.contains z.va) && !(ok.contains z)) ∧
       (t.core i).r = c.r ∧ (t.core i).pos = c.pos ∧ t.mem = s.mem ∧ ∀ j, j ≠ i → t.core j = s.core j) ∧
  (∀ (s : State) (va level table : Nat), level < 5 →
     let e := word (s.readNat (table + 8 * (va / 2 ^ (12 + 9 * level) % (if level = 4 then 256 else 512))) 8)
     let frame := e.toNat / 2 ^ 12 % 2 ^ 28 * 4096
     let size := 2 ^ (12 + 9 * level) * (if e.getLsbD 3 then 16 else 1)
     let fault := fun k : Nat => s.walkFrom va level table = .inr { kind := k, level := level, entry := e }
     (e.getLsbD 0 = false → fault 0) ∧
     (e.getLsbD 0 = true → malformed s.domain level e = true → fault 3) ∧
     (e.getLsbD 0 = true → malformed s.domain level e = false → e.getLsbD 63 = false → Config.localLimit ≤ frame → fault 4) ∧
     (e.getLsbD 0 = true → malformed s.domain level e = false → (e.getLsbD 63 = true ∨ frame < Config.localLimit) →
       (e.getLsbD 1 = true → 0 < level → s.walkFrom va level table = s.walkFrom va (level - 1) frame) ∧
       (e.getLsbD 1 = false → ∃ t, s.walkFrom va level table = .inl t ∧ t.va = va / size * size ∧ t.size = size ∧ t.pa = frame ∧
         t.write = e.getLsbD 2 ∧ t.level = level ∧ (t.acc = none ↔ e.getLsbD 63 = false) ∧
         ∀ a, e.getLsbD 63 = true → t.acc = some a → a = e.toNat / 2 ^ 49 % 2 ^ 14)))

/-- R213, R338, R341: responses from the fabric. An acknowledgement ends the wait of its write, and gives an add its place where it has none
yet. The exchange that merges bits into a word of another accelerator is answered with what the word held: where that is not what it
expected it goes again, and else it is done. The refusal of a load by an accelerator leaves its register and clears its pending bit; of a
tile load likewise; of a chunk read, the command goes on without the chunk; the refusal of a write becomes one trap when its group is
answered, which names the lowest address refused. The model's choices in it: log entries 21, 22, 23, 35. -/
def Obligations.FabricResponses : Prop :=
  (∀ (s : State) (i id why acc : Nat), s.powered = true → i < 256 → 1 ≤ why → why ≤ 9 →
    let c := s.core i
    let code := why + 16 * acc
    let u := { s with bounced := s.bounced.erase (i, id, code) }
    let rest := s.remote.filter fun q => q.id != id
    (∀ r, (s.remote.find? fun r => r.id == id && r.agent == i && !r.refused && r.access != 0 && r.merge.isNone) = some r →
      let place := r.access = 2 ∧ r.copy = false ∧ r.placed = false
      ∃ t : State, exec (.writeAcknowledgement i id) s = .next ((t.closeGroup r.group).recordAnswered r.group) ∧
        (¬place → t = { s with remote := rest }) ∧
        (place → t = { s with
          remote := rest
          sync := s.sync ++ [{ acc := s.accNum, agent := i, uid := r.own.uid, tenant := s.tenant r.own.part, part := r.own.part, scope := 4
                               kind := .add r.key }] })) ∧
    (∀ r m stale remote, (∀ l ∈ c.mem.loads, l.id ≠ id) → s.mergeOf i id = some (r, m) → remote.length = 8 →
      ∃ t : State, exec (.loadDataReturn i id stale remote) s = .next t ∧ t.mem = s.mem ∧
        (ofBytes remote = m.expect → (∀ q ∈ s.remote, q.id < s.serial) → ∀ q ∈ t.remote, q.id ≠ r.id) ∧
        (ofBytes remote ≠ m.expect →
          t.remote = (s.remote.map fun q => if q.id = r.id then { q with merge := some { m with expect := ofBytes remote } } else q) ∧
          t.cores = s.cores ∧
          ∀ p, r.acc < s.domain → s.routePort r.acc = some p → ∃ f : Flit, (t.port p).outq = (s.port p).outq ++ [(r.id, f.onWire)] ∧
            f.dst = r.acc ∧ f.cls = 2 ∧ f.pa = r.key % 2 ^ 40 ∧ f.agent = i ∧
            f.payload = toBytes 8 (2 ^ 4 + 2 ^ 15) ++ toBytes 8 ((ofBytes remote &&& (2 ^ 64 - 1 - m.mask)) ||| m.val) ++ remote)) ∧
    (∀ r, (s.remote.find? fun r => r.id == id && r.agent == i && r.acc == acc && !r.refused) = some r →
      (r.copy = true → exec (.errorResponseArrival i id code) s = .next ({ u with remote := rest }.refuseCopy r.group why)) ∧
      (r.copy = false → exec (.errorResponseArrival i id code) s =
        .next (((u.markRefused id).closeGroup r.group).recordAnswered r.group))) ∧
    ((s.remote.find? fun r => r.id == id && r.agent == i && r.acc == acc && !r.refused) = none → c.phase = .run → ∀ x, c.inst = some x →
      let load := c.mem.loads.find? fun l => l.id == id && (farKeys l.span l.fwd).any fun k => keyAcc k == acc
      let tld := c.mem.tlds.find? fun l => l.id == id && (l.vaOn acc).isSome
      (∀ l n, load = some l → l.kind = .scalar (some n) →
        ∃ t, exec (.errorResponseArrival i id code) s = .next t ∧ (t.core i).r = c.r ∧
          (t.core i).pendS = c.pendS &&& ~~~((1 : Word) <<< n) ∧ (t.core i).cnt = { c.cnt with l := c.cnt.l - 1 } ∧
          ((t.core i).mem.loads.map fun y => { y with asked := true }) =
            ((c.mem.loads.filter fun y => y.id != l.id).map fun y => { y with asked := true }) ∧ t.mem = s.mem ∧
          (t.core i).asyncs = c.asyncs ++ [{ pcc := s.pcc, deferred := false, cause := keyCause l.va acc 0 l.slot }]) ∧
      (∀ l va, load = none → tld = some l → l.vaOn acc = some va →
        ∃ t, exec (.errorResponseArrival i id code) s = .next t ∧ (t.core i).r = c.r ∧
          (t.core i).pendT = c.pendT &&& ~~~((1 : BitVec 16) <<< l.tile) ∧ (t.core i).cnt = { c.cnt with t := c.cnt.t - 1 } ∧
          ((t.core i).mem.tlds.map fun y => { y with asked := true }) =
            ((c.mem.tlds.filter fun y => y.id != l.id).map fun y => { y with asked := true }) ∧ t.mem = s.mem ∧
          (t.core i).asyncs = c.asyncs ++ [{ pcc := s.pcc, deferred := false, cause := keyCause va acc 0 l.slot }]) ∧
      (∀ r ∈ s.copies, load = none → tld = none → r.id = id → r.e.own.core = i → r.fin = false →
        exec (.errorResponseArrival i id code) s = .next { u with copies := s.copies.map fun q => if q.id = id then q.refuseRead why else q }))) ∧
  (∀ (s : State) (group : Nat), (∀ q ∈ s.remote, q.group = group → q.refused = true) → (∃ q ∈ s.remote, q.group = group) →
    ∃ low ∈ s.remote, low.group = group ∧ (∀ q ∈ s.remote, q.group = group → low.va ≤ q.va) ∧
      (s.closeGroup group).remote = s.remote.filter (fun q => q.group != group) ∧
      ∀ j, (s.closeGroup group).core j =
        let c := s.core j
        if c.inst.isSome && c.uid == low.own.uid && c.phase != .retiring then
          { c with asyncs := c.asyncs ++ [{ pcc := s.pcc, deferred := false, cause := keyCause low.va low.acc low.access low.slot }] }
        else c) ∧
  (∀ (s : State) (group : Nat), (∃ q ∈ s.remote, q.group = group ∧ q.refused = false) → s.closeGroup group = s)

/-! ### The copy engine -/

/-- R236, R237, R242: the head of a channel starts at its time, LATE where the time has passed, while fewer than eight of the channel are in
progress; an ordered command restarts the progress word of its instance and waits for the ordered one ahead. -/
def Obligations.CopyCommandStarts : Prop :=
  ∀ (s : State) (i k : Nat) (e : CopyEntry) (rest : List CopyEntry), s.powered = true → i < 256 → k < 2 →
    let h := vget (s.core i).ch k default
    let late := e.at_ != 0 && decide (e.at_ < (s.pcc : Int))
    h.queue = e :: rest → h.stop = none → ((s.core i).phase = .resuming → (s.core i).uid ≠ e.own.uid) → (e.at_ = 0 ∨ e.at_ ≤ (s.pcc : Int)) →
    (s.copies.filter fun r => r.e.own.core == i && r.ch == k).length < 8 →
    (e.ord = true → ∀ r ∈ s.copies, r.e.own.core = i → r.ch = k → r.e.ord = false) →
    ∃ t, exec (.copyCommandStart i k) s = .next t ∧ t.mem = s.mem ∧
      (vget (t.core i).ch k default).queue = rest ++ h.spilled.take 1 ∧ (vget (t.core i).ch k default).spilled = h.spilled.drop 1 ∧
      (∃ r, t.copies = s.copies ++ [r] ∧ r.e = e ∧ r.ch = k ∧ r.start = s.pcc ∧ r.done = 0 ∧ bit r.status 0 = late ∧
        ((e.kind = .copy ∨ e.kind = .copy2d ∨ e.kind = .gath ∨ e.kind = .scat ∨ e.kind = .cexp ∨ e.kind = .cred) →
          r.status = if late then 1 else 0)) ∧
      (e.ord = true → (s.core i).inst.isSome = true → (s.core i).uid = e.own.uid →
        vget (t.core i).cwp k 0 = word ((fld (vget (s.core i).cwp k 0) 47 32 + 1) % 65536 * 2 ^ 32)) ∧
      ((s.core i).inst = none → (t.core i).cwp = (s.core i).cwp)

/-- R194, R240, R241, R244: a chunk of a local `copy` moves its bytes and no others; where its source does not translate the channel stops
with the syndrome of the fault instead, and after service goes on, or ends the command with FAULT. The model's choices in it: log entries
22, 72, 73, 80. -/
def Obligations.CopyChunks : Prop :=
  ∀ (s : State) (r : CopyRun), s.powered = true → s.errs = [] → s.mem.wf = true →
    let e := r.e
    let n := min 1024 (fld e.rc 31 0 - 1024 * r.done)
    let src := fld e.rb 55 0 + 1024 * r.done
    let dst := fld e.ra 55 0 + 1024 * r.done
    let halt := fun (t : State) (x : Option ChanStop) => t.modCore e.own.core fun c => c.modCh r.ch fun h => { h with stop := x }
    s.run r.id = some r → e.own.core < 256 → r.ch < 2 →
    (s.chunkOk r = true → r.buf = none → e.kind = .copy → bit e.mod 0 = false → 0 < n →
      (∀ from_ into : Nat → Nat,
        (∀ j < n, s.homeOf e .read (src + j) = some (from_ j) ∧ from_ j < 2 ^ 52 ∧ s.homeOf e .write (dst + j) = some (into j) ∧ into j < 2 ^ 52) →
        (∀ j < n, ∀ k < n, into j = into k → j = k) →
        ∃ t, exec (.copyChunkTransfer e.own.core r.ch r.id []) s = .next t ∧
          (∀ j < n, t.mem.get (into j) = s.mem.get (from_ j)) ∧ (∀ a, (∀ j < n, into j ≠ a) → t.mem.get a = s.mem.get a) ∧
          t.cores = s.cores ∧ t.run r.id = some { r with done := r.done + 1, asked := [], fin := r.fin || r.total == some (r.done + 1) }) ∧
      (∀ f, s.copyPage e .read (src / 4096) = .fault f →
        let t := halt s (some { id := r.id, atRec := false, synd0 := word src, synd1 := pageSynd .read f, synd2 := f.entry })
        exec (.copyChannelFault e.own.core r.ch r.id) s = .next t ∧ exec (.copyChunkTransfer e.own.core r.ch r.id []) s = .next t)) ∧
    (∀ st, (vget (s.core e.own.core).ch r.ch default).stop = some st → st.id = r.id → st.atRec = false → fld st.synd1 3 0 ≠ 5 →
      exec (.copyChannelResume e.own.core r.ch true) s = .next (halt s none) ∧
      let ended := (halt s none).setRun (r.finish 256)
      exec (.copyChannelResume e.own.core r.ch false) s = .next (if e.kind = .ssend then ended.sendStream (r.finish 256) [] else ended))

/-- R175, R206, R238, R239, R242, R249: a finished command takes its record's step at once, C falls, its flags are accrued, and FAULT or
NOPERM raises the copy fault; a ring group gets its permit once its slot is released, or the command ends with NOPERM at the deadline; a
release word whose bank refuses the read stops the channel. The model's choices in it: log entries 23, 73. -/
def Obligations.CompletionRecords : Prop :=
  ∀ (s : State) (r : CopyRun), s.powered = true → s.run r.id = some r →
    let e := r.e
    let bad := bit r.status 8 || bit r.status 1
    let ended := fun t : State =>
      t.copies = s.copies.filter (fun q => q.id != r.id) ∧
      ∀ j, t.core j =
        let c := s.core j
        if c.inst.isSome && c.uid == e.own.uid then
          { c with
            cnt := { c.cnt with c := c.cnt.c - 1 }
            drops := { c.lost s.pcc with c := (c.lost s.pcc).c + 1 }
            e := { c.e with fpflags := c.e.fpflags ||| r.flags }
            asyncs := if bad && c.phase != .retiring then
              c.asyncs ++ [{ pcc := s.pcc, deferred := false
                             cause := { code := 0x14, synd0 := word e.record, synd1 := r.status.setWidth 64, synd2 := 0
                                        synd3 := word r.ch } }] else c.asyncs }
        else c
    (s.recordDue r = true → e.ord = false →
      (e.cen = false → ∃ t, exec (.completionRecord e.own.core r.ch r.id 0) s = .next t ∧ ended t ∧ t.mem = s.mem) ∧
      (e.cen = true → s.errs = [] → s.mem.wf = true → e.record % 16 = 0 → e.record < 2 ^ 64 → ∀ k, s.homeOf e .atomic e.record = some k → k + 16 ≤ 2 ^ 52 →
        ∃ t, exec (.completionRecord e.own.core r.ch r.id 0) s = .next t ∧ ended t ∧ s.Recorded t k e.addend (r.status.setWidth 64) ∧
          t.sync = s.sync ++ [{ acc := s.accNum, agent := e.own.core, uid := e.own.uid, tenant := s.tenant e.own.part, part := e.own.part
                                scope := 3, kind := .add k }])) ∧
    (e.kind = .cexp → bit e.mod 0 = true → r.fin = false → (vget (s.core e.own.core).ch r.ch default).stop = none →
      ∀ n, r.total = some n → r.permit < n → s.errs = [] →
      let slots := fld e.ra 29 24
      let limit := fld e.rc 63 32
      let off := fld e.ra 21 0 + 1024 * slots
      let released := ofBytes ((s.cluster (clusterOf e.own.core)).sram.readBytes off 4)
      let bank := (s.cluster (clusterOf e.own.core)).bank (off / 65536)
      (off < 2 ^ 22 → bank.mode = .spad → bank.ready = true →
        (r.permit + 1 ≤ released + slots → (limit = 0 ∨ s.pcc ≤ r.start + limit) →
          exec (.cexpPermitGrant e.own.core r.ch r.id) s = .next (s.setRun { r with permit := r.permit + 1 })) ∧
        (limit ≠ 0 → r.start + limit ≤ s.pcc → (released + slots < r.permit + 1 ∨ r.start + limit < s.pcc) → r.permit ≤ r.done →
          exec (.cexpPermitDeadline e.own.core r.ch r.id) s = .next (s.setRun (r.finish 2)))) ∧
      (off < 2 ^ 22 → (bank.mode ≠ .spad ∨ bank.ready = false) →
        exec (.copyChannelFault e.own.core r.ch r.id) s = .next (s.modCore e.own.core fun c => c.modCh r.ch fun h =>
          { h with stop := some { id := r.id, atRec := false, synd0 := word (Config.windowBase + off), synd1 := word 0x75, synd2 := 0 } })))

/-- R61, R252, R309, R338: the oldest send that a posted receive matches is unified with its box and written through its window, and the
sender is told; or both end with TYPE, the receiver's instance takes a shape fault with REF 2 and nothing is written; more than 64 escapes
end both with OVF; sends that wait 2^24 PCC cycles end with NORECV. What answers a sender: an acknowledgement, or an error response that
carries its status. The model's choices in it: log entries 21, 73. -/
def Obligations.TypedReceives : Prop :=
  (∀ s : State, s.powered = true →
    (∀ (q : Send) (r : CopyRun), s.errs = [] → s.mem.wf = true → (s.sends.find? fun p => p.id == q.id) = some q →
      (s.sends.find? fun p => p.tenant == q.tenant && p.src == q.src && p.tag == q.tag) = some q → s.posting q = some r →
      s.run r.id = some r →
      let d : TileData := BitVec.ofNat 65536 (ofBytes (q.image ++ List.replicate (8192 - q.image.length) 0))
      let n := imageEscapes r.e.desc (geoOf r.e.box r.e.ext) d
      let ws := boxWrites r.e.desc r.e.box r.e.ext r.e.org d n
      let run := (vget (s.core r.e.own.core).ch r.ch default).stop = none
      (∀ er, sendTypes r q.ty = .error er → ∃ t : State, exec (.putMatch q.id) s = .next (t.answerSend q 8) ∧ t.mem = s.mem ∧
        t.clusters = s.clusters ∧ t.sends = s.sends.filter (fun p => p.id != q.id) ∧ t.run r.id = some (r.finish 8) ∧
        fld er.synd0 15 14 = 2 ∧
        ∀ j, t.core j =
          let c := s.core j
          if c.inst.isSome && c.uid == r.e.own.uid && c.phase != .retiring then
            { c with asyncs := c.asyncs ++ [{ pcc := s.pcc, deferred := false
                                              cause := { code := er.code, synd0 := er.synd0, synd1 := er.synd1, synd2 := er.synd2, synd3 := 0 } }] }
          else c) ∧
      (sendTypes r q.ty = .ok () → run → 64 < n →
        exec (.putMatch q.id) s =
          .next (({ s with sends := s.sends.filter fun p => p.id != q.id }.setRun (r.finish 128)).answerSend q 128)) ∧
      (sendTypes r q.ty = .ok () → run → n ≤ 64 → ∀ sp, s.copySpan r.e .write (joinRanges (ws.map fun w => (w.1, 1))) = .ok sp →
        (∀ w ∈ ws, sp.key w.1 < 2 ^ 52) → (ws.map fun w => sp.key w.1).Nodup →
        ∃ t : State, exec (.putMatch q.id) s = .next (t.answerSend q 0) ∧ s.Wrote t (ws.map fun w => (sp.key w.1, w.2)) ∧ t.cores = s.cores ∧
          t.sends = s.sends.filter (fun p => p.id != q.id) ∧ t.run r.id = some (r.finish 0))) ∧
    ((∃ q ∈ s.sends, q.pcc + 2 ^ 24 ≤ s.pcc) → exec .putNorecvTimeout s =
      .next ((s.sends.filter fun q => decide (q.pcc + 2 ^ 24 ≤ s.pcc)).foldl (fun (t : State) q => t.answerSend q 64)
        { s with sends := s.sends.filter fun q => decide (s.pcc < q.pcc + 2 ^ 24) }))) ∧
  (∀ (s : State) (q : Send) (status p : Nat), q.src < s.domain → s.routePort q.src = some p →
    ∃ f : Flit, s.answerSend q status = s.modPort p (fun x => { x with outq := x.outq ++ [(0, f.onWire)] }) ∧
      f.dst = q.src ∧ f.src = s.accNum ∧ f.ten = q.tenant ∧ f.agent = q.agent ∧ f.vch = 1 ∧ f.pa = q.tag ∧
      if status = 0 then f.cls = 4 ∧ f.payload = [] else f.cls = 6 ∧ f.payload = toBytes 2 (Config.sendCode status) ++ toBytes 2 9)

/-! ### Clocks, graphs, repair -/

/-- R172, R285, R301, R304 to R306, R352: grants issue and end; the windows of the governor and of vector charges; ageing; counts and free
entries in transit arrive. Home memory does not change. The model's choices in it: log entries 1, 2, 70. -/
def Obligations.GovernorAndClocks : Prop :=
  ∀ s : State, s.powered = true →
    let calm := fun t : State => t.mem = s.mem ∧ t.pcc = s.pcc ∧ t.copies = s.copies
    (∀ (die : Nat) (q : GrantReq) (cls log : Nat), die < 4 → q.core < 256 →
      let d := s.die die
      let c := s.core q.core
      let cost := if cls = 0 then 1 else if cls = 1 then 4 else 5
      d.queue = [q] → c.grant.pend = some (cls, log) → q.pcc < s.pcc →
      s.unitsHeld die + d.charge + cost ≤ (if d.throttling then d.b / 2 else d.b) + c.unitsHeld s.pcc → d.winUnits + cost ≤ d.d →
      ∃ t, exec (.grantIssue die) s = .next t ∧ calm t ∧
        t.core q.core = { c with grant := { cls := some cls, gend := s.pcc + 2 ^ log, pend := none }, drawn := default } ∧
        t.die die = { d with winUnits := d.winUnits + cost, queue := [] } ∧ ∀ j, j ≠ q.core → t.core j = s.core j) ∧
    ((∃ i < 256, (s.core i).grant.cls.isSome = true ∧ (s.core i).grant.gend ≤ s.pcc) →
      ∃ t, exec .grantExpiry s = .next t ∧ calm t ∧ t.dies = s.dies ∧
        ∀ i, t.core i = let c := s.core i
          if c.grant.cls.isSome && decide (c.grant.gend ≤ s.pcc) then { c with grant := { c.grant with cls := none } } else c) ∧
    (s.pcc % 64 = 0 → s.winAt ≠ s.pcc →
      ∃ t, exec .governorWindow s = .next t ∧ calm t ∧ t.cores = s.cores ∧ t.winAt = s.pcc ∧
        ∀ k < 4, t.die k = { s.die k with winUnits := 0 }) ∧
    (s.pcc % 1024 = 0 → s.heavyAt ≠ s.pcc →
      ∃ t, exec .vectorHeavyCharge s = .next t ∧ calm t ∧ t.heavyAt = s.pcc ∧ (∀ i, i < 256 → t.core i = { s.core i with heavy := 0 }) ∧
        ∀ k < 4, t.die k = { s.die k with charge := 2 * (List.range 64).countP fun j => decide (256 < (s.core (64 * k + j)).heavy) }) ∧
    (s.pcc % 2 ^ 20 = 0 → s.agedAt ≠ s.pcc →
      ∃ t, exec .priorityAging s = .next t ∧ calm t ∧ t.cores = s.cores ∧ t.dies = s.dies ∧ t.agedAt = s.pcc ∧
        ∀ g gr nd, s.graphs = [(g, gr)] → gr.nodes = [nd] → nd.state = .ready → ndKind nd.word ≠ 2 →
          t.graphs = [(g, { gr with nodes := [{ nd with eff := min 3 (ndPri nd.word + (s.pcc - nd.since) / 2 ^ 20) }] })]) ∧
    ((∃ k < 64, ∃ b < 64, ((s.cluster k).bank b).countDue s.pcc = true) →
      ∃ t, exec .fifoCountUpdate s = .next t ∧ calm t ∧ t.cores = s.cores ∧ ∀ k < 64, (t.cluster k).sram = (s.cluster k).sram ∧
        ∀ b < 64, (t.cluster k).bank b = ((s.cluster k).bank b).arrive s.pcc) ∧
    ((∃ k < 4, ∃ x ∈ (s.yelm k).frees, x ≤ s.pcc) →
      ∃ t, exec .yelmQueueFreeEntry s = .next t ∧ calm t ∧ t.cores = s.cores ∧
        ∀ k < 4, t.yelm k = { s.yelm k with frees := (s.yelm k).frees.filter fun x => decide (s.pcc < x) })

/-- R193, R291, R292: launch, cond, wait and signal nodes that are ready take effect; a page fault of a node's word is first serviced, and a
word that cannot be read or written skips the node, marks the graph and is reported to the control node. The model's choices in it: log
entries 10, 30, 33. -/
def Obligations.GraphNodes : Prop :=
  (∀ (s : State) (g n : Nat) (gr : Graph) (nd : Node), s.powered = true → assoc s.graphs g = some gr →
    gr.nodes[n]? = some nd → nd.state = .ready →
    let va := ndAddr nd.word
    let own : Owner := { uid := 0, part := gr.part, graph := g, node := n, idx := 0, core := 260 }
    let now := fun (t : State) (x : NodeState) => (t.node g n).map (fun y => y.state) = some x
    let marked := fun t : State => (assoc t.graphs g).map (fun y => bit y.status 2) = some true
    let faults := fun (i : Instr) => ∃ t : State, exec i s = .next t ∧ now t .skipped ∧ marked t ∧
      ∃ l w, t.unoon.sent = s.unoon.sent ++ l ++ [eventBlock w]
    let asks := s.asks ++ [{ who := .node g n, failed := false }]
    (ndKind nd.word = 0 → ∀ lh im, nd.lh = some lh → assoc s.images (ndImg nd.word) = some im →
      let fits := s.holdable gr.part lh { first := 0, size := max 1 lh.unitSize, saved := [] }
      (fits = true → ∃ t nd', exec (.launchNode g n) s = .next t ∧ t.mem = s.mem ∧ t.cores = s.cores ∧ t.node g n = some nd' ∧
        nd'.state = .running ∧ nd'.word = nd.word ∧ nd'.launch = some
          { lh := lh, windows := im.windows, image := im, total := lh.total, next := 0, gone := 0, redo := [], dead := [], killed := false
            refused := false, left := [] }) ∧
      (fits = false → ∃ t nd' l, exec (.launchNode g n) s = .next t ∧ t.node g n = some nd' ∧ nd'.launch = some l ∧ l.killed = true ∧
        l.refused = true)) ∧
    (s.askOf (.node g n) = none →
      (∀ b, s.errs = [] → s.ridgeRead gr.part va 8 [] = .bytes b →
        (ndKind nd.word = 1 → ∃ t, exec (.condNode g n []) s = .next t ∧ now t (.completed (ofBytes b != 0)) ∧ t.cores = s.cores) ∧
        (ndKind nd.word = 3 → ∃ t : State, exec (.waitNodePoll g n []) s = .next t ∧ t.cores = s.cores ∧
          (t.node g n).bind (fun y => y.polled) = some s.pcc ∧ if ndVal nd.word ≤ ofBytes b then now t (.completed true) else now t .ready)) ∧
      (s.ridgeRead gr.part va 8 [] = .failed →
        (ndKind nd.word = 1 → faults (.condNode g n [])) ∧ (ndKind nd.word = 3 → faults (.waitNodePoll g n []))) ∧
      (s.ridgeRead gr.part va 8 [] = .fault →
        (ndKind nd.word = 1 → exec (.condNode g n []) s = .next { s with asks := asks }) ∧
        (ndKind nd.word = 3 → ∃ t : State, exec (.waitNodePoll g n []) s = .next t ∧ t.asks = asks ∧ now t .ready ∧ t.mem = s.mem))) ∧
    (∀ a, s.askOf (.node g n) = some a → a.failed = true →
      (ndKind nd.word = 1 → faults (.condNode g n [])) ∧ (ndKind nd.word = 3 → faults (.waitNodePoll g n [])) ∧
      (ndKind nd.word = 4 → faults (.signalNode g n))) ∧
    (ndKind nd.word = 4 → va % 8 = 0 → s.askOf (.node g n) = none → s.errs = [] →
      (s.ridgeHome gr.part .atomic va = none → exec (.signalNode g n) s = .next { s with asks := asks }) ∧
      (∀ k, s.ridgeHome gr.part .atomic va = some k →
        (k + 8 ≤ 2 ^ 52 → s.mem.wf = true →
          ∃ u : State, exec (.signalNode g n) s = .next (u.nodeTo g n (.completed true)) ∧ now (u.nodeTo g n (.completed true)) (.completed true) ∧
            u.readNat k 8 = (s.readNat k 8 + ndVal nd.word) % 2 ^ 64 ∧ (∀ a, (a < k ∨ k + 8 ≤ a) → u.mem.get a = s.mem.get a) ∧
            u.sync = s.sync ++ [{ acc := s.accNum, agent := 260, uid := 0, tenant := s.tenant gr.part, part := gr.part, scope := 3
                                  kind := .add k }] ∧ k / 8 ∈ u.news ∧ u.cores = s.cores) ∧
        (isRemote k = true → ∃ t : State, exec (.signalNode g n) s = .next t ∧ t.mem = s.mem ∧ t.cores = s.cores ∧ now t .running ∧
          ∃ r ∈ t.remote, r.own = own ∧ r.agent = 260 ∧ r.key = k ∧ r.access = 2 ∧ r.acc = k / 2 ^ 52 - 1)))) ∧
  (∀ (s : State) (a : Ask), s.powered = true → s.asks.find? (fun a => !a.failed) = some a →
    exec (.pageFaultService 260 true) s = .next { s with asks := s.asks.filter fun b => b.who != a.who } ∧
    exec (.pageFaultService 260 false) s = .next { s with asks := s.asks.map fun b => if b = a then { b with failed := true } else b })

/-- R209, R293, R299, R371: while nodes launch a pass or end; a quiet grid and a finished graph take their records' steps. The model's choices
in it: log entries 10, 29, 30, 71. -/
def Obligations.WhileAndRecords : Prop :=
  ∀ (s : State) (g n : Nat) (gr : Graph) (nd : Node), s.powered = true → assoc s.graphs g = some gr → gr.nodes[n]? = some nd →
    let place := fun k : Nat => [({ acc := s.accNum, agent := 260, uid := 0, tenant := s.tenant gr.part, part := gr.part, scope := 3
                                    kind := .add k } : SyncEvent)]
    (∀ body, ndKind nd.word = 2 → (nd.state = .ready ∨ nd.state = .running) → gr.nodes[ndBody nd.word]? = some body →
      body.launch = none → ndBody nd.word ≠ n → bit gr.status 1 = false → s.askOf (.node g n) = none →
      let read := s.ridgeRead gr.part (ndAddr nd.word) 8 []
      let ends := fun (t : State) (x : NodeState) => exec (.whileNode g n []) s = .next t ∧ (t.node g n).map (fun y => y.state) = some x
      (read = .fault → exec (.whileNode g n []) s = .next { s with asks := s.asks ++ [{ who := .node g n, failed := false }] }) ∧
      (read = .failed → ∃ t : State, ends t .skipped ∧ (assoc t.graphs g).map (fun y => bit y.status 2) = some true) ∧
      (∀ b, read = .bytes b → s.errs = [] →
        let w := ofBytes b
        let lh := passHeader (body.lh.getD default) w
        let refused := 2 ^ 63 ≤ w ∧ (w / 2 ^ 39 % 2 ^ 24 ≠ 0 ∨ lh.cutOk (s.placeable gr.part).length = false)
        (w < 2 ^ 63 → ∃ t : State, ends t (.completed true)) ∧
        (refused → ∃ t : State, ends t (.completed true)) ∧
        (refused → ndRec body.word ≠ 0 → s.mem.wf = true → ndRec body.word % 16 = 0 →
          ∀ k, s.ridgeHome gr.part .atomic (ndRec body.word) = some k → k + 16 ≤ 2 ^ 52 →
          ∃ u : State, exec (.whileNode g n []) s = .next (u.nodeTo g n (.completed true)) ∧ s.Recorded u k 1 2 ∧ u.sync = s.sync ++ place k) ∧
        (∀ im, 2 ^ 63 ≤ w → w < 2 ^ 64 → w / 2 ^ 39 % 2 ^ 24 = 0 → lh.cutOk (s.placeable gr.part).length = true →
          assoc s.images (ndImg body.word) = some im → s.holdable gr.part lh { first := 0, size := max 1 lh.unitSize, saved := [] } = true →
          ∃ t : State, ends t .running ∧ t.mem = s.mem ∧
            (t.node g (ndBody nd.word)).map (fun y => (y.state, y.since, y.launch)) = some (.running, s.pcc, some (newLaunch lh im))))) ∧
    (s.errs = [] → ∀ l, nd.launch = some l → nd.sent = false → s.gridQuiet g n l = true → (bodies gr.nodes).contains n = false →
      let status := word ((if l.killed then 1 else 0) + if l.refused then 2 else 0)
      let done := fun t : State => (t.node g n).map (fun y => (y.state, y.launch)) = some (.completed true, none) ∧
        (l.killed = true → (assoc t.graphs g).map (fun y => bit y.status 0) = some true)
      (ndRec nd.word = 0 → ∃ t, exec (.gridCompletion g n) s = .next t ∧ done t) ∧
      (ndRec nd.word ≠ 0 → s.mem.wf = true → ndRec nd.word % 16 = 0 → ∀ k, s.ridgeHome gr.part .atomic (ndRec nd.word) = some k →
        k + 16 ≤ 2 ^ 52 →
        ∃ u : State, exec (.gridCompletion g n) s = .next (u.closeGrid g n) ∧ done (u.closeGrid g n) ∧ s.Recorded u k 1 status ∧
          u.sync = s.sync ++ place k)) ∧
    (s.errs = [] → gr.endNode = n → ndKind nd.word = 5 → nd.state = .ready → gr.sent = false → s.ridgePending g = false → s.mem.wf = true →
      gr.record % 16 = 0 → gr.record < 2 ^ 56 → ∀ k, s.ridgeHome gr.part .atomic gr.record = some k → k + 16 ≤ 2 ^ 52 →
      ∃ t, exec (.endNode g) s = .next t ∧ assoc t.graphs g = none ∧ s.Recorded t k 1 (gr.status.setWidth 64) ∧ t.cores = s.cores ∧
        t.sync = s.sync ++ place k)

/-- R18, R38, R300, R302, R328: a unit of one instance is placed on the lowest core it may take and starts there; a unit that the partition
can never hold ends its launch. The model's choices in it: log entry 33. -/
def Obligations.InstanceStarts : Prop :=
  ∀ (s : State) (part : Nat) (spr : List Word) (r : Ready) (u : UnitReq), s.powered = true → s.plans = [] →
    s.firstReady part = some (r, u) → s.unitClear r.graph r.node u = true → u.saved = [] →
    (u.size = 1 → unitLevels r.la.lh 1 = [] → ∀ owns cores, u.placeOn r.la.lh owns cores = cores.head?.map fun c => [(u.first, c)]) ∧
    (∀ i, i < 256 → u.placeOn r.la.lh (s.owns part) (s.freeCores part) = some [(u.first, i)] →
      ∃ t, exec (.instanceDispatch part spr) s = .next t ∧ t.mem = s.mem ∧ (∀ j, j ≠ i → t.core j = s.core j) ∧
        let d := t.core i
        d.phase = .run ∧ d.r = { Regs.start with s := vset Regs.start.s 1 r.la.lh.arg } ∧ d.e = Engine.start ∧ d.pos = r.la.image.entry ∧
        d.dict = r.la.image.dict ∧ d.stream = r.la.image.stream ∧ d.cycle = 0 ∧ d.wake = s.pcc ∧ d.wid = r.la.lh.wid u.first ∧
        d.inst = some { uid := s.serial + 1, part := s.graphPart r.graph, graph := r.graph, node := r.node, idx := u.first
                        wid := r.la.lh.wid u.first, lh := r.la.lh, windows := r.la.windows, entry := r.la.image.entry }) ∧
    (u.placeOn r.la.lh (s.owns part) (s.freeCores part) = none → s.holdable part r.la.lh u = false →
      exec (.instanceDispatch part spr) s = .next (s.endLaunch r.graph r.node))

/-- R184, R189, R327, R328, R374: spares take over with their reports, and a core without one ends the launches that no longer fit; errors
strike and are scrubbed; dies throttle, and a die at 110 degrees kills its instances, reports and takes no more. The model's choices in
it: log entries 10, 11, 33, 38, 70, 72. -/
def Obligations.RepairErrorsThermal : Prop :=
  ∀ s : State, s.powered = true →
    let kept := fun t : State => t.mem = s.mem ∧ t.cores = s.cores
    (∀ i, i < 256 → (s.core i).spareReady = true →
      let left := (s.die (dieOf i)).spareCores
      let part := s.partOfCore i
      (0 < left → ∃ t, exec (.coreSpareTakeover i) s = .next t ∧ t.mem = s.mem ∧ t.core i = { s.core i with spareDue := false } ∧
        (∀ j, j ≠ i → t.core j = s.core j) ∧ (t.die (dieOf i)).spareCores = left - 1 ∧ s.Reported t 1 (dieOf i) i (left - 1) part) ∧
      (left = 0 → ∃ u t : State, exec (.coreSpareTakeover i) s = .next t ∧ t = u.endUnheld part ∧ s.Reported u 2 (dieOf i) i 0 part ∧
        u.core i = { s.core i with spareDue := false, unplaceable := true } ∧ (∀ j, j ≠ i → u.core j = s.core j) ∧ u.graphs = s.graphs ∧
        (t.core i).unplaceable = true ∧ (t.core i).spareDue = false ∧
        ∀ g gr n nd l, assoc s.graphs g = some gr → gr.part = part → gr.nodes[n]? = some nd → nd.launch = some l →
          u.unheld part g n l = true → ∃ nd' l', t.node g n = some nd' ∧ nd'.launch = some l' ∧ l'.killed = true ∧ l'.refused = true)) ∧
    (∀ die slice, die < 4 → slice < 160 → 0 < (s.die die).spareSlices → s.errs = [] →
      ∃ t, exec (.sliceSpareTakeover die slice) s = .next t ∧ kept t ∧ (t.die die).spareSlices = (s.die die).spareSlices - 1 ∧
        (∀ x, x ∈ t.l2 → x ∈ s.l2 ∧ (l2Place x.line).1 ≠ 160 * die + slice) ∧
        s.Reported t 3 die slice ((s.die die).spareSlices - 1) 255) ∧
    (∀ stack, stack < 16 →
      (∀ bank, ∃ t left, exec (.hbmRowBankSpare stack bank) s = .next t ∧ kept t ∧ t.errs = s.errs ∧
        s.Reported t (if bank then 6 else 5) (stack / 4) stack left 255) ∧
      (vget s.reserve stack false = true → ∃ t, exec (.pseudoChannelReplace stack) s = .next t ∧ kept t ∧
        vget t.reserve stack false = false ∧ s.Reported t 7 (stack / 4) stack 0 255)) ∧
    (s.ridgeDie = 0 → ∃ t, exec .ridgeTakeover s = .next t ∧ kept t ∧ t.ridgeDie = 2 ∧ t.graphs = s.graphs ∧ s.Reported t 8 0 0 0 255) ∧
    (∀ pa stack bits, pa < Config.localLimit → stack < 16 → 1 ≤ bits → s.errs = [] →
      (∃ t, exec (.softError (.home pa stack) bits) s = .next t ∧ kept t ∧ t.errs = [{ place := .home pa stack, bits := bits }]) ∧
      ∀ u, u = { s with errs := [{ place := .home pa stack, bits := bits }] } →
        ∃ t, exec (.scrub pa) u = .next t ∧ kept t ∧
          (bits = 1 → t.errs = [] ∧ t.errCount = { s.errCount with single := s.errCount.single + 1 } ∧
            s.Reported t 11 (stack / 4) (256 * stack + 0x12) 0 255) ∧
          (2 ≤ bits → t.errs = u.errs ∧ t.errCount = { s.errCount with double := s.errCount.double + 1 } ∧
            ∃ w, t.unoon.sent = s.unoon.sent ++ [eventBlock w])) ∧
    (∀ die temp, die < 4 → temp < 256 →
      let d := s.die die
      let hot := fun i : Instr => ∃ t : State, exec i s = .next t ∧ (t.die die).shut = true ∧
        (t.die die).temp = temp ∧ (∃ l w, t.unoon.sent = s.unoon.sent ++ l ++ [eventBlock w]) ∧
        ∀ i, i < 256 → dieOf i = die → t.coreFree i = false ∧
          ∀ x, (s.core i).inst = some x → s.launch x.graph x.node ≠ none → (t.core i).phase = .idle ∨ (t.core i).phase = .retiring
      (d.throttling = false → d.throttleAt ≤ temp → (temp < 110 ∨ d.shut = true) → ∃ t, exec (.throttleEntry die temp) s = .next t ∧ kept t ∧
        t.die die = { d with temp := temp, throttling := true }) ∧
      (d.throttling = false → d.throttleAt ≤ temp → 110 ≤ temp → d.shut = false → hot (.throttleEntry die temp)) ∧
      (d.throttling = true → temp + 5 ≤ d.throttleAt → ∃ t, exec (.throttleExit die temp) s = .next t ∧ kept t ∧
        t.die die = { d with temp := temp, throttling := false }) ∧
      (110 ≤ temp → d.shut = false → hot (.overtempShutdown die temp)))

/-! ### Ports, reduction trees, Yelm -/

/-- R331, R332, R334, R335, R337 to R339, R342: links and lanes; a request that arrives is refused, fences its tenant, or is accepted: one to
home memory is performed, and its answer waits; a later flit shares the fate of its message; an error response is never checked. R207,
R336, R340: routers count writes and release markers, a complete epoch is heard by its release, and a round of a queue sends, answers,
passes on or delivers what its deficits cover. The model's choices in it: log entries 10, 15, 21, 34, 35, 39, 69, 75. -/
def Obligations.PortsFencesShares : Prop :=
  (∀ (s : State) (p lane : Nat), s.powered = true → p < 48 →
     let q := s.port p
     let still := fun t : State => t.mem = s.mem ∧ t.cores = s.cores
     let others := fun t : State => still t ∧ ∀ k, k ≠ p → t.port k = s.port k
     let errors := (q.corr[lane]?).getD 0 + 1
     let down := { q with lanes := q.lanes - 1, inq := [], outq := [], deficit := [] }
     let retired := fun (i : Instr) (corr : List Nat) =>
       (q.spare = true → ∃ t, exec i s = .next t ∧ others t ∧ t.port p = { q with spare := false, corr := corr.set lane 0 } ∧
         s.Reported t 4 (p / 12) p 0 255) ∧
       (q.spare = false → 2 < q.lanes → ∃ t, exec i s = .next t ∧ others t ∧
         t.port p = { q with lanes := q.lanes - 1, corr := corr.eraseIdx lane }) ∧
       (q.spare = false → q.lanes ≤ 2 → (∀ x ∈ s.sends, x.port ≠ p) → (∀ x ∈ s.partials, x.port ≠ p) →
         (q.inq = [] → (∀ x ∈ q.outq, x.2.src = s.accNum) → ∃ t : State, exec i s = .next t ∧ others t ∧
           t.port p = { down with corr := corr.eraseIdx lane } ∧ (t.port p).up = false ∧
           ∀ x ∈ q.outq, flIsRequest x.2 = true → (x.2.agent, x.1, 9 + 16 * x.2.dst) ∈ t.bounced) ∧
         (∀ f a o, q.inq = [(f, a)] → q.outq = [] → (a = none → flIsRequest f = true) → f.src < s.domain → s.routePort f.src = some o → o ≠ p →
           ∃ (t : State) (z : Flit), exec i s = .next t ∧ still t ∧ (t.port p).inq = [] ∧
             (t.port o).outq = (s.port o).outq ++ [(0, z.onWire)] ∧ z.dst = f.src ∧ z.agent = f.agent ∧ z.ten = f.ten ∧
             (z.cls, z.payload) = a.getD (6, toBytes 2 9 ++ toBytes 2 f.cls)))
     (lane < q.lanes →
       retired (.laneSwitch ⟨p, lane⟩) q.corr ∧
       (q.up = true → q.thresh < errors → retired (.flitCrcRetry ⟨p, lane⟩) (q.corr.set lane errors)) ∧
       (q.up = true → errors ≤ q.thresh → ∃ t, exec (.flitCrcRetry ⟨p, lane⟩) s = .next t ∧ others t ∧
         t.port p = { q with corr := q.corr.set lane errors })) ∧
     (∀ (f : Flit) (excess : Bool), q.up = true →
       let g := { f.onWire with ten := (q.tenantOf f.onWire).getD f.onWire.ten }
       let back := fun (code : Nat) =>
         ({ dst := g.src, src := s.accNum, ten := g.ten, ktag := (assoc s.outKeys g.ten).getD 0, cls := 6, tyw := false, agent := g.agent
            epoch := g.epoch, len := 4, vch := 1, pa := g.pa, payload := toBytes 2 code ++ toBytes 2 g.cls } : Flit)
       let o := if q.native then (if g.src < s.domain then s.routePort g.src else none) else some p
       let answers := fun (t : State) (code : Nat) => ∀ r, o = some r → (t.port r).outq = (s.port r).outq ++ [(0, (back code).onWire)]
       let run := exec (.portRequestCheck p ⟨f, excess⟩) s
       let fences := ∃ t, run = .next t ∧ still t ∧ answers t 7 ∧ g.ten ∈ (t.port p).fenced ∧
         ((t.port p).countsOf g.ten).errors = (q.countsOf g.ten).errors + 1 ∧ ∃ w, t.unoon.sent = s.unoon.sent ++ [eventBlock w]
       let accepted := run = .next (s.modPort p fun x => { x with inq := q.inq ++ [(g, none)] })
       let refused := fun code : Nat => ∃ t, run = .next t ∧ still t ∧ answers t code ∧
         ((t.port p).countsOf g.ten).refused = (q.countsOf g.ten).refused + 1
       let wrong := excess || flMalformed g
       let shut := q.fenced.contains g.ten
       (g.cls = 6 → accepted) ∧
       (g.cls ≠ 6 → (flIsAnswer g = true ∨ (g.dst ≠ s.accNum ∧ g.dst < s.domain)) →
         (wrong = true → fences) ∧ (wrong = false → shut = true → refused 7) ∧ (wrong = false → shut = false → accepted)) ∧
       (flIsAnswer g = false → (g.dst = s.accNum ∨ s.domain ≤ g.dst) →
         let open_ := s.openMessage p g
         (q.native = true → flLater g = true →
           (wrong = true → open_ = false → fences) ∧ (wrong = false → shut = true → open_ = false → refused 7) ∧
           (wrong = false → shut = false → open_ = true → accepted) ∧ (wrong = false → shut = false → open_ = false → run = .next s)) ∧
         ((q.native = false ∨ flLater g = false) →
           (∀ code, s.judge q g excess = .refuse code → refused code) ∧
           (s.judge q g excess = .fence → fences) ∧
           (s.judge q g excess = .serve →
             (2 < g.cls → accepted) ∧
             (s.errs = [] →
               let waits := fun (t : State) (cls : Nat) (pl : List Byte) => run = .next t ∧ t.cores = s.cores ∧
                 (t.port p).inq = q.inq ++ [(g, some (cls, pl))] ∧ (t.port p).outq = q.outq ∧ ∀ k, k ≠ p → t.port k = s.port k
               (g.cls = 0 → ∃ t, waits t 3 ((List.range g.len).map fun j => s.mem.get (g.pa + j)) ∧ t.mem = s.mem) ∧
               (g.cls = 1 → s.mem.wf = true → ∃ t, waits t 4 [] ∧
                 s.Wrote t ((flMaskBytes g).map fun j => (g.pa + j, (g.payload.drop (16 + j)).headD 0, 0xFF))) ∧
               (g.cls = 2 → s.mem.wf = true → flAtomicOk g = true →
                 (bit (BitVec.ofNat 16 (flCtl g)) 14 = false →
                   let n := flAtomicBytes g
                   let old := s.readNat g.pa n
                   ∃ t, waits t 5 (toBytes n old) ∧ t.readNat g.pa n = flNewValue g old % 2 ^ (8 * n) ∧
                     ∀ a, (a < g.pa ∨ g.pa + n ≤ a) → t.mem.get a = s.mem.get a) ∧
                 (bit (BitVec.ofNat 16 (flCtl g)) 14 = true →
                   ∃ t : State, waits t 5 [] ∧
                     t.sync = s.sync ++
                       [{ acc := g.src, agent := g.agent, uid := 0, tenant := g.ten, part := 0, scope := 4, kind := .add g.pa }] ∧
                     s.Recorded t g.pa (word (ofBytes ((g.payload.drop 8).take 8))) (word (ofBytes ((g.payload.drop 16).take 8))))))))))) ∧
  (∀ s : State, s.powered = true →
     (∀ (die p : Nat) (f : Flit), die < 4 → p / 12 = die → ((s.die die).markers.find? fun m => m.2 == f) = some (p, f) →
       ∃ t, exec (.releaseMarker die f) s = .next t ∧ t.mem = s.mem ∧ t.cores = s.cores ∧
         (t.die die).markers = (s.die die).markers.erase (p, f) ∧
         ∃ c ∈ (t.die die).fences, c.port = p ∧ c.src = f.src ∧ c.agent = f.agent ∧ c.epoch = f.epoch ∧
           c.marker = some (ofBytes (f.payload.take 4))) ∧
     (∀ (die src agent epoch : Nat) (c : FenceCount), die < 4 →
       ((s.die die).fences.find? fun c => c.src == src && c.agent == agent && c.epoch == epoch && c.done) = some c →
       let heard := fun r : RelOp =>
         if r.agent = agent ∧ r.epoch = some epoch then { r with routes := r.routes.filter fun z => z.1 != c.port } else r
       let upd := fun m : CoreMem => { m with rels := m.rels.map heard }
       ∃ t, exec (.releaseCompletion die src agent epoch) s = .next t ∧ t.mem = s.mem ∧ (t.die die).fences = (s.die die).fences.erase c ∧
         (∀ i, t.core i = let x := s.core i; { x with mem := upd x.mem }) ∧
         (t.saved = s.saved.map fun v => { v with core := { v.core with mem := upd v.core.mem } }) ∧
         t.oldRels = s.oldRels.map fun z => { z with rel := heard z.rel }) ∧
     (∀ p : Nat, p < 48 → (s.port p).up = true → (s.port p).shares = [] →
       let q := s.port p
       (∀ (id : Nat) (f : Flit), q.outq = [(id, f)] →
         let d := s.die (p / 12)
         let e := ((d.fences.find? fun c => c.port == p && c.src == f.src && c.agent == f.agent && c.epoch == f.epoch).map fun c => c.passed).getD 0
         ∃ t, exec (.deficitRound p 0) s = .next t ∧ t.mem = s.mem ∧ t.cores = s.cores ∧ (t.port p).outq = [] ∧
           (t.port p).flits = (q.flits + 1) % 2 ^ 20 ∧ ((t.port p).countsOf f.ten).outFlits = (q.countsOf f.ten).outFlits + 1 ∧
           (f.cls = 7 → (t.die (p / 12)).markers = d.markers ++ [(p, f)]) ∧
           (f.cls = 1 → q.native = true → ∃ c ∈ (t.die (p / 12)).fences,
             c.port = p ∧ c.src = f.src ∧ c.agent = f.agent ∧ c.epoch = f.epoch ∧ c.passed = e + 1)) ∧
       (∀ (g : Flit) (x : Option (Nat × List Byte)), q.inq = [(g, x)] →
         let served := fun t : State => exec (.deficitRound p 1) s = .next t ∧ t.mem = s.mem ∧ t.cores = s.cores ∧
           (t.port p).inq = [] ∧ ((t.port p).countsOf g.ten).inFlits = (q.countsOf g.ten).inFlits + 1
         let o := if q.native then (if g.src < s.domain then s.routePort g.src else none) else some p
         (∀ cls pl, x = some (cls, pl) → ∃ t, served t ∧ ∀ r, o = some r → (t.port r).outq = (s.port r).outq ++ [(0, (
           { dst := g.src, src := s.accNum, ten := g.ten, ktag := (assoc s.outKeys g.ten).getD 0, cls := cls, tyw := false, agent := g.agent
             epoch := g.epoch, len := pl.length, vch := 1, pa := g.pa, payload := pl } : Flit).onWire)]) ∧
         (∀ r, x = none → g.dst ≠ s.accNum → s.routePort g.dst = some r →
           ∃ t, served t ∧ (t.port r).outq = (s.port r).outq ++ [(0, g.onWire)]) ∧
         (x = none → g.dst = s.accNum → g.cls = 9 → (∀ m ∈ s.partials, m.of p g = false) →
           let ty : TypeWord := BitVec.ofNat 128 (ofBytes (g.payload.take 16))
           (imageSize ty + 16 ≤ g.payload.length → ∃ t, served t ∧ t.partials = s.partials ∧ ∃ z : Send, t.sends = s.sends ++ [z] ∧
             z.port = p ∧ z.tenant = g.ten ∧ z.src = g.src ∧ z.agent = g.agent ∧ z.tag = g.pa % 2 ^ 16 ∧ z.ty = ty ∧
             z.image = g.payload.drop 16 ∧ z.pcc = s.pcc) ∧
           (g.payload.length < imageSize ty + 16 → ∃ t, served t ∧ t.sends = s.sends ∧ t.partials = s.partials ++
             [{ port := p, tenant := g.ten, src := g.src, agent := g.agent, cls := 9, tag := g.pa, bytes := g.payload }])))))

/-- R193, R343 to R347: a stage of a reduction tree merges the streams of its inputs that agree in their parameters, into rising indices; the
root writes its buffer where it translates, and every leaf learns how its round ended. R345: values of one index are summed in the order
of the inputs, the running sum on the left; a zero that a sum formed is dropped under DZ. R346: segment g is dense where its fill passes
THR or it has more than 4,096 entries, or where it was dense in an input, and drops nothing then. The model's choices in it: log entries
15, 36. -/
def Obligations.ReductionTrees : Prop :=
  (∀ (s : State) (tr : Tree) (round : Nat), s.powered = true → (s.trees.find? fun t => t.num == tr.num) = some tr →
    (∀ (stage : Nat) (st : TreeNode) (ins : List Machine.Stream) (p : Machine.Stream), tr.stages[stage]? = some st →
      s.stageIns tr stage round = some ins → ins.head? = some p → st.acc = s.accNum →
      let up := st.parent.getD rootStage
      let rest := s.streams.filter fun x => !(x.tree == tr.num && x.round == round && x.stage == stage)
      (st.parent = none ∨ ∃ g, tr.stages[up]? = some g ∧ g.acc = s.accNum) →
        (∃ t, exec (.combStreamMerge tr.num stage round) s = .next t ∧ t.mem = s.mem ∧ t.cores = s.cores ∧
          t.streams = rest ++ stageOuts up st.inp ins) ∧
        ((∀ x ∈ ins, x.agrees p = true) → stageOuts up st.inp ins =
          [{ p with stage := up, inp := st.inp, segs := mergeStreams p.vf p.dz p.thr (ins.map fun x => x.segs)
                    marks := ins.flatMap fun x => x.marks, left := 0 }])) ∧
    (∀ x, tr.lead (s.streams.filter fun x => x.tree == tr.num && x.round == round && x.stage == rootStage) = some x →
      let all := s.streams.filter fun x => x.tree == tr.num && x.round == round && x.stage == rootStage
      let y := fitRecords tr.cap x.segs 8
      let body := y.1.flatMap id
      let marks := x.marks ++ (all.filter fun z => !z.agrees x).flatMap fun z => z.marks.map fun m => (m.1, m.2 ||| 32)
      let status := fun (a : Nat) (base : BitVec 9) => (marks.filter fun m => m.1 == a).foldl (fun b m => b ||| m.2) base
      let ended := fun (t : State) (base : BitVec 9) => exec (.combRootOutput tr.num round) s = .next t ∧ t.cores = s.cores ∧
        (t.streams = s.streams.filter fun x => !(x.tree == tr.num && x.round == round && x.stage == rootStage)) ∧
        (∀ l ∈ tr.leaves, l.acc = s.accNum → ∀ r ∈ s.copies, r.e.kind = .ssend → fld r.e.rc 47 32 = tr.num → r.idx = round → r.fin = false →
          r.total = some r.done → r.finish (status s.accNum base) ∈ t.copies) ∧
        (∀ l ∈ tr.leaves, l.acc ≠ s.accNum → l.acc < s.domain → ∀ o, s.routePort l.acc = some o → ∃ z : Flit, (0, z.onWire) ∈ (t.port o).outq ∧
          z.dst = l.acc ∧ z.cls = 11 ∧ z.payload = toBytes 4 (status l.acc base).toNat)
      let place := s.rootPlace tr.part x.ra.toNat (8 + body.length)
      let asked := s.askOf (.comb tr.num round)
      (∀ ks, place = .keys ks → ks.Nodup → (∀ k ∈ ks, k < 2 ^ 52) → s.mem.wf = true →
        ∃ t, ended t (if y.2 then 32 else 0) ∧ ks.map t.mem.get = toBytes 8 (y.1.length ||| (8 + body.length) <<< 32) ++ body ∧
          ∀ a, a ∉ ks → t.mem.get a = s.mem.get a) ∧
      (place = .none → ∃ t, ended t 256 ∧ t.mem = s.mem) ∧
      (place = .fault → asked = none →
        exec (.combRootOutput tr.num round) s = .next { s with asks := s.asks ++ [{ who := .comb tr.num round, failed := false }] }) ∧
      (∀ a, place = .fault → asked = some a → a.failed = true → ∃ t, ended t 256 ∧ t.mem = s.mem))) ∧
  (∀ (up inp : Nat) (ins : List Machine.Stream) (x : Machine.Stream), x ∈ ins →
    let mine := ins.filter fun z => z.agrees x
    ∃ y ∈ stageOuts up inp ins, y.agrees x = true ∧ y.segs = mergeStreams x.vf x.dz x.thr (mine.map fun z => z.segs) ∧
      y.marks = mine.flatMap fun z => z.marks) ∧
  (∀ vf dz thr ins, ((mergeStreams vf dz thr ins).flatMap fun x => x.entries.map (·.1)).Pairwise (· < ·)) ∧
  ∀ (vf dz : Bool) (thr : Nat) (ins : List (List Segment)) (g : Nat),
    let f := if vf then bf16 else fp32
    let vals := fun i : Nat => ((ins.flatMap fun segs => segs.flatMap fun x => x.entries).filter fun e => e.1 == i).map (·.2)
    let add := fun a b : BitVec 32 => BitVec.ofNat 32 (f.round .rne (exactSum .rne [f.decode a.toNat, f.decode b.toNat])).1
    let sum := fun i : Nat => (vals i).tail.foldl add ((vals i).headD 0)
    let wasDense := ins.any fun segs => segs.any fun x => x.dense && x.first / 65536 == g
    let zero := fun x : BitVec 32 => x.toNat % 2 ^ (if vf then 15 else 31) == 0
    let kept := ((List.range 65536).map fun k => 65536 * g + k).filter fun i =>
      !(vals i).isEmpty && !(dz && !wasDense && decide (1 < (vals i).length) && zero (sum i))
    let lo := kept.headD 0
    let n := kept.getLastD 0 - lo + 1
    let dense := wasDense || decide (thr * n < 256 * kept.length) || decide (4096 < kept.length)
    (mergeStreams vf dz thr ins).filter (fun x => x.first / 65536 == g) =
      if kept = [] then []
      else [{ dense := dense, first := lo
              entries := if dense then (List.range n).map fun k => (lo + k, if kept.contains (lo + k) then sum (lo + k) else 0)
                else kept.map fun i => (i, sum i) }]

/-- R352 to R356: entries leave the queue of a die: a step opens, an affinity is taken, a full step closes, a deadline closes a step that is
not. R349, R355, R357 to R362: what a step selects; its outputs and its add; user routers and takeover. What a router's RISC-V instruction
does is the RISC-V ISA's (log entry 12), the effects of its accesses are those of R349. The model's choices in it: log entries 10, 12, 13,
14, 37. -/
def Obligations.YelmSteps : Prop :=
  (∀ (s : State) (die : Nat), s.romServes die = true →
     let y := s.yelm die
     let popped := fun z : Yelm => { z with queue := y.queue.tail, frees := y.frees ++ [s.pcc + 8] }
     (∀ w rest, y.queue = w :: rest → entOpen w = true →
       (entMal w = true → ∃ t, exec (.stepOpen die []) s = .next t ∧ t.mem = s.mem ∧ t.yelm die = popped { y with noStep := y.noStep + 1 }) ∧
       (entMal w = false → y.openSteps.length < 4 → y.readErr = false →
         let read := s.ridgeRead (y.part.getD 0) (fld w 119 64) 64 []
         ((read = .failed ∨ read = .fault) → ∃ t : State, exec (.stepOpen die []) s = .next t ∧ t.mem = s.mem ∧
           t.yelm die = popped { y with noStep := y.noStep + 1 } ∧ ∃ l x, t.unoon.sent = s.unoon.sent ++ l ++ [eventBlock x]) ∧
         (∀ b, read = .bytes b → s.errs = [] →
           let d : WindowWord := BitVec.ofNat 512 (ofBytes b)
           let st := stepOf s.serial (entStep w) d
           (stepBad (fld w 119 64) d y st = false → ∃ t, exec (.stepOpen die []) s = .next t ∧ t.mem = s.mem ∧ t.cores = s.cores ∧
             t.yelm die = popped { y with steps := y.steps ++ [st] }) ∧
           (stepBad (fld w 119 64) d y st = true → s.yelmStoring y.server = false → ∃ t, exec (.stepOpen die []) s = .next t ∧
             t.yelm die = popped y ∧ (st.stat % 32 ≠ 0 → t.mem = s.mem) ∧
             ∀ k, st.stat % 32 = 0 → s.ridgeHome (y.part.getD 0) .atomic st.stat = some k → k + 16 ≤ 2 ^ 52 → s.mem.wf = true →
               s.Recorded t k (word st.add) 2)))) ∧
     (∀ w rest, y.queue = w :: rest → entOpen w = false →
       (∀ st, y.openStep (entStep w) = some st →
         let tok := fld w 23 0
         let e := fld w 39 32
         let n := fld w 55 52
         let nanc := min (st.nanc + if entSanf w then 1 else 0) 65535
         let good := entMal w = false ∧ tok < st.t ∧ e + n ≤ st.e ∧ ∀ a ∈ st.aff, ¬(a.1.1 = tok ∧ e ≤ a.1.2 ∧ a.1.2 < e + n)
         (good → ∃ t, exec (.affinityEntry die) s = .next t ∧ t.mem = s.mem ∧ t.cores = s.cores ∧ t.yelm die = (popped y).setStep
           { st with nanc := nanc, aff := st.aff ++ (List.range n).map fun i => ((tok, e + i), BitVec.ofNat 32 (affWord w i)) }) ∧
         (¬good → ∃ t, exec (.affinityEntry die) s = .next t ∧ t.mem = s.mem ∧ t.cores = s.cores ∧
           t.yelm die = (popped y).setStep { st with nanc := nanc, malc := min (st.malc + 1) 65535 })) ∧
       (y.openStep (entStep w) = none → ∃ t, exec (.affinityEntry die) s = .next t ∧ t.mem = s.mem ∧
         t.yelm die = popped { y with noStep := y.noStep + 1 })) ∧
     (∀ num st, y.openStep num = some st → y.readErr = false →
       let read := s.ridgeRead (y.part.getD 0) st.res ((st.e + 7) / 8) []
       let closes := fun (bitmap : List Bool) (bad waits : Bool) =>
         let shut := fun late : Bool => y.setStep
           { st with closed := some late, since := s.pcc, miss := if late then st.t * st.e - st.aff.length else 0, bitmap := bitmap
                     fault := bad || st.fault, waitRes := waits }
         (st.aff.length = st.t * st.e → ∃ t, exec (.stepClose die num []) s = .next t ∧ t.yelm die = shut false ∧ t.mem = s.mem) ∧
         (st.aff.length ≠ st.t * st.e → st.dl ≠ 0 → st.dl ≤ s.pcc →
           ∃ t, exec (.stepDeadline die num []) s = .next t ∧ t.yelm die = shut true ∧ t.mem = s.mem)
       let all := List.replicate st.e true
       (st.res = 0 → closes all false false) ∧
       (∀ b, st.res ≠ 0 → s.errs = [] → read = .bytes b → closes ((List.range st.e).map fun k => (ofBytes b).testBit k) false false) ∧
       (st.res ≠ 0 → (read = .failed ∨ read = .fault) → closes all true false) ∧
       -- a bitmap on another accelerator is asked for; the step is closed meanwhile
       (st.res ≠ 0 → s.errs = [] → read = .short → closes all false true)) ∧
     (∀ num st, (∀ z ∈ y.openSteps, z.num ≠ num) → (y.steps.find? fun z => z.num == num && z.waitRes) = some st → y.readErr = false → s.errs = [] →
       ∀ remote b, s.ridgeRead (y.part.getD 0) st.res ((st.e + 7) / 8) remote = .bytes b →
         ∃ t, exec (.stepClose die num remote) s = .next t ∧ t.mem = s.mem ∧
           t.yelm die = y.setStep { st with waitRes := false, bitmap := (List.range st.e).map fun k => (ofBytes b).testBit k })) ∧
  ((∀ (t : YStep) (e : Nat),
     let q := (List.range t.t).filter fun k => t.a k e != negInf
     (∀ k ∈ t.chosen e, k ∈ q) ∧ (t.chosen e).Nodup ∧ (t.chosen e).length = min t.c q.length ∧
     -- in slot order: by falling affinity, ties to the lower token
     (t.chosen e).Pairwise (fun k j => fp32.key (t.a j e) < fp32.key (t.a k e) ∨ (fp32.key (t.a j e) = fp32.key (t.a k e) ∧ k < j)) ∧
     ∀ k ∈ t.chosen e, ∀ j ∈ q, j ∉ t.chosen e →
       fp32.key (t.a j e) < fp32.key (t.a k e) ∨ (fp32.key (t.a j e) = fp32.key (t.a k e) ∧ k < j)) ∧
   (∀ t : YStep, t.t < 2 ^ 24 → t.e ≤ 256 → t.e * t.c ≤ 2 ^ 24 → t.num < 4096 → t.nanc < 65536 → t.malc < 65536 →
     let experts := List.range t.e
     let toks := List.range t.t
     let gone := fun e : Nat => t.bitmap[e]? = some false
     let infs := fun k : Nat => experts.countP fun e => t.a k e == 0x7F800000
     let part := fun (l : List Byte) (at_ n : Nat) => ofBytes ((l.drop at_).take n)
     -- R357: the index tables
     (∀ e < t.e, let b := t.table e
       b.length = (8 + 4 * t.c + 7) / 8 * 8 ∧ part b 0 8 = t.c ∧ (∀ j, 8 + 4 * t.c ≤ j → b.getD j 0 = 0) ∧
       ∀ k < t.c, (gone e → part b (8 + 4 * k) 4 = 0xFFFFFFFF) ∧ (¬gone e → part b (8 + 4 * k) 4 = (t.chosen e).getD k 0xFFFFFFFF)) ∧
     -- R355, R358: the records, with their weights
     (∀ e < t.e, ∀ k < t.c, let w := ofBytes (t.rec_ e k)
       (t.rec_ e k).length = 16 ∧ w / 2 ^ 3 % 2 ^ 25 = 0 ∧ w / 2 ^ 28 % 2 ^ 12 = t.num ∧ w / 2 ^ 40 % 2 ^ 24 = e * t.c + k ∧
       w / 2 ^ 64 % 2 ^ 32 = (t.chosen e).getD k 0xFFFFFFFF ∧
       (gone e → w % 8 = 2 ∧ w / 2 ^ 96 = 0) ∧ (¬gone e → (t.chosen e)[k]? = none → w % 8 = 1 ∧ w / 2 ^ 96 = 0) ∧
       ∀ tok, ¬gone e → (t.chosen e)[k]? = some tok →
         (infs tok = 0 → w % 8 = 0 ∧ w / 2 ^ 96 = t.a tok e) ∧
         (0 < infs tok → t.a tok e = 0x7F800000 →
           w % 8 = 0 ∧ w / 2 ^ 96 = (fp32.round .rne ((Num.ofInt 1).div (Num.ofInt (infs tok))).1).1) ∧
         (0 < infs tok → t.a tok e ≠ 0x7F800000 → w % 8 = 3 ∧ w / 2 ^ 96 = 0)) ∧
     -- R356, R359: the counts and the status word
     (∀ w, w = ofBytes t.counts →
       t.counts.length = 16 ∧ w % 2 ^ 24 = (toks.countP fun k => experts.all fun e => t.a k e == negInf) % 2 ^ 24 ∧
       w / 2 ^ 24 % 2 ^ 24 = ((experts.filter fun e => t.bitmap[e]? == some false).map fun e => (t.chosen e).length).sum % 2 ^ 24 ∧
       w / 2 ^ 48 % 2 ^ 16 = t.nanc ∧ w / 2 ^ 64 % 2 ^ 16 = t.malc ∧ w / 2 ^ 80 % 2 ^ 24 = 0 ∧ w / 2 ^ 104 = t.miss % 2 ^ 24) ∧
     (∀ bad, let w := t.status bad
       w < 128 ∧ (w.testBit 0 = true ↔ t.closed = some true) ∧ w.testBit 1 = bad ∧ (w.testBit 2 = true ↔ 0 < t.nanc) ∧
       (w.testBit 3 = true ↔ ∃ k < t.t, ∀ e < t.e, t.a k e = negInf) ∧ (w.testBit 4 = true ↔ ∃ e < t.e, gone e) ∧
       (w.testBit 5 = true ↔ 0 < t.malc) ∧ (w.testBit 6 = true ↔ ∃ e < t.e, (t.chosen e).length < t.c)) ∧
     -- what is written, in order
     t.outputs = (experts.map fun e => (t.itab + e * ((8 + 4 * t.c + 7) / 8 * 8), t.table e)) ++
       (experts.flatMap fun e => (List.range t.c).map fun k => (t.meta_ + 16 * (e * t.c + k), t.rec_ e k)) ++ [(t.stat + 16, t.counts)]) ∧
   (∀ (s : State) (q id va : Nat) (b : List Byte) (rest : List (Nat × List Byte)), s.errs = [] → s.mem.wf = true →
     let span := s.ridgeSpan ((s.yelm q).part.getD 0) .write va b.length
     (span = none → s.yelmWrites q id ((va, b) :: rest) = (s, true)) ∧
     ∀ sp, span = some sp → sp.remote = false → sp.keys.length = b.length → sp.keys.Nodup → (∀ k ∈ sp.keys, k < 2 ^ 52) →
       ∃ u : State, s.yelmWrites q id ((va, b) :: rest) = u.yelmWrites q id rest ∧ sp.keys.map u.mem.get = b ∧
         ∀ a, a ∉ sp.keys → u.mem.get a = s.mem.get a) ∧
   (∀ (va id num : Nat) (d : WindowWord) (y : Yelm), let t := stepOf id num d
     stepBad va d y t = false ↔ fld d 511 456 = 0 ∧ fld d 447 441 = 0 ∧ fld d 127 64 = 0 ∧ va % 64 = 0 ∧ 1 ≤ t.t ∧ 1 ≤ t.e ∧ t.e ≤ 256 ∧
       1 ≤ t.c ∧ t.c ≤ t.t ∧ t.e * t.c ≤ 2 ^ 24 ∧ t.stat % 32 = 0 ∧ t.res % 8 = 0 ∧ t.meta_ % 16 = 0 ∧ t.itab % 8 = 0 ∧
       (t.stat < 2 ^ 56 ∧ t.res < 2 ^ 56 ∧ t.meta_ < 2 ^ 56 ∧ t.itab < 2 ^ 56) ∧ y.openStep num = none) ∧
   ∀ (s : State) (die : Nat), s.powered = true → die < 4 →
     let y := s.yelm die
     (∀ step t, s.publishable die step = some t →
       let ends := fun (u : State) (fault : Bool) => exec (.stepOutputPublish die step) s = .next
         (((if fault then u.openReport else u).stepRecord die t.stat t.add (word (t.status fault))).modYelm die fun y =>
           { y with steps := y.steps.filter fun x => x.id != t.id })
       (s.romServes die = true → t.wrote = false → s.errs = [] →
         (t.fault = true → s.yelmStoring y.server = false → ends s true) ∧
         (t.fault = false → ∀ u bad, s.yelmWrites die t.id t.outputs = (u, bad) →
           if u.yelmStoring y.server then
             exec (.stepOutputPublish die step) s = .next (u.modYelm die fun y => y.setStep { t with fault := bad, wrote := true })
           else ends u bad)) ∧
       (t.wrote = true → s.endsSteps die t = true → s.stepPending t = false → s.yelmStoring y.server = false → ends s t.fault)) ∧
     (∀ q, y.qsel = q → s.routerOn die q = true → (s.yelm q).queue ≠ [] →
       ∃ t, exec (.yelmQctlPop die) s = .next t ∧ t.mem = s.mem ∧ t.cores = s.cores ∧
         t.yelm q = { s.yelm q with queue := (s.yelm q).queue.tail, frees := (s.yelm q).frees ++ [s.pcc + 8] }) ∧
     (∀ q k, q < 4 → k < 4 → s.routerOn die k = true →
       ∃ t, exec (.yelmQselWrite die q) s = .next t ∧ t.mem = s.mem ∧ t.yelm die = { y with qsel := q }) ∧
     (∀ k, s.routerOn die k = true →
       ∃ t : State, exec (.userRouterException die) s = .next t ∧ (t.yelm k).user = false ∧ t.cores = s.cores ∧
         (∀ x ∈ (t.yelm k).steps, x.wrote = true ∧ x.fault = true) ∧ (∃ l x, t.unoon.sent = s.unoon.sent ++ l ++ [eventBlock x]) ∧
         ((∀ j, s.routerOn die j = true → j = k) → s.yelmStoring (s.yelm k).server = false → (t.yelm k).steps = [])) ∧
     (s.errs = [] → ∀ q, y.qsel = q → s.routerOn die q = true →
       (s.rvFetch die = none → ∀ far, runRouter die far s = exec (.userRouterException die) s) ∧
       ∀ i len, s.rvFetch die = some (i, len) →
         let on := y.rv.pc + BitVec.ofNat 64 len
         (∀ rd rs1 rs2, i = .op false 0 0 rd rs1 rs2 →
           runRouter die [] s = .next (s.setRv die { (y.rv.set rd (y.rv.get rs1 + y.rv.get rs2)) with pc := on })) ∧
         (∀ rs1 rs2, i = .branch 0 rs1 rs2 16 →
           runRouter die [] s = .next (s.setRv die { y.rv with pc := if y.rv.get rs1 = y.rv.get rs2 then y.rv.pc + 16 else on })) ∧
         (∀ rd rs1 off a, i = .load 3 rd rs1 off → a = (y.rv.get rs1 + off).toNat →
           (a + 8 ≤ 0x80000 → runRouter die [] s = .next (s.setRv die { (y.rv.set rd (word (ofBytes (y.scratch.readBytes a 8)))) with pc := on })) ∧
           (a = 0x200048 → runRouter die [] s = .next (s.setRv die { (y.rv.set rd (word s.pcc)) with pc := on })) ∧
           (0x80000 ≤ a → a + 8 ≤ 0x100000 → runRouter die [] s = exec (.userRouterException die) s)) ∧
         ∀ rs1 rs2 off a, i = .store 3 rs1 rs2 off → a = (y.rv.get rs1 + off).toNat →
           (a = 0x200040 → y.rv.get rs2 = 1 → (s.yelm q).queue ≠ [] → ∃ t, exec (.yelmQctlPop die) s = .next t ∧
             runRouter die [] s = .next (t.setRv die { y.rv with pc := on })) ∧
           (a = 0x200058 → (y.rv.get rs2).toNat < 4 → ∃ t, exec (.yelmQselWrite die (y.rv.get rs2).toNat) s = .next t ∧
             runRouter die [] s = .next (t.setRv die { y.rv with pc := on })) ∧
           (0x100000 ≤ a → a + 8 ≤ 0x110000 → runRouter die [] s = exec (.userRouterException die) s)) ∧
     (∀ new, new < 4 → new ≠ die → y.failed = false → (s.yelm new).failed = false →
       let left := ((List.range 4).filter fun d => d != die && !(s.yelm d).failed).length
       ∃ t : State, exec (.yelmTakeover die new) s = .next t ∧ (t.yelm die).failed = true ∧ t.cores = s.cores ∧
         (s.errs = [] → s.Reported t 10 die 0 left 255) ∧
         ∀ k < 4, (s.yelm k).server = die → (t.yelm k).server = new ∧ (t.yelm k).queue = (s.yelm k).queue ∧
           (∀ x ∈ (t.yelm k).steps, x.wrote = true ∧ x.fault = true) ∧
           ((∀ j < 4, j ≠ k → (s.yelm j).server ≠ die) → s.yelmStoring die = false → (t.yelm k).steps = []) ∧
           ((s.yelm k).user = true → (∀ j < 4, j ≠ k → (s.yelm j).user = false) → (t.yelm k).user = true ∧ (t.yelm k).home = new ∧
             (t.yelm new).qsel = k ∧ (t.yelm new).rv.pc = 0 ∧ (t.yelm new).scratch = (s.yelm (s.yelm k).home).scratch)))

/-! ### The Unoon link, power, the host's commands -/

/-- R364, R366, R373: links go down and return, the standby port takes over; power goes and comes; a block that arrives is answered by its
port, its SEQ and its reserved bits. The model's choices in it: log entries 47, 48. -/
def Obligations.LinksPowerProtocol : Prop :=
  ∀ s : State,
    (s.powered = false → ∃ t, exec .powerUp s = .next t ∧ t.powered = true ∧ t.pcc = 0 ∧ t.mem = [] ∧ t.graphs = [] ∧ t.reports = [t.readyEvent]) ∧
    (s.powered = true →
      let act := s.unoon.active
      (∃ t, exec .powerLoss s = .next t ∧ t.powered = false ∧ t.mem = [] ∧ t.graphs = []) ∧
      (s.linkUp act = true → ∃ t, exec .unoonLinkDown s = .next t ∧ t.mem = s.mem ∧ t.cores = s.cores ∧
        t.unoon = { s.unoon with down := vset s.unoon.down act (some s.pcc) }) ∧
      (∀ p, p < 2 → s.linkUp p = false → ∃ t, exec (.unoonLinkReturn p) s = .next t ∧ t.mem = s.mem ∧ t.cores = s.cores ∧
        t.unoon = { s.unoon with down := vset s.unoon.down p none }) ∧
      (∀ t0, act < 2 → vget s.unoon.down act none = some t0 → t0 + 2 ^ 20 ≤ s.pcc → s.linkUp (1 - act) = true →
        ∃ t, exec .unoonPortTakeover s = .next t ∧ t.unoon.active = 1 - act ∧ s.Reported t 9 0 act 0 255 ∧ t.mem = s.mem) ∧
      (let c := s.cmd
       let run := exec (decodeCommand c) s
       let judged := fun u : State =>
         (∀ r, (s.unoon.kept.find? fun r => r.seq == c.seq.toNat) = some r → run = .next (u.emit r)) ∧
         ((∀ r ∈ s.unoon.kept, r.seq ≠ c.seq.toNat) →
           (c.seq.toNat ≠ nextSeq s.unoon.seq → run = .next (u.emit (respond c 8 [] []))) ∧
           (c.seq.toNat = nextSeq s.unoon.seq → (c.status ≠ 0 ∨ c.rsv ≠ 0) → run = .next (s.taken.reply (respond c 1 [] []))))
       (s.unoon.again = true → judged { s with unoon := { s.unoon with again := false } }) ∧
       (s.unoon.again = false → s.linkUp c.port = true →
         (c.port ≠ act → run = .next (s.emit (respond c 9 [] []))) ∧
         (c.port = act → (s.unoon.await ≠ none ∨ s.unoon.pendq ≠ []) →
           run = .next { s with unoon := { s.unoon with pendq := s.unoon.pendq ++ [c] } }) ∧
         (c.port = act → s.unoon.await = none → s.unoon.pendq = [] → judged s))))

/-- R190, R192, R304, R321, R350, R361, R367, R370, R372, R374: commands on partitions, tables, memory, queues and governors. The model's
choices in it: log entries 40, 41, 45, 66, 72. -/
def Obligations.PartitionCommands : Prop :=
  ∀ s : State,
    let p := s.cmd.part.toNat
    let a := s.arg
    let refuses := fun (i : Instr) (n : Nat) => s.Answers i s n [] []
    let own := s.part p
    refuses .reservedCommand 1 ∧
    (a 0 ≠ 0 → a 1 < 4096 → own = none → (∀ q r, q < 16 → s.part q = some r → r.clusters &&& a 0 = 0) →
      s.Answers .pcreate
        { s with parts := vset s.parts p (some { clusters := a 0, tenant := a 1, root := 0, wlog := 32 })
                 clusters := s.clusters.mapIdx fun k c => if (a 0).testBit k then Cluster.fresh else c } 0 [] []) ∧
    (own = none → refuses .pdestroy 2 ∧ (a 0 % 4096 = 0 → refuses .ptroot 2)) ∧
    (∀ q, own = some q →
      (s.accepts .pdestroy → ∃ t, exec .pdestroy s = .next t ∧ t.unoon.await = some (s.cmd, .destroy p)) ∧
      (∀ c, s.powered = true → s.arrived = none → s.unoon.await = some (c, .destroy p) → s.partQuiet p = true →
        ∃ t : State, step s = .next t ∧ t.part p = none ∧ t.unoon.await = none ∧ t.unoon.sent = s.unoon.sent ++ [respond c 0 [] []] ∧
          (∀ k < 48, (t.port k).keys = (s.port k).keys.filter (fun e => e.1 != q.tenant) ∧
            (t.port k).shares = (s.port k).shares.filter fun e => fld e.2 19 8 != q.tenant) ∧
          (∀ k < 4, (s.yelm k).part = some p → (t.yelm k).part = none ∧ (t.yelm k).queue = [] ∧ (t.yelm k).user = false) ∧
          (∀ k < 4, (s.yelm k).part ≠ some p → t.yelm k = s.yelm k) ∧ t.mem = s.mem ∧ t.trees = s.trees) ∧
      (a 0 % 4096 = 0 → a 0 < Config.localLimit → s.Answers .ptroot { s with parts := vset s.parts p (some { q with root := a 0 }) } 0 [] []) ∧
      (a 0 = 2 ^ 64 - 1 ∨ a 0 < Config.vaLimit → s.accepts .ptinv → ∃ t, exec .ptinv s = .next t ∧ t.mem = s.mem ∧
        ∀ k < 64, (t.cluster k).tlb = if q.clusters.testBit k
          then (s.cluster k).tlb.filter (fun z => !(decide (a 0 = 2 ^ 64 - 1) || (decide (z.va ≤ a 0) && decide (a 0 < z.va + z.size))))
          else (s.cluster k).tlb) ∧
      (∀ die, a 0 = die → die < 4 →
        s.Answers .ycfgAssignQueue (s.modYelm die fun y => { y with part := some p }) 0 [] [] ∧
        ((s.yelm die).part = some p → a 3 ≠ 0 → a 3 ≤ 2 ^ 19 → a 2 + a 3 ≤ Config.localLimit → s.errs = [] → (s.yelm die).server = die →
          s.accepts .ycfgLoadRouter → ∃ t, exec .ycfgLoadRouter s = .next t ∧ (t.yelm die).user = true ∧ (t.yelm die).qsel = die ∧
            (t.yelm die).rv.pc = 0 ∧ t.mem = s.mem))) ∧
    (1 ≤ a 1 → a 1 ≤ 4096 → a 0 + a 1 ≤ Config.localLimit →
      (s.errs = [] → s.Answers .memr s 0 [] ((List.range (a 1)).map fun j => s.mem.get (a 0 + j))) ∧
      (s.errs = [] → s.mem.wf = true → s.cmd.data.length = a 1 → s.accepts .memw → ∃ t, exec .memw s = .next t ∧
        (∀ j < a 1, some (t.mem.get (a 0 + j)) = s.cmd.data[j]?) ∧ (∀ x, (x < a 0 ∨ a 0 + a 1 ≤ x) → t.mem.get x = s.mem.get x) ∧
        t.cores = s.cores ∧ t.unoon.sent = s.unoon.sent ++ [respond s.cmd 0 [] []])) ∧
    (let keep := fun new old : Nat => if new = 0 then old else new
     a 0 < 4 → (a 1 = 0 ∨ (64 ≤ a 1 ∧ a 1 ≤ 320)) → (a 2 = 0 ∨ (48 ≤ a 2 ∧ a 2 ≤ 255)) → (a 3 = 0 ∨ (20 ≤ a 3 ∧ a 3 ≤ 40)) →
      (a 4 = 0 ∨ (85 ≤ a 4 ∧ a 4 ≤ 100)) → (a 3 = 0 ∨ own ≠ none) → s.accepts .govset →
      ∃ t, exec .govset s = .next t ∧ t.mem = s.mem ∧ t.cores = s.cores ∧
        (let d := s.die (a 0)
         let point := keep (a 4) d.throttleAt
         t.die (a 0) = { d with b := keep (a 1) d.b, d := keep (a 2) d.d, throttleAt := point
                                throttling := decide (point ≤ d.temp) || (d.throttling && decide (point < d.temp + 5)) }) ∧
        ∀ q, own = some q → t.part p = some { q with wlog := keep (a 3) q.wlog }) ∧
    (a 0 = 1 → s.accepts .reset → ∃ t, exec .reset s = .next t ∧ t.pcc = 0 ∧ t.mem = [] ∧ t.powered = true ∧ t.graphs = [] ∧
      respond s.cmd 0 [] [] ∈ t.unoon.sent)

/-- R294, R298, R367, R372: images and graphs are loaded, freed, submitted and aborted. The model's choices in it: log entries 40, 42, 43, 44. -/
def Obligations.ImageAndGraphCommands : Prop :=
  ∀ s : State, s.errs = [] →
    let p := s.cmd.part.toNat
    let a := s.arg
    let refuses := fun (i : Instr) (n : Nat) => s.Answers i s n [] []
    let x : WindowWord := BitVec.ofNat 512 (s.readNat (a 0) 64)
    let h := imageHeader x
    (∀ k sp, (s.part p).isSome = true → a 0 + 64 ≤ Config.localLimit →
      (imageOk x = false → refuses .imgload 3) ∧
      (imageOk x = true → a 0 + h.extent ≤ Config.localLimit → a 1 + h.datlen ≤ Config.vaLimit →
        s.ridgeSpan p .read (a 1) h.datlen = some sp → sp.remote = false → freeKey s.images 4096 = some k → s.mem.wf = true →
        sp.keys.Nodup → (∀ z ∈ sp.keys, z < 2 ^ 52) → s.accepts .imgload →
        ∃ t, exec .imgload s = .next t ∧ t.images = (k, s.imageAt (a 0) h) :: s.images ∧
          sp.keys.map t.mem.get = s.homeBytes (a 0 + h.datoff) h.datlen ∧ (∀ z, z ∉ sp.keys → t.mem.get z = s.mem.get z) ∧
          t.unoon.sent = s.unoon.sent ++ [respond s.cmd 0 [word k] []])) ∧
    (assoc s.images (a 0) = none → refuses .imgfree 1) ∧
    (∀ im, assoc s.images (a 0) = some im → (s.imageUsed (a 0) = true → refuses .imgfree 6) ∧
      (s.imageUsed (a 0) = false → s.Answers .imgfree { s with images := s.images.filter fun z => z.1 != a 0 } 0 [] [])) ∧
    (let n := a 1
     let ws : List WindowWord := (List.range n).map fun k => BitVec.ofNat 512 (s.readNat (a 0 + 64 * k) 64)
     1 ≤ n → n ≤ 4096 → a 2 % 16 = 0 → a 2 < Config.vaLimit → (s.part p).isSome = true → a 0 + 64 * n ≤ Config.localLimit →
      (freeKey s.graphs 64 = none → refuses .gsubmit 5) ∧
      (∀ g, freeKey s.graphs 64 = some g →
        (graphOk ws = false → refuses .gsubmit 4) ∧
        (graphOk ws = true → (∀ w ∈ ws, ndKind w = 0 → ∃ hd, (s.readHeader p w).2 = .good hd) → s.accepts .gsubmit →
          ∃ t gr, exec .gsubmit s = .next t ∧ assoc t.graphs g = some gr ∧ gr.part = p ∧ gr.record = a 2 ∧ gr.status = 0 ∧
            gr.order = s.serial ∧ gr.nodes.map Node.word = ws ∧ t.unoon.sent = s.unoon.sent ++ [respond s.cmd 0 [word g] []]))) ∧
    (∀ gr, a 0 < 64 → (s.part p).isSome = true → assoc s.graphs (a 0) = some gr →
      (gr.part ≠ p → refuses .gabort 2) ∧
      (gr.part = p → s.accepts .gabort → ∃ t, exec .gabort s = .next t ∧ t.unoon.await = some (s.cmd, .graph (a 0)) ∧
        (assoc t.graphs (a 0)).map (fun z => bit z.status 1) = some true)) ∧
    (∀ c g, s.powered = true → s.arrived = none → s.unoon.await = some (c, .graph g) → assoc s.graphs g = none →
      step s = .next ({ s with unoon := { s.unoon with await := none } }.reply (respond c 0 [] [])))

/-- R331 to R333, R335, R337, R339 to R341, R343, R369: the tables of the fabric, and the refusals of their commands: a value out of range
gives status 1, and so does a tree descriptor that breaks a condition; a tree whose root is here and whose tenant is not the partition's
gives status 2. The model's choices in it: log entries 40, 46. -/
def Obligations.FabricCommands : Prop :=
  ∀ s : State,
    let a := s.arg
    let w := fun k => vget s.cmd.a k (0 : Word)
    -- where `ok` does not hold, the command is refused with status 1
    let gives := fun (i : Instr) (ok effect : Prop) => (ok → effect) ∧ (¬ok → s.Answers i s 1 [] [])
    let some_ := a 1 < 48 ∨ a 1 = 63
    let all := fun (i : Instr) (f : Port → Port) =>
      (a 1 < 48 → s.Answers i (s.modPort (a 1) f) 0 [] []) ∧
      (a 1 = 63 → s.Answers i { s with ports := s.ports.map f } 0 [] [])
    gives .fabcfgKeyEntry (some_ ∧ a 2 < 4096 ∧ fld (w 3) 59 56 = 0 ∧ fld (w 3) 19 0 ≤ fld (w 3) 39 20)
      (all .fabcfgKeyEntry fun q => { q with keys := assocSet q.keys (a 2) (w 3) }) ∧
    gives .fabcfgShareEntry ((a 1 < 48 ∨ (256 ≤ a 1 ∧ a 1 < 304)) ∧ a 2 < 256 ∧ fld (w 3) 62 20 = 0 ∧ fld (w 3) 7 0 ≠ 0)
      (∀ (port : Nat) (dir : Bool), a 1 = port + (if dir then 256 else 0) → port < 48 → s.Answers .fabcfgShareEntry
        (s.modPort port fun q => { q with shares := ((dir, a 2), w 3) :: q.shares.filter fun x => x.1 != (dir, a 2) }) 0 [] []) ∧
    gives .fabcfgPortMode (some_ ∧ a 2 < 3 ∧ a 3 = 0) (s.accepts .fabcfgPortMode →
      (a 1 = 63 → ∃ t, exec .fabcfgPortMode s = .next t ∧ t.mem = s.mem ∧ t.cores = s.cores ∧ ∀ k < 48, (t.port k).mode = a 2) ∧
      (a 1 < 48 →
        let q := s.port (a 1)
        ∃ t : State, exec .fabcfgPortMode s = .next t ∧ t.mem = s.mem ∧ t.cores = s.cores ∧ (t.port (a 1)).mode = a 2 ∧
          (q.mode = a 2 → t.ports = s.ports) ∧
          (q.mode ≠ a 2 → q.inq = [] → (∀ x ∈ q.outq, x.2.src = s.accNum) → (∀ x ∈ s.sends, x.port ≠ a 1) → (∀ x ∈ s.partials, x.port ≠ a 1) →
            t.port (a 1) = { q with mode := a 2, inq := [], outq := [], deficit := [] } ∧ (∀ k, k ≠ a 1 → t.port k = s.port k) ∧
            ∀ x ∈ q.outq, flIsRequest x.2 = true → (x.2.agent, x.1, 9 + 16 * x.2.dst) ∈ t.bounced))) ∧
    gives .fabcfgOutboundKey (a 1 < 4096 ∧ a 2 < 65536 ∧ a 3 = 0)
      (s.Answers .fabcfgOutboundKey { s with outKeys := assocSet s.outKeys (a 1) ((w 2).setWidth 16) } 0 [] []) ∧
    gives .fabcfgDomainSize (1 ≤ a 2 ∧ a 2 ≤ 9216 ∧ a 3 = 0) (s.Answers .fabcfgDomainSize { s with domain := a 2 } 0 [] []) ∧
    gives .fabcfgRoute (a 2 < 2 ^ 14 ∧ a 3 < 2 ^ 48) (s.Answers .fabcfgRoute
      { s with routes := if a 3 = 0 then s.routes.filter fun r => r.1 != a 2 else assocSet s.routes (a 2) (a 3) } 0 [] []) ∧
    gives .fabcfgOwnAccelerator (a 2 < 9216 ∧ a 3 = 0)
      (((∃ k < 48, (s.port k).up = true) → s.Answers .fabcfgOwnAccelerator s 6 [] []) ∧
      ((∀ k < 48, (s.port k).up = false) → s.Answers .fabcfgOwnAccelerator { s with accNum := a 2 } 0 [] [])) ∧
    gives .fabcfgUalinkSource (a 1 < 48 ∧ a 2 < 1024 ∧ fld (w 3) 62 12 = 0) (s.Answers .fabcfgUalinkSource (s.modPort (a 1) fun q =>
      { q with sources := if (w 3).getLsbD 63 then assocSet q.sources (a 2) (fld (w 3) 11 0) else q.sources.filter fun x => x.1 != a 2 }) 0 [] []) ∧
    gives .fabcfgLiftFence (a 1 < 48 ∧ a 2 < 4096 ∧ a 3 = 0) (s.Answers .fabcfgLiftFence
      (s.modPort (a 1) fun q => { q with fenced := q.fenced.filter fun t => t != a 2 }) 0 [] []) ∧
    gives .fabcfgLaneThreshold (some_ ∧ 1 ≤ a 2 ∧ a 2 ≤ 1048575 ∧ a 3 = 0) (all .fabcfgLaneThreshold fun q => { q with thresh := a 2 }) ∧
    -- SUB 5: a reduction tree
    gives .fabcfgReductionTree (a 1 < 65536 ∧ a 2 % 16 = 0)
     (let num := a 1
      let without := { s with trees := s.trees.filter fun z => z.num != num, streams := s.streams.filter fun z => z.tree != num
                              rounds := s.rounds.filter fun z => z.1.1 != num }
      (a 2 = 0 → s.Answers .fabcfgReductionTree without 0 [] []) ∧
      (a 2 ≠ 0 → (a 3 < 32 ∨ 16 + 8 * (4095 + 4095) < a 3) → s.Answers .fabcfgReductionTree s 1 [] []) ∧
      (a 2 ≠ 0 → 32 ≤ a 3 → a 3 ≤ 16 + 8 * (4095 + 4095) →
        (Config.localLimit < a 2 + a 3 → s.Answers .fabcfgReductionTree s 7 [] []) ∧
        (a 2 + a 3 ≤ Config.localLimit → s.errs = [] →
          let h : BitVec 128 := BitVec.ofNat 128 (s.readNat (a 2) 16)
          let nl := fld h 27 16
          let ns := fld h 43 32
          let entry := fun k : Nat => s.readNat (a 2 + 16 + 8 * k) 8
          let leaves : List TreeNode := (List.range nl).map fun k => let x := entry k
            { acc := x % 2 ^ 14, die := 0, parent := some (x / 2 ^ 16 % 2 ^ 12), inp := x / 2 ^ 28 % 16 }
          let stages : List TreeNode := (List.range ns).map fun k => let x := entry (nl + k)
            { acc := x % 2 ^ 14, die := x / 2 ^ 14 % 4, parent := if x / 2 ^ 16 % 2 ^ 12 = 0xFFF then none else some (x / 2 ^ 16 % 2 ^ 12)
              inp := x / 2 ^ 28 % 16 }
          let nodes := leaves ++ stages
          -- the parent of stage k, and the root its own
          let up := fun k : Nat => ((stages[k]?).bind TreeNode.parent).getD k
          let isRoot := fun k : Nat => (stages[k]?).map TreeNode.parent = some none
          let good :=
            a 3 = 16 + 8 * (nl + ns) ∧ 1 ≤ nl ∧ 1 ≤ ns ∧ fld h 127 96 = 0 ∧ fld h 63 44 = 0 ∧ fld h 31 28 = 0 ∧ fld h 15 12 = 0 ∧
            fld h 95 64 % 8 = 0 ∧ 8 ≤ fld h 95 64 ∧ (∀ k < nl + ns, entry k < 2 ^ 32) ∧ (∀ k < nl, entry k / 2 ^ 14 % 4 = 0) ∧
            (∀ x ∈ nodes, x.acc < s.domain ∧ x.inp ≤ 12 ∧ (x.parent = none → x.inp = 0) ∧ ∀ k, x.parent = some k → k < ns) ∧
            (∃ k < ns, isRoot k ∧ ∀ j < ns, isRoot j → j = k) ∧ (∀ k < ns, ∃ n < ns, isRoot (Nat.repeat up n k)) ∧
            nodes.Pairwise fun x y => x.parent = none ∨ (x.parent, x.inp) ≠ (y.parent, y.inp)
          let tree : Tree := { num := num, ten := fld h 11 0, cap := fld h 95 64, part := 0, leaves := leaves, stages := stages }
          (¬good → s.Answers .fabcfgReductionTree s 1 [] []) ∧
          (good → ∀ k z, stages[k]? = some z → isRoot k →
            let here := z.acc = s.accNum
            let p := s.cmd.part.toNat
            let mine := (s.part p).map (·.tenant) = some (fld h 11 0)
            (here → ¬mine → s.Answers .fabcfgReductionTree s 2 [] []) ∧
            (here → mine → s.Answers .fabcfgReductionTree { without with trees := { tree with part := p } :: without.trees } 0 [] []) ∧
            (¬here → s.Answers .fabcfgReductionTree { without with trees := tree :: without.trees } 0 [] [])))))

/-- R368: what each query item returns. The model's choices in it: log entries 40, 47. -/
def Obligations.Queries : Prop :=
  ∀ s : State,
    let a := s.arg
    let p := s.cmd.part.toNat
    let gives := fun (i : Instr) (res : List Word) => s.Answers i s 0 res []
    gives .queryPcc [word s.pcc] ∧
    (∀ (cores slices reserve lanes : Word), (∀ k < 4, fld cores (8 * k + 7) (8 * k) = (s.die k).spareCores % 256 ∧
        fld slices (8 * k + 7) (8 * k) = (s.die k).spareSlices % 256) → cores.toNat < 2 ^ 32 → slices.toNat < 2 ^ 32 →
      (∀ k < 64, bit reserve k = (decide (k < 16) && vget s.reserve k false)) → (∀ k < 64, bit lanes k = (decide (k < 48) && (s.port k).spare)) →
      gives .querySpares [cores + slices <<< 32, reserve, lanes, word ((s.cores.toList.filter fun c => !c.unplaceable).length)]) ∧
    (s.part p = none → s.Answers .queryPartition s 2 [] []) ∧
    (∀ q, s.part p = some q → ∀ graphs : Word, (∀ g < 64, bit graphs g = match assoc s.graphs g with | some gr => gr.part == p | none => false) →
      gives .queryPartition [word q.clusters, word q.tenant, graphs, word (s.placeable p).length, word q.wlog]) ∧
    (a 1 < 48 → a 2 < 4096 →
      let n := (s.port (a 1)).countsOf (a 2)
      gives .queryPortTenant [count64 n.refused, count64 n.errors, word (if (s.port (a 1)).fenced.contains (a 2) then 1 else 0),
        count64 n.outFlits, count64 n.inFlits]) ∧
    (a 1 < 4 →
      let y := s.yelm (a 1)
      gives .queryYelmQueue [count64 y.discard, count64 y.noStep, word (y.part.getD 0x80), word y.server]) ∧
    (∀ r, s.reports[a 1]? = some r →
      gives .queryRepairReport [r.extractLsb' 0 64, r.extractLsb' 64 64, word s.reports.length, count64 s.reportCount]) ∧
    (s.reports.length ≤ a 1 → s.Answers .queryRepairReport s 1 [] []) ∧
    (∀ now point throttling : Word, (∀ k < 4, fld now (8 * k + 7) (8 * k) = (s.die k).temp % 256 ∧
        fld point (8 * k + 7) (8 * k) = (s.die k).throttleAt % 256) → now.toNat < 2 ^ 32 → point.toNat < 2 ^ 32 →
      (∀ k < 64, bit throttling k = (decide (k < 4) && (s.die k).throttling)) → gives .queryTemperature [now, point, throttling]) ∧
    gives .queryErrorCounts [count64 s.errCount.single, count64 s.errCount.double]


/-! ### The machine as a whole -/

/-- R124 whole: `sel` is opcode 0x1A of format SS in slot S; it writes a where predicate PA, resolved through PRB, is true at issue, and b
otherwise, at latency 1. -/
def Obligations.SelRule : Prop :=
  ∀ (s : State) (h : Hdr) (o : SS),
    s.Gives (.sel h o) h (s.sOk o.ra && s.sOk o.rb)
      (s.putS o.rd 1 (if s.me.r.readP o.pa.toNat then s.sv o.ra else s.sv o.rb)) ∧
    (h.slot = .S → h.tag ≠ 7 → decodeSlot .S (h.guard ++ h.tag ++ 0x1A#8 ++ o.rd ++ o.ra ++ o.rb ++ o.pa ++ 0#19) = .sel h o)

/-- R89 whole: the fall-through after the code at position p is p + 1 for a dictionary code and p + 25 for an escape, and it is where a bundle
without a taken branch goes on. -/
def Obligations.FallThroughRule : Prop :=
  (∀ (dict : List BundleWord) (stream : List (BitVec 16)) (p : Nat) (c : BitVec 16) (b : Bundle) (next : Nat), stream[p]? = some c →
    fetchCode dict stream p = .bundle b next →
    (c ≠ 0xFFFF → next = p + 1) ∧ (c = 0xFFFF → next = p + 25) ∧ fallOf stream p = next) ∧
  ∀ (s : State) (slot : Slot), s.cur < 256 → s.clear = true → s.fits [] = true →
    (∀ e es, s.me.r.loops = e :: es → e.stop.toNat ≠ fallOf (s.core s.cur).stream (s.core s.cur).pos) →
    ∃ t, exec (.nop slot) s = .next t ∧ (t.core s.cur).pos = fallOf (s.core s.cur).stream (s.core s.cur).pos

/-- R86, R93 to R100: slot words written out from the formats and the opcode maps decode to what they stand for. -/
def Obligations.DecodeWords : Prop :=
  let g : Hdr := { slot := .S, guard := 0, tag := 0 }
  -- `cmp.lt p1, p2, s3, s4` and `swp 2`, of the encoding examples at the end of the scalar chapter
  decodeSlot .S 0x00602418880000 = .cmp g { pt := 1, pf := 2, ra := 3, rb := 4, cc := 2 } ∧
  decodeSlot .S 0x00880000000002 = .swp g { rd := 0, ra := 0, rb := 0, imm := 2 } ∧
  -- guard 3, tag 0, opcode 0x01, RD 5, RA 6, RB 7, MOD 1
  decodeSlot .S 0b0011_000_00000001_000101_000110_000111_00001_000000000000000000 =
    .add { g with guard := 3 } { rd := 5, ra := 6, rb := 7, mod := 1 } ∧
  -- tag 2, opcode 0x01, VD 40, VA 1, VB 2, VC 0, MK 3, RM 1, ET 1, MOD 0
  decodeSlot .V1 0b0000_010_00000001_101000_000001_000010_000000_011_01_001_0000_00000 =
    .vfadd { slot := .V1, guard := 0, tag := 2 } { vd := 40, va := 1, vb := 2, vc := 0, msk := 3, rm := 1, et := 1, mod := 0 } ∧
  -- opcode 0x01, TD 4, A tile 5, B tile 6, MOD 0
  decodeSlot .M 0b0000_000_000001_0100_0_000000000101_0_000000000110_00000 =
    .tmma { slot := .M, guard := 0, tag := 0 } { td := 4, ak := 0, aop := 5, bk := 0, bop := 6, mod := 0 } ∧
  -- opcode 0x01, RD 9, RB 10, IMM -8
  decodeSlot .C0 0b0000_000_0000001_001001_001010_11111111111000 =
    .ld { slot := .C0, guard := 0, tag := 0 } { rd := 9, rb := 10, imm := 0x3FF8 } ∧
  -- opcode 0x09, TD 3, TA 2
  decodeSlot .X 0b0000_000_001001_0011_0010_000 = .xmov { slot := .X, guard := 0, tag := 0 } { td := 3, ta := 2, xe := 0 } ∧
  -- opcode 0x5, KS 17
  decodeSlot .K 0b0000_000_0101_10001 = .kmode { slot := .K, guard := 0, tag := 0 } { ks := 17 } ∧
  -- a reserved opcode, and a reserved bit that is set
  decodeSlot .K 0b0000_000_0110_00000 = .reservedOpcode .K 0xC0 ∧
  decodeSlot .S 0b0000_000_00000001_000101_000110_000111_00000_000000000000000001 = .reservedOpcode .S 0x228C3800001

/-- DECODE AND ENCODE AGREE, for every well-formed slot operation, every test of a tree and every legal slot word: no bit of an encoding is
dropped (R85, R86, R92 to R101). -/
def Obligations.DecodeEncode : Prop :=
  (∀ (i : Instr) (h : Hdr), i.hdr? = some h → i.wf = true →
    decodeSlot h.slot (encode i) = i ∧ slotBits (placeSlot h.slot (encode i)) h.slot = encode i ∧
    decodeTableWord 400 (0xFFFF + 65536 * (placeSlot h.slot (encode i)).toNat) = some i) ∧
  (∀ t : Test, Test.unpack t.pack = t) ∧
  ∀ (slot : Slot) (raw : BitVec 56) (h : Hdr), (decodeSlot slot raw).hdr? = some h →
    h.slot = slot ∧ encode (decodeSlot slot raw) = raw ∧ (decodeSlot slot raw).wf = true

/-- A STEP RUNS THE DECODED INSTRUCTION (R8, R26, R101, R102): where nothing else is due, the step of a package with a ready core is the
meaning of what its sequencer finds; an event that is due, an input that has arrived and a command block act by their meanings. The order
of these within one PCC cycle is the model's choice (log entry 1). The model's choices in it: log entries 1, 2, 17. -/
def Obligations.StepRunsTheDecoded : Prop :=
  ∀ s : State, s.powered = true →
    (s.arrived = none → s.hostDue = none → s.nextCommand = none → s.dueEvent = none →
      (∀ i rest, s.readyCores = i :: rest → s.arrival (i :: rest) = none →
        let c := s.core i
        let on := { s with cur := i }
        (∀ w ins, (∀ k < 25, c.stream[c.pos + k]? = some (BitVec.ofNat 16 (w >>> (16 * k)))) → decodeTableWord 400 w = some ins →
          step s = exec ins on) ∧
        (∀ code b ins, c.stream[c.pos]? = some code → code.toNat < 4096 → c.dict[code.toNat]? = some b →
          soleOp (decodeBundle b) = some ins → step s = exec ins on) ∧
        (∀ code, c.stream[c.pos]? = some code → (4096 ≤ code.toNat ∨ c.dict.length ≤ code.toNat) → code ≠ 0xFFFF →
          step s = exec .illegalCode on) ∧
        (c.stream.length ≤ c.pos → step s = exec .illegalCode on)) ∧
      (∀ t, s.arrival s.readyCores = some t → step s = .next t) ∧
      (s.readyCores = [] → ∃ t : State, step s = .next t ∧ t.pcc = s.pcc + 1 ∧ (s.kmodes = [] → t = { s with pcc := s.pcc + 1 }))) ∧
    -- the cores that issue in a PCC cycle, lower numbers first; what several of them bring one another is a barrier reached or a half supplied
    (∀ i, i ∈ s.readyCores ↔ i < 256 ∧ (s.core i).canIssue s.pcc = true) ∧ s.readyCores.Pairwise (· < ·) ∧
    (∀ i, s.arrival [i] = none) ∧
    (∀ t, s.arrival s.readyCores = some t → ∃ i ∈ s.readyCores,
      (∃ l, (s.core i).meets.1 = some l ∧ t = s.modCore i fun c => { c with hold := some (.bar l, s.pcc) }) ∨
      (∃ h x, (s.core i).meets.2 = true ∧ (s.core i).inst = some x ∧ h.isOf x x.idx (s.core i).e.xnum = true ∧
        t = { s with link := s.link ++ [h] })) ∧
    (∀ ins, s.arrived = none → s.hostDue = none → s.nextCommand = none → s.dueEvent = some ins → step s = exec ins s) ∧
    (∀ t x rest, s.inputs = (t, x) :: rest → t ≤ s.pcc →
      (∀ ins, x = .event ins → isEvent ins = true → step s = exec ins { s with inputs := rest }) ∧
      (∀ c, x = .command c → step s = exec (decodeCommand c) { s with inputs := rest, cmd := c }) ∧
      (∀ core line, x = .evict core line → step s = .next ({ s with inputs := rest }.evictLine core line)) ∧
      (∀ line, x = .writeBack line → step s = .next ({ s with inputs := rest }.l2Flush fun z => z.line == line)) ∧
      (∀ die deg, x = .temp die deg → step s = senseTemp die deg { s with inputs := rest }) ∧
      (∀ die remote, x = .router die remote → step s = runRouter die remote { s with inputs := rest })) ∧
    (∀ w, step (State.reset.withFetchWord 400 w) = (State.reset.withFetchWord 400 w).runCore 0)

/-- R38, R190, R256, R304, R335, R337, R343, R366, R373, R374: the machine right after bring-up, and its memories are canonical. The values of
log entry 4 (what no rule states) are not part of it. -/
def Obligations.ResetState : Prop :=
  let s := State.reset
  s.powered = true ∧ s.pcc = 0 ∧ s.ridgeDie = 0 ∧ s.unoon.active = 0 ∧ s.graphs = [] ∧ s.tags = [] ∧
  (∀ p < 16, s.part p = none) ∧
  (∀ i < 256, (s.core i).inst = none ∧ (s.core i).unplaceable = false ∧ (s.core i).r = Regs.start ∧ (s.core i).e = Engine.start) ∧
  (∀ k < 64, ∀ b < 64, ((s.cluster k).bank b).mode = .cache ∧ ((s.cluster k).bank b).ready = true) ∧
  (∀ k < 4, (s.die k).b = 300 ∧ (s.die k).d = 48 ∧ (s.die k).throttleAt = 95 ∧ (s.die k).shut = false) ∧
  (∀ p < 48, (s.port p).up = false ∧ (s.port p).keys = [] ∧ (s.port p).shares = [] ∧ (s.port p).sources = [] ∧ (s.port p).thresh = 4096) ∧
  s.outKeys = [] ∧ s.accNum = 0 ∧ s.domain = 0 ∧ s.routes = [] ∧ s.trees = [] ∧
  (∃ r ∈ s.unoon.sent, r.opc = 0xFF ∧ r.seq = 0 ∧ r.a[0] = word (16 * 2 ^ 8 + 256 * 2 ^ 16 + 255) ∧ r.a[1] = 0) ∧
  s.memoriesCanonical

/-- AN INVARIANT THAT EVERY STEP KEEPS: the memories of the package keep their canonical form, addresses strictly rising and no listed byte
equal to what an unlisted address reads as, so that equal memories are equal data. The model's choices in it: log entry 3. -/
def Obligations.MemoriesStayCanonical : Prop :=
  ∀ s t : State, s.memoriesCanonical → StepsTo s t → t.memoriesCanonical
end

