-- ==== Sys2Proof/Laws/Encode.lean ====
section
/-! SUPPORT. The fields of a packed operand are the fields it was packed from, for every operand
format of R30 to R40, and the word of an operation selects that operation. -/

namespace Sys2Proof

theorem cut_hi {n m : Nat} (a : BitVec n) (b : BitVec m) (s l : Nat) (h : m ≤ s) : (a ++ b).extractLsb' s l = a.extractLsb' (s - m) l := by
  ext i hi
  have : ¬ s + i < m := by omega
  simp [BitVec.getLsbD_append, this]
  congr 1
  omega

theorem cut_lo {n m : Nat} (a : BitVec n) (b : BitVec m) (s l : Nat) (h : s + l ≤ m) : (a ++ b).extractLsb' s l = b.extractLsb' s l := by
  ext i hi
  have : s + i < m := by omega
  simp [BitVec.getLsbD_append, this]

theorem cut_all {n : Nat} (a : BitVec n) : a.extractLsb' 0 n = a := by
  ext i hi
  simp

theorem cut_wide {n : Nat} (y : BitVec n) (s l : Nat) (h : s + l ≤ n) (h' : n ≤ 56) : (y.setWidth 56).extractLsb' s l = y.extractLsb' s l := by
  ext i hi
  have : s + i < 56 := by omega
  simp [this]

theorem SR.unpack_pack (o : SR) : SR.unpack o.pack = o := by
  have h0 : o.pack.extractLsb' 35 6 = o.rd := (cut_hi (n := 23) (m := 18) (o.rd ++ o.ra ++ o.rb ++ o.mod) (0#18) 35 6 (by decide)).trans ((cut_hi (n := 18) (m := 5) (o.rd ++ o.ra ++ o.rb) (o.mod) 17 6 (by decide)).trans ((cut_hi (n := 12) (m := 6) (o.rd ++ o.ra) (o.rb) 12 6 (by decide)).trans ((cut_hi (n := 6) (m := 6) (o.rd) (o.ra) 6 6 (by decide)).trans (cut_all o.rd))))
  have h1 : o.pack.extractLsb' 29 6 = o.ra := (cut_hi (n := 23) (m := 18) (o.rd ++ o.ra ++ o.rb ++ o.mod) (0#18) 29 6 (by decide)).trans ((cut_hi (n := 18) (m := 5) (o.rd ++ o.ra ++ o.rb) (o.mod) 11 6 (by decide)).trans ((cut_hi (n := 12) (m := 6) (o.rd ++ o.ra) (o.rb) 6 6 (by decide)).trans ((cut_lo (n := 6) (m := 6) (o.rd) (o.ra) 0 6 (by decide)).trans (cut_all o.ra))))
  have h2 : o.pack.extractLsb' 23 6 = o.rb := (cut_hi (n := 23) (m := 18) (o.rd ++ o.ra ++ o.rb ++ o.mod) (0#18) 23 6 (by decide)).trans ((cut_hi (n := 18) (m := 5) (o.rd ++ o.ra ++ o.rb) (o.mod) 5 6 (by decide)).trans ((cut_lo (n := 12) (m := 6) (o.rd ++ o.ra) (o.rb) 0 6 (by decide)).trans (cut_all o.rb)))
  have h3 : o.pack.extractLsb' 18 5 = o.mod := (cut_hi (n := 23) (m := 18) (o.rd ++ o.ra ++ o.rb ++ o.mod) (0#18) 18 5 (by decide)).trans ((cut_lo (n := 18) (m := 5) (o.rd ++ o.ra ++ o.rb) (o.mod) 0 5 (by decide)).trans (cut_all o.mod))
  show SR.mk (o.pack.extractLsb' 35 6) (o.pack.extractLsb' 29 6) (o.pack.extractLsb' 23 6) (o.pack.extractLsb' 18 5) = o
  rw [h0, h1, h2, h3]

theorem SI.unpack_pack (o : SI) : SI.unpack o.pack = o := by
  have h0 : o.pack.extractLsb' 35 6 = o.rd := (cut_hi (n := 12) (m := 29) (o.rd ++ o.ra) (o.imm) 35 6 (by decide)).trans ((cut_hi (n := 6) (m := 6) (o.rd) (o.ra) 6 6 (by decide)).trans (cut_all o.rd))
  have h1 : o.pack.extractLsb' 29 6 = o.ra := (cut_hi (n := 12) (m := 29) (o.rd ++ o.ra) (o.imm) 29 6 (by decide)).trans ((cut_lo (n := 6) (m := 6) (o.rd) (o.ra) 0 6 (by decide)).trans (cut_all o.ra))
  have h2 : o.pack.extractLsb' 0 29 = o.imm := (cut_lo (n := 12) (m := 29) (o.rd ++ o.ra) (o.imm) 0 29 (by decide)).trans (cut_all o.imm)
  show SI.mk (o.pack.extractLsb' 35 6) (o.pack.extractLsb' 29 6) (o.pack.extractLsb' 0 29) = o
  rw [h0, h1, h2]

theorem SL.unpack_pack (o : SL) : SL.unpack o.pack = o := by
  have h0 : o.pack.extractLsb' 35 6 = o.rd := (cut_hi (n := 6) (m := 35) (o.rd) (o.imm) 35 6 (by decide)).trans (cut_all o.rd)
  have h1 : o.pack.extractLsb' 0 35 = o.imm := (cut_lo (n := 6) (m := 35) (o.rd) (o.imm) 0 35 (by decide)).trans (cut_all o.imm)
  show SL.mk (o.pack.extractLsb' 35 6) (o.pack.extractLsb' 0 35) = o
  rw [h0, h1]

theorem SS.unpack_pack (o : SS) : SS.unpack o.pack = o := by
  have h0 : o.pack.extractLsb' 35 6 = o.rd := (cut_hi (n := 22) (m := 19) (o.rd ++ o.ra ++ o.rb ++ o.pa) (0#19) 35 6 (by decide)).trans ((cut_hi (n := 18) (m := 4) (o.rd ++ o.ra ++ o.rb) (o.pa) 16 6 (by decide)).trans ((cut_hi (n := 12) (m := 6) (o.rd ++ o.ra) (o.rb) 12 6 (by decide)).trans ((cut_hi (n := 6) (m := 6) (o.rd) (o.ra) 6 6 (by decide)).trans (cut_all o.rd))))
  have h1 : o.pack.extractLsb' 29 6 = o.ra := (cut_hi (n := 22) (m := 19) (o.rd ++ o.ra ++ o.rb ++ o.pa) (0#19) 29 6 (by decide)).trans ((cut_hi (n := 18) (m := 4) (o.rd ++ o.ra ++ o.rb) (o.pa) 10 6 (by decide)).trans ((cut_hi (n := 12) (m := 6) (o.rd ++ o.ra) (o.rb) 6 6 (by decide)).trans ((cut_lo (n := 6) (m := 6) (o.rd) (o.ra) 0 6 (by decide)).trans (cut_all o.ra))))
  have h2 : o.pack.extractLsb' 23 6 = o.rb := (cut_hi (n := 22) (m := 19) (o.rd ++ o.ra ++ o.rb ++ o.pa) (0#19) 23 6 (by decide)).trans ((cut_hi (n := 18) (m := 4) (o.rd ++ o.ra ++ o.rb) (o.pa) 4 6 (by decide)).trans ((cut_lo (n := 12) (m := 6) (o.rd ++ o.ra) (o.rb) 0 6 (by decide)).trans (cut_all o.rb)))
  have h3 : o.pack.extractLsb' 19 4 = o.pa := (cut_hi (n := 22) (m := 19) (o.rd ++ o.ra ++ o.rb ++ o.pa) (0#19) 19 4 (by decide)).trans ((cut_lo (n := 18) (m := 4) (o.rd ++ o.ra ++ o.rb) (o.pa) 0 4 (by decide)).trans (cut_all o.pa))
  show SS.mk (o.pack.extractLsb' 35 6) (o.pack.extractLsb' 29 6) (o.pack.extractLsb' 23 6) (o.pack.extractLsb' 19 4) = o
  rw [h0, h1, h2, h3]

theorem SC.unpack_pack (o : SC) : SC.unpack o.pack = o := by
  have h0 : o.pack.extractLsb' 37 4 = o.pt := (cut_hi (n := 23) (m := 18) (o.pt ++ o.pf ++ o.ra ++ o.rb ++ o.cc) (0#18) 37 4 (by decide)).trans ((cut_hi (n := 20) (m := 3) (o.pt ++ o.pf ++ o.ra ++ o.rb) (o.cc) 19 4 (by decide)).trans ((cut_hi (n := 14) (m := 6) (o.pt ++ o.pf ++ o.ra) (o.rb) 16 4 (by decide)).trans ((cut_hi (n := 8) (m := 6) (o.pt ++ o.pf) (o.ra) 10 4 (by decide)).trans ((cut_hi (n := 4) (m := 4) (o.pt) (o.pf) 4 4 (by decide)).trans (cut_all o.pt)))))
  have h1 : o.pack.extractLsb' 33 4 = o.pf := (cut_hi (n := 23) (m := 18) (o.pt ++ o.pf ++ o.ra ++ o.rb ++ o.cc) (0#18) 33 4 (by decide)).trans ((cut_hi (n := 20) (m := 3) (o.pt ++ o.pf ++ o.ra ++ o.rb) (o.cc) 15 4 (by decide)).trans ((cut_hi (n := 14) (m := 6) (o.pt ++ o.pf ++ o.ra) (o.rb) 12 4 (by decide)).trans ((cut_hi (n := 8) (m := 6) (o.pt ++ o.pf) (o.ra) 6 4 (by decide)).trans ((cut_lo (n := 4) (m := 4) (o.pt) (o.pf) 0 4 (by decide)).trans (cut_all o.pf)))))
  have h2 : o.pack.extractLsb' 27 6 = o.ra := (cut_hi (n := 23) (m := 18) (o.pt ++ o.pf ++ o.ra ++ o.rb ++ o.cc) (0#18) 27 6 (by decide)).trans ((cut_hi (n := 20) (m := 3) (o.pt ++ o.pf ++ o.ra ++ o.rb) (o.cc) 9 6 (by decide)).trans ((cut_hi (n := 14) (m := 6) (o.pt ++ o.pf ++ o.ra) (o.rb) 6 6 (by decide)).trans ((cut_lo (n := 8) (m := 6) (o.pt ++ o.pf) (o.ra) 0 6 (by decide)).trans (cut_all o.ra))))
  have h3 : o.pack.extractLsb' 21 6 = o.rb := (cut_hi (n := 23) (m := 18) (o.pt ++ o.pf ++ o.ra ++ o.rb ++ o.cc) (0#18) 21 6 (by decide)).trans ((cut_hi (n := 20) (m := 3) (o.pt ++ o.pf ++ o.ra ++ o.rb) (o.cc) 3 6 (by decide)).trans ((cut_lo (n := 14) (m := 6) (o.pt ++ o.pf ++ o.ra) (o.rb) 0 6 (by decide)).trans (cut_all o.rb)))
  have h4 : o.pack.extractLsb' 18 3 = o.cc := (cut_hi (n := 23) (m := 18) (o.pt ++ o.pf ++ o.ra ++ o.rb ++ o.cc) (0#18) 18 3 (by decide)).trans ((cut_lo (n := 20) (m := 3) (o.pt ++ o.pf ++ o.ra ++ o.rb) (o.cc) 0 3 (by decide)).trans (cut_all o.cc))
  show SC.mk (o.pack.extractLsb' 37 4) (o.pack.extractLsb' 33 4) (o.pack.extractLsb' 27 6) (o.pack.extractLsb' 21 6) (o.pack.extractLsb' 18 3) = o
  rw [h0, h1, h2, h3, h4]

theorem SCI.unpack_pack (o : SCI) : SCI.unpack o.pack = o := by
  have h0 : o.pack.extractLsb' 37 4 = o.pt := (cut_hi (n := 17) (m := 24) (o.pt ++ o.pf ++ o.ra ++ o.cc) (o.imm) 37 4 (by decide)).trans ((cut_hi (n := 14) (m := 3) (o.pt ++ o.pf ++ o.ra) (o.cc) 13 4 (by decide)).trans ((cut_hi (n := 8) (m := 6) (o.pt ++ o.pf) (o.ra) 10 4 (by decide)).trans ((cut_hi (n := 4) (m := 4) (o.pt) (o.pf) 4 4 (by decide)).trans (cut_all o.pt))))
  have h1 : o.pack.extractLsb' 33 4 = o.pf := (cut_hi (n := 17) (m := 24) (o.pt ++ o.pf ++ o.ra ++ o.cc) (o.imm) 33 4 (by decide)).trans ((cut_hi (n := 14) (m := 3) (o.pt ++ o.pf ++ o.ra) (o.cc) 9 4 (by decide)).trans ((cut_hi (n := 8) (m := 6) (o.pt ++ o.pf) (o.ra) 6 4 (by decide)).trans ((cut_lo (n := 4) (m := 4) (o.pt) (o.pf) 0 4 (by decide)).trans (cut_all o.pf))))
  have h2 : o.pack.extractLsb' 27 6 = o.ra := (cut_hi (n := 17) (m := 24) (o.pt ++ o.pf ++ o.ra ++ o.cc) (o.imm) 27 6 (by decide)).trans ((cut_hi (n := 14) (m := 3) (o.pt ++ o.pf ++ o.ra) (o.cc) 3 6 (by decide)).trans ((cut_lo (n := 8) (m := 6) (o.pt ++ o.pf) (o.ra) 0 6 (by decide)).trans (cut_all o.ra)))
  have h3 : o.pack.extractLsb' 24 3 = o.cc := (cut_hi (n := 17) (m := 24) (o.pt ++ o.pf ++ o.ra ++ o.cc) (o.imm) 24 3 (by decide)).trans ((cut_lo (n := 14) (m := 3) (o.pt ++ o.pf ++ o.ra) (o.cc) 0 3 (by decide)).trans (cut_all o.cc))
  have h4 : o.pack.extractLsb' 0 24 = o.imm := (cut_lo (n := 17) (m := 24) (o.pt ++ o.pf ++ o.ra ++ o.cc) (o.imm) 0 24 (by decide)).trans (cut_all o.imm)
  show SCI.mk (o.pack.extractLsb' 37 4) (o.pack.extractLsb' 33 4) (o.pack.extractLsb' 27 6) (o.pack.extractLsb' 24 3) (o.pack.extractLsb' 0 24) = o
  rw [h0, h1, h2, h3, h4]

theorem SP.unpack_pack (o : SP) : SP.unpack o.pack = o := by
  have h0 : o.pack.extractLsb' 37 4 = o.pt := (cut_hi (n := 22) (m := 19) (o.pt ++ o.pf ++ o.pa ++ o.pb ++ o.ra) (0#19) 37 4 (by decide)).trans ((cut_hi (n := 16) (m := 6) (o.pt ++ o.pf ++ o.pa ++ o.pb) (o.ra) 18 4 (by decide)).trans ((cut_hi (n := 12) (m := 4) (o.pt ++ o.pf ++ o.pa) (o.pb) 12 4 (by decide)).trans ((cut_hi (n := 8) (m := 4) (o.pt ++ o.pf) (o.pa) 8 4 (by decide)).trans ((cut_hi (n := 4) (m := 4) (o.pt) (o.pf) 4 4 (by decide)).trans (cut_all o.pt)))))
  have h1 : o.pack.extractLsb' 33 4 = o.pf := (cut_hi (n := 22) (m := 19) (o.pt ++ o.pf ++ o.pa ++ o.pb ++ o.ra) (0#19) 33 4 (by decide)).trans ((cut_hi (n := 16) (m := 6) (o.pt ++ o.pf ++ o.pa ++ o.pb) (o.ra) 14 4 (by decide)).trans ((cut_hi (n := 12) (m := 4) (o.pt ++ o.pf ++ o.pa) (o.pb) 8 4 (by decide)).trans ((cut_hi (n := 8) (m := 4) (o.pt ++ o.pf) (o.pa) 4 4 (by decide)).trans ((cut_lo (n := 4) (m := 4) (o.pt) (o.pf) 0 4 (by decide)).trans (cut_all o.pf)))))
  have h2 : o.pack.extractLsb' 29 4 = o.pa := (cut_hi (n := 22) (m := 19) (o.pt ++ o.pf ++ o.pa ++ o.pb ++ o.ra) (0#19) 29 4 (by decide)).trans ((cut_hi (n := 16) (m := 6) (o.pt ++ o.pf ++ o.pa ++ o.pb) (o.ra) 10 4 (by decide)).trans ((cut_hi (n := 12) (m := 4) (o.pt ++ o.pf ++ o.pa) (o.pb) 4 4 (by decide)).trans ((cut_lo (n := 8) (m := 4) (o.pt ++ o.pf) (o.pa) 0 4 (by decide)).trans (cut_all o.pa))))
  have h3 : o.pack.extractLsb' 25 4 = o.pb := (cut_hi (n := 22) (m := 19) (o.pt ++ o.pf ++ o.pa ++ o.pb ++ o.ra) (0#19) 25 4 (by decide)).trans ((cut_hi (n := 16) (m := 6) (o.pt ++ o.pf ++ o.pa ++ o.pb) (o.ra) 6 4 (by decide)).trans ((cut_lo (n := 12) (m := 4) (o.pt ++ o.pf ++ o.pa) (o.pb) 0 4 (by decide)).trans (cut_all o.pb)))
  have h4 : o.pack.extractLsb' 19 6 = o.ra := (cut_hi (n := 22) (m := 19) (o.pt ++ o.pf ++ o.pa ++ o.pb ++ o.ra) (0#19) 19 6 (by decide)).trans ((cut_lo (n := 16) (m := 6) (o.pt ++ o.pf ++ o.pa ++ o.pb) (o.ra) 0 6 (by decide)).trans (cut_all o.ra))
  show SP.mk (o.pack.extractLsb' 37 4) (o.pack.extractLsb' 33 4) (o.pack.extractLsb' 29 4) (o.pack.extractLsb' 25 4) (o.pack.extractLsb' 19 6) = o
  rw [h0, h1, h2, h3, h4]

theorem SB.unpack_pack (o : SB) : SB.unpack o.pack = o := by
  have h0 : o.pack.extractLsb' 37 4 = o.bd := (cut_hi (n := 14) (m := 27) (o.bd ++ o.ba ++ o.ra) (0#27) 37 4 (by decide)).trans ((cut_hi (n := 8) (m := 6) (o.bd ++ o.ba) (o.ra) 10 4 (by decide)).trans ((cut_hi (n := 4) (m := 4) (o.bd) (o.ba) 4 4 (by decide)).trans (cut_all o.bd)))
  have h1 : o.pack.extractLsb' 33 4 = o.ba := (cut_hi (n := 14) (m := 27) (o.bd ++ o.ba ++ o.ra) (0#27) 33 4 (by decide)).trans ((cut_hi (n := 8) (m := 6) (o.bd ++ o.ba) (o.ra) 6 4 (by decide)).trans ((cut_lo (n := 4) (m := 4) (o.bd) (o.ba) 0 4 (by decide)).trans (cut_all o.ba)))
  have h2 : o.pack.extractLsb' 27 6 = o.ra := (cut_hi (n := 14) (m := 27) (o.bd ++ o.ba ++ o.ra) (0#27) 27 6 (by decide)).trans ((cut_lo (n := 8) (m := 6) (o.bd ++ o.ba) (o.ra) 0 6 (by decide)).trans (cut_all o.ra))
  show SB.mk (o.pack.extractLsb' 37 4) (o.pack.extractLsb' 33 4) (o.pack.extractLsb' 27 6) = o
  rw [h0, h1, h2]

theorem SBL.unpack_pack (o : SBL) : SBL.unpack o.pack = o := by
  have h0 : o.pack.extractLsb' 37 4 = o.bd := (cut_hi (n := 9) (m := 32) (o.bd ++ 0#5) (o.pos) 37 4 (by decide)).trans ((cut_hi (n := 4) (m := 5) (o.bd) (0#5) 5 4 (by decide)).trans (cut_all o.bd))
  have h1 : o.pack.extractLsb' 0 32 = o.pos := (cut_lo (n := 9) (m := 32) (o.bd ++ 0#5) (o.pos) 0 32 (by decide)).trans (cut_all o.pos)
  show SBL.mk (o.pack.extractLsb' 37 4) (o.pack.extractLsb' 0 32) = o
  rw [h0, h1]

theorem SX.unpack_pack (o : SX) : SX.unpack o.pack = o := by
  have h0 : o.pack.extractLsb' 35 6 = o.rd := (cut_hi (n := 18) (m := 23) (o.rd ++ o.ra ++ o.rb) (o.imm) 35 6 (by decide)).trans ((cut_hi (n := 12) (m := 6) (o.rd ++ o.ra) (o.rb) 12 6 (by decide)).trans ((cut_hi (n := 6) (m := 6) (o.rd) (o.ra) 6 6 (by decide)).trans (cut_all o.rd)))
  have h1 : o.pack.extractLsb' 29 6 = o.ra := (cut_hi (n := 18) (m := 23) (o.rd ++ o.ra ++ o.rb) (o.imm) 29 6 (by decide)).trans ((cut_hi (n := 12) (m := 6) (o.rd ++ o.ra) (o.rb) 6 6 (by decide)).trans ((cut_lo (n := 6) (m := 6) (o.rd) (o.ra) 0 6 (by decide)).trans (cut_all o.ra)))
  have h2 : o.pack.extractLsb' 23 6 = o.rb := (cut_hi (n := 18) (m := 23) (o.rd ++ o.ra ++ o.rb) (o.imm) 23 6 (by decide)).trans ((cut_lo (n := 12) (m := 6) (o.rd ++ o.ra) (o.rb) 0 6 (by decide)).trans (cut_all o.rb))
  have h3 : o.pack.extractLsb' 0 23 = o.imm := (cut_lo (n := 18) (m := 23) (o.rd ++ o.ra ++ o.rb) (o.imm) 0 23 (by decide)).trans (cut_all o.imm)
  show SX.mk (o.pack.extractLsb' 35 6) (o.pack.extractLsb' 29 6) (o.pack.extractLsb' 23 6) (o.pack.extractLsb' 0 23) = o
  rw [h0, h1, h2, h3]

theorem SW.unpack_pack (o : SW) : SW.unpack o.pack = o := by
  have h0 : o.pack.extractLsb' 35 6 = o.l := (cut_hi (n := 24) (m := 17) (o.l ++ o.s ++ o.c ++ o.t) (0#17) 35 6 (by decide)).trans ((cut_hi (n := 18) (m := 6) (o.l ++ o.s ++ o.c) (o.t) 18 6 (by decide)).trans ((cut_hi (n := 12) (m := 6) (o.l ++ o.s) (o.c) 12 6 (by decide)).trans ((cut_hi (n := 6) (m := 6) (o.l) (o.s) 6 6 (by decide)).trans (cut_all o.l))))
  have h1 : o.pack.extractLsb' 29 6 = o.s := (cut_hi (n := 24) (m := 17) (o.l ++ o.s ++ o.c ++ o.t) (0#17) 29 6 (by decide)).trans ((cut_hi (n := 18) (m := 6) (o.l ++ o.s ++ o.c) (o.t) 12 6 (by decide)).trans ((cut_hi (n := 12) (m := 6) (o.l ++ o.s) (o.c) 6 6 (by decide)).trans ((cut_lo (n := 6) (m := 6) (o.l) (o.s) 0 6 (by decide)).trans (cut_all o.s))))
  have h2 : o.pack.extractLsb' 23 6 = o.c := (cut_hi (n := 24) (m := 17) (o.l ++ o.s ++ o.c ++ o.t) (0#17) 23 6 (by decide)).trans ((cut_hi (n := 18) (m := 6) (o.l ++ o.s ++ o.c) (o.t) 6 6 (by decide)).trans ((cut_lo (n := 12) (m := 6) (o.l ++ o.s) (o.c) 0 6 (by decide)).trans (cut_all o.c)))
  have h3 : o.pack.extractLsb' 17 6 = o.t := (cut_hi (n := 24) (m := 17) (o.l ++ o.s ++ o.c ++ o.t) (0#17) 17 6 (by decide)).trans ((cut_lo (n := 18) (m := 6) (o.l ++ o.s ++ o.c) (o.t) 0 6 (by decide)).trans (cut_all o.t))
  show SW.mk (o.pack.extractLsb' 35 6) (o.pack.extractLsb' 29 6) (o.pack.extractLsb' 23 6) (o.pack.extractLsb' 17 6) = o
  rw [h0, h1, h2, h3]

theorem VR.unpack_pack (o : VR) : VR.unpack o.pack = o := by
  have h0 : o.pack.extractLsb' 35 6 = o.vd := (cut_hi (n := 36) (m := 5) (o.vd ++ o.va ++ o.vb ++ o.vc ++ o.msk ++ o.rm ++ o.et ++ o.mod) (0#5) 35 6 (by decide)).trans ((cut_hi (n := 32) (m := 4) (o.vd ++ o.va ++ o.vb ++ o.vc ++ o.msk ++ o.rm ++ o.et) (o.mod) 30 6 (by decide)).trans ((cut_hi (n := 29) (m := 3) (o.vd ++ o.va ++ o.vb ++ o.vc ++ o.msk ++ o.rm) (o.et) 26 6 (by decide)).trans ((cut_hi (n := 27) (m := 2) (o.vd ++ o.va ++ o.vb ++ o.vc ++ o.msk) (o.rm) 23 6 (by decide)).trans ((cut_hi (n := 24) (m := 3) (o.vd ++ o.va ++ o.vb ++ o.vc) (o.msk) 21 6 (by decide)).trans ((cut_hi (n := 18) (m := 6) (o.vd ++ o.va ++ o.vb) (o.vc) 18 6 (by decide)).trans ((cut_hi (n := 12) (m := 6) (o.vd ++ o.va) (o.vb) 12 6 (by decide)).trans ((cut_hi (n := 6) (m := 6) (o.vd) (o.va) 6 6 (by decide)).trans (cut_all o.vd))))))))
  have h1 : o.pack.extractLsb' 29 6 = o.va := (cut_hi (n := 36) (m := 5) (o.vd ++ o.va ++ o.vb ++ o.vc ++ o.msk ++ o.rm ++ o.et ++ o.mod) (0#5) 29 6 (by decide)).trans ((cut_hi (n := 32) (m := 4) (o.vd ++ o.va ++ o.vb ++ o.vc ++ o.msk ++ o.rm ++ o.et) (o.mod) 24 6 (by decide)).trans ((cut_hi (n := 29) (m := 3) (o.vd ++ o.va ++ o.vb ++ o.vc ++ o.msk ++ o.rm) (o.et) 20 6 (by decide)).trans ((cut_hi (n := 27) (m := 2) (o.vd ++ o.va ++ o.vb ++ o.vc ++ o.msk) (o.rm) 17 6 (by decide)).trans ((cut_hi (n := 24) (m := 3) (o.vd ++ o.va ++ o.vb ++ o.vc) (o.msk) 15 6 (by decide)).trans ((cut_hi (n := 18) (m := 6) (o.vd ++ o.va ++ o.vb) (o.vc) 12 6 (by decide)).trans ((cut_hi (n := 12) (m := 6) (o.vd ++ o.va) (o.vb) 6 6 (by decide)).trans ((cut_lo (n := 6) (m := 6) (o.vd) (o.va) 0 6 (by decide)).trans (cut_all o.va))))))))
  have h2 : o.pack.extractLsb' 23 6 = o.vb := (cut_hi (n := 36) (m := 5) (o.vd ++ o.va ++ o.vb ++ o.vc ++ o.msk ++ o.rm ++ o.et ++ o.mod) (0#5) 23 6 (by decide)).trans ((cut_hi (n := 32) (m := 4) (o.vd ++ o.va ++ o.vb ++ o.vc ++ o.msk ++ o.rm ++ o.et) (o.mod) 18 6 (by decide)).trans ((cut_hi (n := 29) (m := 3) (o.vd ++ o.va ++ o.vb ++ o.vc ++ o.msk ++ o.rm) (o.et) 14 6 (by decide)).trans ((cut_hi (n := 27) (m := 2) (o.vd ++ o.va ++ o.vb ++ o.vc ++ o.msk) (o.rm) 11 6 (by decide)).trans ((cut_hi (n := 24) (m := 3) (o.vd ++ o.va ++ o.vb ++ o.vc) (o.msk) 9 6 (by decide)).trans ((cut_hi (n := 18) (m := 6) (o.vd ++ o.va ++ o.vb) (o.vc) 6 6 (by decide)).trans ((cut_lo (n := 12) (m := 6) (o.vd ++ o.va) (o.vb) 0 6 (by decide)).trans (cut_all o.vb)))))))
  have h3 : o.pack.extractLsb' 17 6 = o.vc := (cut_hi (n := 36) (m := 5) (o.vd ++ o.va ++ o.vb ++ o.vc ++ o.msk ++ o.rm ++ o.et ++ o.mod) (0#5) 17 6 (by decide)).trans ((cut_hi (n := 32) (m := 4) (o.vd ++ o.va ++ o.vb ++ o.vc ++ o.msk ++ o.rm ++ o.et) (o.mod) 12 6 (by decide)).trans ((cut_hi (n := 29) (m := 3) (o.vd ++ o.va ++ o.vb ++ o.vc ++ o.msk ++ o.rm) (o.et) 8 6 (by decide)).trans ((cut_hi (n := 27) (m := 2) (o.vd ++ o.va ++ o.vb ++ o.vc ++ o.msk) (o.rm) 5 6 (by decide)).trans ((cut_hi (n := 24) (m := 3) (o.vd ++ o.va ++ o.vb ++ o.vc) (o.msk) 3 6 (by decide)).trans ((cut_lo (n := 18) (m := 6) (o.vd ++ o.va ++ o.vb) (o.vc) 0 6 (by decide)).trans (cut_all o.vc))))))
  have h4 : o.pack.extractLsb' 14 3 = o.msk := (cut_hi (n := 36) (m := 5) (o.vd ++ o.va ++ o.vb ++ o.vc ++ o.msk ++ o.rm ++ o.et ++ o.mod) (0#5) 14 3 (by decide)).trans ((cut_hi (n := 32) (m := 4) (o.vd ++ o.va ++ o.vb ++ o.vc ++ o.msk ++ o.rm ++ o.et) (o.mod) 9 3 (by decide)).trans ((cut_hi (n := 29) (m := 3) (o.vd ++ o.va ++ o.vb ++ o.vc ++ o.msk ++ o.rm) (o.et) 5 3 (by decide)).trans ((cut_hi (n := 27) (m := 2) (o.vd ++ o.va ++ o.vb ++ o.vc ++ o.msk) (o.rm) 2 3 (by decide)).trans ((cut_lo (n := 24) (m := 3) (o.vd ++ o.va ++ o.vb ++ o.vc) (o.msk) 0 3 (by decide)).trans (cut_all o.msk)))))
  have h5 : o.pack.extractLsb' 12 2 = o.rm := (cut_hi (n := 36) (m := 5) (o.vd ++ o.va ++ o.vb ++ o.vc ++ o.msk ++ o.rm ++ o.et ++ o.mod) (0#5) 12 2 (by decide)).trans ((cut_hi (n := 32) (m := 4) (o.vd ++ o.va ++ o.vb ++ o.vc ++ o.msk ++ o.rm ++ o.et) (o.mod) 7 2 (by decide)).trans ((cut_hi (n := 29) (m := 3) (o.vd ++ o.va ++ o.vb ++ o.vc ++ o.msk ++ o.rm) (o.et) 3 2 (by decide)).trans ((cut_lo (n := 27) (m := 2) (o.vd ++ o.va ++ o.vb ++ o.vc ++ o.msk) (o.rm) 0 2 (by decide)).trans (cut_all o.rm))))
  have h6 : o.pack.extractLsb' 9 3 = o.et := (cut_hi (n := 36) (m := 5) (o.vd ++ o.va ++ o.vb ++ o.vc ++ o.msk ++ o.rm ++ o.et ++ o.mod) (0#5) 9 3 (by decide)).trans ((cut_hi (n := 32) (m := 4) (o.vd ++ o.va ++ o.vb ++ o.vc ++ o.msk ++ o.rm ++ o.et) (o.mod) 4 3 (by decide)).trans ((cut_lo (n := 29) (m := 3) (o.vd ++ o.va ++ o.vb ++ o.vc ++ o.msk ++ o.rm) (o.et) 0 3 (by decide)).trans (cut_all o.et)))
  have h7 : o.pack.extractLsb' 5 4 = o.mod := (cut_hi (n := 36) (m := 5) (o.vd ++ o.va ++ o.vb ++ o.vc ++ o.msk ++ o.rm ++ o.et ++ o.mod) (0#5) 5 4 (by decide)).trans ((cut_lo (n := 32) (m := 4) (o.vd ++ o.va ++ o.vb ++ o.vc ++ o.msk ++ o.rm ++ o.et) (o.mod) 0 4 (by decide)).trans (cut_all o.mod))
  show VR.mk (o.pack.extractLsb' 35 6) (o.pack.extractLsb' 29 6) (o.pack.extractLsb' 23 6) (o.pack.extractLsb' 17 6) (o.pack.extractLsb' 14 3) (o.pack.extractLsb' 12 2) (o.pack.extractLsb' 9 3) (o.pack.extractLsb' 5 4) = o
  rw [h0, h1, h2, h3, h4, h5, h6, h7]

theorem VS.unpack_pack (o : VS) : VS.unpack o.pack = o := by
  have h0 : o.pack.extractLsb' 35 6 = o.vd := (cut_hi (n := 28) (m := 13) (o.vd ++ o.va ++ o.sa ++ o.msk ++ o.et ++ o.mod) (o.imm) 35 6 (by decide)).trans ((cut_hi (n := 24) (m := 4) (o.vd ++ o.va ++ o.sa ++ o.msk ++ o.et) (o.mod) 22 6 (by decide)).trans ((cut_hi (n := 21) (m := 3) (o.vd ++ o.va ++ o.sa ++ o.msk) (o.et) 18 6 (by decide)).trans ((cut_hi (n := 18) (m := 3) (o.vd ++ o.va ++ o.sa) (o.msk) 15 6 (by decide)).trans ((cut_hi (n := 12) (m := 6) (o.vd ++ o.va) (o.sa) 12 6 (by decide)).trans ((cut_hi (n := 6) (m := 6) (o.vd) (o.va) 6 6 (by decide)).trans (cut_all o.vd))))))
  have h1 : o.pack.extractLsb' 29 6 = o.va := (cut_hi (n := 28) (m := 13) (o.vd ++ o.va ++ o.sa ++ o.msk ++ o.et ++ o.mod) (o.imm) 29 6 (by decide)).trans ((cut_hi (n := 24) (m := 4) (o.vd ++ o.va ++ o.sa ++ o.msk ++ o.et) (o.mod) 16 6 (by decide)).trans ((cut_hi (n := 21) (m := 3) (o.vd ++ o.va ++ o.sa ++ o.msk) (o.et) 12 6 (by decide)).trans ((cut_hi (n := 18) (m := 3) (o.vd ++ o.va ++ o.sa) (o.msk) 9 6 (by decide)).trans ((cut_hi (n := 12) (m := 6) (o.vd ++ o.va) (o.sa) 6 6 (by decide)).trans ((cut_lo (n := 6) (m := 6) (o.vd) (o.va) 0 6 (by decide)).trans (cut_all o.va))))))
  have h2 : o.pack.extractLsb' 23 6 = o.sa := (cut_hi (n := 28) (m := 13) (o.vd ++ o.va ++ o.sa ++ o.msk ++ o.et ++ o.mod) (o.imm) 23 6 (by decide)).trans ((cut_hi (n := 24) (m := 4) (o.vd ++ o.va ++ o.sa ++ o.msk ++ o.et) (o.mod) 10 6 (by decide)).trans ((cut_hi (n := 21) (m := 3) (o.vd ++ o.va ++ o.sa ++ o.msk) (o.et) 6 6 (by decide)).trans ((cut_hi (n := 18) (m := 3) (o.vd ++ o.va ++ o.sa) (o.msk) 3 6 (by decide)).trans ((cut_lo (n := 12) (m := 6) (o.vd ++ o.va) (o.sa) 0 6 (by decide)).trans (cut_all o.sa)))))
  have h3 : o.pack.extractLsb' 20 3 = o.msk := (cut_hi (n := 28) (m := 13) (o.vd ++ o.va ++ o.sa ++ o.msk ++ o.et ++ o.mod) (o.imm) 20 3 (by decide)).trans ((cut_hi (n := 24) (m := 4) (o.vd ++ o.va ++ o.sa ++ o.msk ++ o.et) (o.mod) 7 3 (by decide)).trans ((cut_hi (n := 21) (m := 3) (o.vd ++ o.va ++ o.sa ++ o.msk) (o.et) 3 3 (by decide)).trans ((cut_lo (n := 18) (m := 3) (o.vd ++ o.va ++ o.sa) (o.msk) 0 3 (by decide)).trans (cut_all o.msk))))
  have h4 : o.pack.extractLsb' 17 3 = o.et := (cut_hi (n := 28) (m := 13) (o.vd ++ o.va ++ o.sa ++ o.msk ++ o.et ++ o.mod) (o.imm) 17 3 (by decide)).trans ((cut_hi (n := 24) (m := 4) (o.vd ++ o.va ++ o.sa ++ o.msk ++ o.et) (o.mod) 4 3 (by decide)).trans ((cut_lo (n := 21) (m := 3) (o.vd ++ o.va ++ o.sa ++ o.msk) (o.et) 0 3 (by decide)).trans (cut_all o.et)))
  have h5 : o.pack.extractLsb' 13 4 = o.mod := (cut_hi (n := 28) (m := 13) (o.vd ++ o.va ++ o.sa ++ o.msk ++ o.et ++ o.mod) (o.imm) 13 4 (by decide)).trans ((cut_lo (n := 24) (m := 4) (o.vd ++ o.va ++ o.sa ++ o.msk ++ o.et) (o.mod) 0 4 (by decide)).trans (cut_all o.mod))
  have h6 : o.pack.extractLsb' 0 13 = o.imm := (cut_lo (n := 28) (m := 13) (o.vd ++ o.va ++ o.sa ++ o.msk ++ o.et ++ o.mod) (o.imm) 0 13 (by decide)).trans (cut_all o.imm)
  show VS.mk (o.pack.extractLsb' 35 6) (o.pack.extractLsb' 29 6) (o.pack.extractLsb' 23 6) (o.pack.extractLsb' 20 3) (o.pack.extractLsb' 17 3) (o.pack.extractLsb' 13 4) (o.pack.extractLsb' 0 13) = o
  rw [h0, h1, h2, h3, h4, h5, h6]

theorem VC.unpack_pack (o : VC) : VC.unpack o.pack = o := by
  have h0 : o.pack.extractLsb' 38 3 = o.md := (cut_hi (n := 24) (m := 17) (o.md ++ o.va ++ o.vb ++ o.msk ++ o.et ++ o.cc) (0#17) 38 3 (by decide)).trans ((cut_hi (n := 21) (m := 3) (o.md ++ o.va ++ o.vb ++ o.msk ++ o.et) (o.cc) 21 3 (by decide)).trans ((cut_hi (n := 18) (m := 3) (o.md ++ o.va ++ o.vb ++ o.msk) (o.et) 18 3 (by decide)).trans ((cut_hi (n := 15) (m := 3) (o.md ++ o.va ++ o.vb) (o.msk) 15 3 (by decide)).trans ((cut_hi (n := 9) (m := 6) (o.md ++ o.va) (o.vb) 12 3 (by decide)).trans ((cut_hi (n := 3) (m := 6) (o.md) (o.va) 6 3 (by decide)).trans (cut_all o.md))))))
  have h1 : o.pack.extractLsb' 32 6 = o.va := (cut_hi (n := 24) (m := 17) (o.md ++ o.va ++ o.vb ++ o.msk ++ o.et ++ o.cc) (0#17) 32 6 (by decide)).trans ((cut_hi (n := 21) (m := 3) (o.md ++ o.va ++ o.vb ++ o.msk ++ o.et) (o.cc) 15 6 (by decide)).trans ((cut_hi (n := 18) (m := 3) (o.md ++ o.va ++ o.vb ++ o.msk) (o.et) 12 6 (by decide)).trans ((cut_hi (n := 15) (m := 3) (o.md ++ o.va ++ o.vb) (o.msk) 9 6 (by decide)).trans ((cut_hi (n := 9) (m := 6) (o.md ++ o.va) (o.vb) 6 6 (by decide)).trans ((cut_lo (n := 3) (m := 6) (o.md) (o.va) 0 6 (by decide)).trans (cut_all o.va))))))
  have h2 : o.pack.extractLsb' 26 6 = o.vb := (cut_hi (n := 24) (m := 17) (o.md ++ o.va ++ o.vb ++ o.msk ++ o.et ++ o.cc) (0#17) 26 6 (by decide)).trans ((cut_hi (n := 21) (m := 3) (o.md ++ o.va ++ o.vb ++ o.msk ++ o.et) (o.cc) 9 6 (by decide)).trans ((cut_hi (n := 18) (m := 3) (o.md ++ o.va ++ o.vb ++ o.msk) (o.et) 6 6 (by decide)).trans ((cut_hi (n := 15) (m := 3) (o.md ++ o.va ++ o.vb) (o.msk) 3 6 (by decide)).trans ((cut_lo (n := 9) (m := 6) (o.md ++ o.va) (o.vb) 0 6 (by decide)).trans (cut_all o.vb)))))
  have h3 : o.pack.extractLsb' 23 3 = o.msk := (cut_hi (n := 24) (m := 17) (o.md ++ o.va ++ o.vb ++ o.msk ++ o.et ++ o.cc) (0#17) 23 3 (by decide)).trans ((cut_hi (n := 21) (m := 3) (o.md ++ o.va ++ o.vb ++ o.msk ++ o.et) (o.cc) 6 3 (by decide)).trans ((cut_hi (n := 18) (m := 3) (o.md ++ o.va ++ o.vb ++ o.msk) (o.et) 3 3 (by decide)).trans ((cut_lo (n := 15) (m := 3) (o.md ++ o.va ++ o.vb) (o.msk) 0 3 (by decide)).trans (cut_all o.msk))))
  have h4 : o.pack.extractLsb' 20 3 = o.et := (cut_hi (n := 24) (m := 17) (o.md ++ o.va ++ o.vb ++ o.msk ++ o.et ++ o.cc) (0#17) 20 3 (by decide)).trans ((cut_hi (n := 21) (m := 3) (o.md ++ o.va ++ o.vb ++ o.msk ++ o.et) (o.cc) 3 3 (by decide)).trans ((cut_lo (n := 18) (m := 3) (o.md ++ o.va ++ o.vb ++ o.msk) (o.et) 0 3 (by decide)).trans (cut_all o.et)))
  have h5 : o.pack.extractLsb' 17 3 = o.cc := (cut_hi (n := 24) (m := 17) (o.md ++ o.va ++ o.vb ++ o.msk ++ o.et ++ o.cc) (0#17) 17 3 (by decide)).trans ((cut_lo (n := 21) (m := 3) (o.md ++ o.va ++ o.vb ++ o.msk ++ o.et) (o.cc) 0 3 (by decide)).trans (cut_all o.cc))
  show VC.mk (o.pack.extractLsb' 38 3) (o.pack.extractLsb' 32 6) (o.pack.extractLsb' 26 6) (o.pack.extractLsb' 23 3) (o.pack.extractLsb' 20 3) (o.pack.extractLsb' 17 3) = o
  rw [h0, h1, h2, h3, h4, h5]

theorem VM.unpack_pack (o : VM) : VM.unpack o.pack = o := by
  have h0 : o.pack.extractLsb' 38 3 = o.md := (cut_hi (n := 15) (m := 26) (o.md ++ o.ma ++ o.mb ++ o.rd) (0#26) 38 3 (by decide)).trans ((cut_hi (n := 9) (m := 6) (o.md ++ o.ma ++ o.mb) (o.rd) 12 3 (by decide)).trans ((cut_hi (n := 6) (m := 3) (o.md ++ o.ma) (o.mb) 6 3 (by decide)).trans ((cut_hi (n := 3) (m := 3) (o.md) (o.ma) 3 3 (by decide)).trans (cut_all o.md))))
  have h1 : o.pack.extractLsb' 35 3 = o.ma := (cut_hi (n := 15) (m := 26) (o.md ++ o.ma ++ o.mb ++ o.rd) (0#26) 35 3 (by decide)).trans ((cut_hi (n := 9) (m := 6) (o.md ++ o.ma ++ o.mb) (o.rd) 9 3 (by decide)).trans ((cut_hi (n := 6) (m := 3) (o.md ++ o.ma) (o.mb) 3 3 (by decide)).trans ((cut_lo (n := 3) (m := 3) (o.md) (o.ma) 0 3 (by decide)).trans (cut_all o.ma))))
  have h2 : o.pack.extractLsb' 32 3 = o.mb := (cut_hi (n := 15) (m := 26) (o.md ++ o.ma ++ o.mb ++ o.rd) (0#26) 32 3 (by decide)).trans ((cut_hi (n := 9) (m := 6) (o.md ++ o.ma ++ o.mb) (o.rd) 6 3 (by decide)).trans ((cut_lo (n := 6) (m := 3) (o.md ++ o.ma) (o.mb) 0 3 (by decide)).trans (cut_all o.mb)))
  have h3 : o.pack.extractLsb' 26 6 = o.rd := (cut_hi (n := 15) (m := 26) (o.md ++ o.ma ++ o.mb ++ o.rd) (0#26) 26 6 (by decide)).trans ((cut_lo (n := 9) (m := 6) (o.md ++ o.ma ++ o.mb) (o.rd) 0 6 (by decide)).trans (cut_all o.rd))
  show VM.mk (o.pack.extractLsb' 38 3) (o.pack.extractLsb' 35 3) (o.pack.extractLsb' 32 3) (o.pack.extractLsb' 26 6) = o
  rw [h0, h1, h2, h3]

theorem VT.unpack_pack (o : VT) : VT.unpack o.pack = o := by
  have h0 : o.pack.extractLsb' 35 6 = o.vd := (cut_hi (n := 31) (m := 10) (o.vd ++ o.tt ++ o.sa ++ o.msk ++ o.imm) (0#10) 35 6 (by decide)).trans ((cut_hi (n := 19) (m := 12) (o.vd ++ o.tt ++ o.sa ++ o.msk) (o.imm) 25 6 (by decide)).trans ((cut_hi (n := 16) (m := 3) (o.vd ++ o.tt ++ o.sa) (o.msk) 13 6 (by decide)).trans ((cut_hi (n := 10) (m := 6) (o.vd ++ o.tt) (o.sa) 10 6 (by decide)).trans ((cut_hi (n := 6) (m := 4) (o.vd) (o.tt) 4 6 (by decide)).trans (cut_all o.vd)))))
  have h1 : o.pack.extractLsb' 31 4 = o.tt := (cut_hi (n := 31) (m := 10) (o.vd ++ o.tt ++ o.sa ++ o.msk ++ o.imm) (0#10) 31 4 (by decide)).trans ((cut_hi (n := 19) (m := 12) (o.vd ++ o.tt ++ o.sa ++ o.msk) (o.imm) 21 4 (by decide)).trans ((cut_hi (n := 16) (m := 3) (o.vd ++ o.tt ++ o.sa) (o.msk) 9 4 (by decide)).trans ((cut_hi (n := 10) (m := 6) (o.vd ++ o.tt) (o.sa) 6 4 (by decide)).trans ((cut_lo (n := 6) (m := 4) (o.vd) (o.tt) 0 4 (by decide)).trans (cut_all o.tt)))))
  have h2 : o.pack.extractLsb' 25 6 = o.sa := (cut_hi (n := 31) (m := 10) (o.vd ++ o.tt ++ o.sa ++ o.msk ++ o.imm) (0#10) 25 6 (by decide)).trans ((cut_hi (n := 19) (m := 12) (o.vd ++ o.tt ++ o.sa ++ o.msk) (o.imm) 15 6 (by decide)).trans ((cut_hi (n := 16) (m := 3) (o.vd ++ o.tt ++ o.sa) (o.msk) 3 6 (by decide)).trans ((cut_lo (n := 10) (m := 6) (o.vd ++ o.tt) (o.sa) 0 6 (by decide)).trans (cut_all o.sa))))
  have h3 : o.pack.extractLsb' 22 3 = o.msk := (cut_hi (n := 31) (m := 10) (o.vd ++ o.tt ++ o.sa ++ o.msk ++ o.imm) (0#10) 22 3 (by decide)).trans ((cut_hi (n := 19) (m := 12) (o.vd ++ o.tt ++ o.sa ++ o.msk) (o.imm) 12 3 (by decide)).trans ((cut_lo (n := 16) (m := 3) (o.vd ++ o.tt ++ o.sa) (o.msk) 0 3 (by decide)).trans (cut_all o.msk)))
  have h4 : o.pack.extractLsb' 10 12 = o.imm := (cut_hi (n := 31) (m := 10) (o.vd ++ o.tt ++ o.sa ++ o.msk ++ o.imm) (0#10) 10 12 (by decide)).trans ((cut_lo (n := 19) (m := 12) (o.vd ++ o.tt ++ o.sa ++ o.msk) (o.imm) 0 12 (by decide)).trans (cut_all o.imm))
  show VT.mk (o.pack.extractLsb' 35 6) (o.pack.extractLsb' 31 4) (o.pack.extractLsb' 25 6) (o.pack.extractLsb' 22 3) (o.pack.extractLsb' 10 12) = o
  rw [h0, h1, h2, h3, h4]

theorem MF.unpack_pack (o : MF) : MF.unpack o.pack = o := by
  have h0 : o.pack.extractLsb' 31 4 = o.td := (cut_hi (n := 30) (m := 5) (o.td ++ o.ak ++ o.aop ++ o.bk ++ o.bop) (o.mod) 31 4 (by decide)).trans ((cut_hi (n := 18) (m := 12) (o.td ++ o.ak ++ o.aop ++ o.bk) (o.bop) 26 4 (by decide)).trans ((cut_hi (n := 17) (m := 1) (o.td ++ o.ak ++ o.aop) (o.bk) 14 4 (by decide)).trans ((cut_hi (n := 5) (m := 12) (o.td ++ o.ak) (o.aop) 13 4 (by decide)).trans ((cut_hi (n := 4) (m := 1) (o.td) (o.ak) 1 4 (by decide)).trans (cut_all o.td)))))
  have h1 : o.pack.extractLsb' 30 1 = o.ak := (cut_hi (n := 30) (m := 5) (o.td ++ o.ak ++ o.aop ++ o.bk ++ o.bop) (o.mod) 30 1 (by decide)).trans ((cut_hi (n := 18) (m := 12) (o.td ++ o.ak ++ o.aop ++ o.bk) (o.bop) 25 1 (by decide)).trans ((cut_hi (n := 17) (m := 1) (o.td ++ o.ak ++ o.aop) (o.bk) 13 1 (by decide)).trans ((cut_hi (n := 5) (m := 12) (o.td ++ o.ak) (o.aop) 12 1 (by decide)).trans ((cut_lo (n := 4) (m := 1) (o.td) (o.ak) 0 1 (by decide)).trans (cut_all o.ak)))))
  have h2 : o.pack.extractLsb' 18 12 = o.aop := (cut_hi (n := 30) (m := 5) (o.td ++ o.ak ++ o.aop ++ o.bk ++ o.bop) (o.mod) 18 12 (by decide)).trans ((cut_hi (n := 18) (m := 12) (o.td ++ o.ak ++ o.aop ++ o.bk) (o.bop) 13 12 (by decide)).trans ((cut_hi (n := 17) (m := 1) (o.td ++ o.ak ++ o.aop) (o.bk) 1 12 (by decide)).trans ((cut_lo (n := 5) (m := 12) (o.td ++ o.ak) (o.aop) 0 12 (by decide)).trans (cut_all o.aop))))
  have h3 : o.pack.extractLsb' 17 1 = o.bk := (cut_hi (n := 30) (m := 5) (o.td ++ o.ak ++ o.aop ++ o.bk ++ o.bop) (o.mod) 17 1 (by decide)).trans ((cut_hi (n := 18) (m := 12) (o.td ++ o.ak ++ o.aop ++ o.bk) (o.bop) 12 1 (by decide)).trans ((cut_lo (n := 17) (m := 1) (o.td ++ o.ak ++ o.aop) (o.bk) 0 1 (by decide)).trans (cut_all o.bk)))
  have h4 : o.pack.extractLsb' 5 12 = o.bop := (cut_hi (n := 30) (m := 5) (o.td ++ o.ak ++ o.aop ++ o.bk ++ o.bop) (o.mod) 5 12 (by decide)).trans ((cut_lo (n := 18) (m := 12) (o.td ++ o.ak ++ o.aop ++ o.bk) (o.bop) 0 12 (by decide)).trans (cut_all o.bop))
  have h5 : o.pack.extractLsb' 0 5 = o.mod := (cut_lo (n := 30) (m := 5) (o.td ++ o.ak ++ o.aop ++ o.bk ++ o.bop) (o.mod) 0 5 (by decide)).trans (cut_all o.mod)
  show MF.mk (o.pack.extractLsb' 31 4) (o.pack.extractLsb' 30 1) (o.pack.extractLsb' 18 12) (o.pack.extractLsb' 17 1) (o.pack.extractLsb' 5 12) (o.pack.extractLsb' 0 5) = o
  rw [h0, h1, h2, h3, h4, h5]

theorem XF.unpack_pack (o : XF) : XF.unpack o.pack = o := by
  have h0 : o.pack.extractLsb' 7 4 = o.td := (cut_hi (n := 8) (m := 3) (o.td ++ o.ta) (o.xe) 7 4 (by decide)).trans ((cut_hi (n := 4) (m := 4) (o.td) (o.ta) 4 4 (by decide)).trans (cut_all o.td))
  have h1 : o.pack.extractLsb' 3 4 = o.ta := (cut_hi (n := 8) (m := 3) (o.td ++ o.ta) (o.xe) 3 4 (by decide)).trans ((cut_lo (n := 4) (m := 4) (o.td) (o.ta) 0 4 (by decide)).trans (cut_all o.ta))
  have h2 : o.pack.extractLsb' 0 3 = o.xe := (cut_lo (n := 8) (m := 3) (o.td ++ o.ta) (o.xe) 0 3 (by decide)).trans (cut_all o.xe)
  show XF.mk (o.pack.extractLsb' 7 4) (o.pack.extractLsb' 3 4) (o.pack.extractLsb' 0 3) = o
  rw [h0, h1, h2]

theorem KF.unpack_pack (o : KF) : KF.unpack o.pack = o := by
  have h0 : o.pack.extractLsb' 0 5 = o.ks := cut_all o.ks
  show KF.mk (o.pack.extractLsb' 0 5) = o
  rw [h0]

theorem CI.unpack_pack (o : CI) : CI.unpack o.pack = o := by
  have h0 : o.pack.extractLsb' 20 6 = o.rd := (cut_hi (n := 12) (m := 14) (o.rd ++ o.rb) (o.imm) 20 6 (by decide)).trans ((cut_hi (n := 6) (m := 6) (o.rd) (o.rb) 6 6 (by decide)).trans (cut_all o.rd))
  have h1 : o.pack.extractLsb' 14 6 = o.rb := (cut_hi (n := 12) (m := 14) (o.rd ++ o.rb) (o.imm) 14 6 (by decide)).trans ((cut_lo (n := 6) (m := 6) (o.rd) (o.rb) 0 6 (by decide)).trans (cut_all o.rb))
  have h2 : o.pack.extractLsb' 0 14 = o.imm := (cut_lo (n := 12) (m := 14) (o.rd ++ o.rb) (o.imm) 0 14 (by decide)).trans (cut_all o.imm)
  show CI.mk (o.pack.extractLsb' 20 6) (o.pack.extractLsb' 14 6) (o.pack.extractLsb' 0 14) = o
  rw [h0, h1, h2]

theorem CA.unpack_pack (o : CA) : CA.unpack o.pack = o := by
  have h0 : o.pack.extractLsb' 20 6 = o.rd := (cut_hi (n := 24) (m := 2) (o.rd ++ o.rb ++ o.rc ++ o.aop ++ o.size) (0#2) 20 6 (by decide)).trans ((cut_hi (n := 22) (m := 2) (o.rd ++ o.rb ++ o.rc ++ o.aop) (o.size) 18 6 (by decide)).trans ((cut_hi (n := 18) (m := 4) (o.rd ++ o.rb ++ o.rc) (o.aop) 16 6 (by decide)).trans ((cut_hi (n := 12) (m := 6) (o.rd ++ o.rb) (o.rc) 12 6 (by decide)).trans ((cut_hi (n := 6) (m := 6) (o.rd) (o.rb) 6 6 (by decide)).trans (cut_all o.rd)))))
  have h1 : o.pack.extractLsb' 14 6 = o.rb := (cut_hi (n := 24) (m := 2) (o.rd ++ o.rb ++ o.rc ++ o.aop ++ o.size) (0#2) 14 6 (by decide)).trans ((cut_hi (n := 22) (m := 2) (o.rd ++ o.rb ++ o.rc ++ o.aop) (o.size) 12 6 (by decide)).trans ((cut_hi (n := 18) (m := 4) (o.rd ++ o.rb ++ o.rc) (o.aop) 10 6 (by decide)).trans ((cut_hi (n := 12) (m := 6) (o.rd ++ o.rb) (o.rc) 6 6 (by decide)).trans ((cut_lo (n := 6) (m := 6) (o.rd) (o.rb) 0 6 (by decide)).trans (cut_all o.rb)))))
  have h2 : o.pack.extractLsb' 8 6 = o.rc := (cut_hi (n := 24) (m := 2) (o.rd ++ o.rb ++ o.rc ++ o.aop ++ o.size) (0#2) 8 6 (by decide)).trans ((cut_hi (n := 22) (m := 2) (o.rd ++ o.rb ++ o.rc ++ o.aop) (o.size) 6 6 (by decide)).trans ((cut_hi (n := 18) (m := 4) (o.rd ++ o.rb ++ o.rc) (o.aop) 4 6 (by decide)).trans ((cut_lo (n := 12) (m := 6) (o.rd ++ o.rb) (o.rc) 0 6 (by decide)).trans (cut_all o.rc))))
  have h3 : o.pack.extractLsb' 4 4 = o.aop := (cut_hi (n := 24) (m := 2) (o.rd ++ o.rb ++ o.rc ++ o.aop ++ o.size) (0#2) 4 4 (by decide)).trans ((cut_hi (n := 22) (m := 2) (o.rd ++ o.rb ++ o.rc ++ o.aop) (o.size) 2 4 (by decide)).trans ((cut_lo (n := 18) (m := 4) (o.rd ++ o.rb ++ o.rc) (o.aop) 0 4 (by decide)).trans (cut_all o.aop)))
  have h4 : o.pack.extractLsb' 2 2 = o.size := (cut_hi (n := 24) (m := 2) (o.rd ++ o.rb ++ o.rc ++ o.aop ++ o.size) (0#2) 2 2 (by decide)).trans ((cut_lo (n := 22) (m := 2) (o.rd ++ o.rb ++ o.rc ++ o.aop) (o.size) 0 2 (by decide)).trans (cut_all o.size))
  show CA.mk (o.pack.extractLsb' 20 6) (o.pack.extractLsb' 14 6) (o.pack.extractLsb' 8 6) (o.pack.extractLsb' 4 4) (o.pack.extractLsb' 2 2) = o
  rw [h0, h1, h2, h3, h4]

theorem CW.unpack_pack (o : CW) : CW.unpack o.pack = o := by
  have h0 : o.pack.extractLsb' 22 4 = o.tt := (cut_hi (n := 24) (m := 2) (o.tt ++ o.win ++ o.rx ++ o.ry) (o.mod) 22 4 (by decide)).trans ((cut_hi (n := 18) (m := 6) (o.tt ++ o.win ++ o.rx) (o.ry) 20 4 (by decide)).trans ((cut_hi (n := 12) (m := 6) (o.tt ++ o.win) (o.rx) 14 4 (by decide)).trans ((cut_hi (n := 4) (m := 8) (o.tt) (o.win) 8 4 (by decide)).trans (cut_all o.tt))))
  have h1 : o.pack.extractLsb' 14 8 = o.win := (cut_hi (n := 24) (m := 2) (o.tt ++ o.win ++ o.rx ++ o.ry) (o.mod) 14 8 (by decide)).trans ((cut_hi (n := 18) (m := 6) (o.tt ++ o.win ++ o.rx) (o.ry) 12 8 (by decide)).trans ((cut_hi (n := 12) (m := 6) (o.tt ++ o.win) (o.rx) 6 8 (by decide)).trans ((cut_lo (n := 4) (m := 8) (o.tt) (o.win) 0 8 (by decide)).trans (cut_all o.win))))
  have h2 : o.pack.extractLsb' 8 6 = o.rx := (cut_hi (n := 24) (m := 2) (o.tt ++ o.win ++ o.rx ++ o.ry) (o.mod) 8 6 (by decide)).trans ((cut_hi (n := 18) (m := 6) (o.tt ++ o.win ++ o.rx) (o.ry) 6 6 (by decide)).trans ((cut_lo (n := 12) (m := 6) (o.tt ++ o.win) (o.rx) 0 6 (by decide)).trans (cut_all o.rx)))
  have h3 : o.pack.extractLsb' 2 6 = o.ry := (cut_hi (n := 24) (m := 2) (o.tt ++ o.win ++ o.rx ++ o.ry) (o.mod) 2 6 (by decide)).trans ((cut_lo (n := 18) (m := 6) (o.tt ++ o.win ++ o.rx) (o.ry) 0 6 (by decide)).trans (cut_all o.ry))
  have h4 : o.pack.extractLsb' 0 2 = o.mod := (cut_lo (n := 24) (m := 2) (o.tt ++ o.win ++ o.rx ++ o.ry) (o.mod) 0 2 (by decide)).trans (cut_all o.mod)
  show CW.mk (o.pack.extractLsb' 22 4) (o.pack.extractLsb' 14 8) (o.pack.extractLsb' 8 6) (o.pack.extractLsb' 2 6) (o.pack.extractLsb' 0 2) = o
  rw [h0, h1, h2, h3, h4]

theorem CF.unpack_pack (o : CF) : CF.unpack o.pack = o := by
  have h0 : o.pack.extractLsb' 23 3 = o.pa := (cut_hi (n := 25) (m := 1) (o.pa ++ o.pb ++ o.scope ++ o.obj) (0#1) 23 3 (by decide)).trans ((cut_hi (n := 9) (m := 16) (o.pa ++ o.pb ++ o.scope) (o.obj) 22 3 (by decide)).trans ((cut_hi (n := 6) (m := 3) (o.pa ++ o.pb) (o.scope) 6 3 (by decide)).trans ((cut_hi (n := 3) (m := 3) (o.pa) (o.pb) 3 3 (by decide)).trans (cut_all o.pa))))
  have h1 : o.pack.extractLsb' 20 3 = o.pb := (cut_hi (n := 25) (m := 1) (o.pa ++ o.pb ++ o.scope ++ o.obj) (0#1) 20 3 (by decide)).trans ((cut_hi (n := 9) (m := 16) (o.pa ++ o.pb ++ o.scope) (o.obj) 19 3 (by decide)).trans ((cut_hi (n := 6) (m := 3) (o.pa ++ o.pb) (o.scope) 3 3 (by decide)).trans ((cut_lo (n := 3) (m := 3) (o.pa) (o.pb) 0 3 (by decide)).trans (cut_all o.pb))))
  have h2 : o.pack.extractLsb' 17 3 = o.scope := (cut_hi (n := 25) (m := 1) (o.pa ++ o.pb ++ o.scope ++ o.obj) (0#1) 17 3 (by decide)).trans ((cut_hi (n := 9) (m := 16) (o.pa ++ o.pb ++ o.scope) (o.obj) 16 3 (by decide)).trans ((cut_lo (n := 6) (m := 3) (o.pa ++ o.pb) (o.scope) 0 3 (by decide)).trans (cut_all o.scope)))
  have h3 : o.pack.extractLsb' 1 16 = o.obj := (cut_hi (n := 25) (m := 1) (o.pa ++ o.pb ++ o.scope ++ o.obj) (0#1) 1 16 (by decide)).trans ((cut_lo (n := 9) (m := 16) (o.pa ++ o.pb ++ o.scope) (o.obj) 0 16 (by decide)).trans (cut_all o.obj))
  show CF.mk (o.pack.extractLsb' 23 3) (o.pack.extractLsb' 20 3) (o.pack.extractLsb' 17 3) (o.pack.extractLsb' 1 16) = o
  rw [h0, h1, h2, h3]

theorem CR.unpack_pack (o : CR) : CR.unpack o.pack = o := by
  have h0 : o.pack.extractLsb' 20 6 = o.ra := (cut_hi (n := 24) (m := 2) (o.ra ++ o.rb ++ o.rc ++ o.rd) (o.mod) 20 6 (by decide)).trans ((cut_hi (n := 18) (m := 6) (o.ra ++ o.rb ++ o.rc) (o.rd) 18 6 (by decide)).trans ((cut_hi (n := 12) (m := 6) (o.ra ++ o.rb) (o.rc) 12 6 (by decide)).trans ((cut_hi (n := 6) (m := 6) (o.ra) (o.rb) 6 6 (by decide)).trans (cut_all o.ra))))
  have h1 : o.pack.extractLsb' 14 6 = o.rb := (cut_hi (n := 24) (m := 2) (o.ra ++ o.rb ++ o.rc ++ o.rd) (o.mod) 14 6 (by decide)).trans ((cut_hi (n := 18) (m := 6) (o.ra ++ o.rb ++ o.rc) (o.rd) 12 6 (by decide)).trans ((cut_hi (n := 12) (m := 6) (o.ra ++ o.rb) (o.rc) 6 6 (by decide)).trans ((cut_lo (n := 6) (m := 6) (o.ra) (o.rb) 0 6 (by decide)).trans (cut_all o.rb))))
  have h2 : o.pack.extractLsb' 8 6 = o.rc := (cut_hi (n := 24) (m := 2) (o.ra ++ o.rb ++ o.rc ++ o.rd) (o.mod) 8 6 (by decide)).trans ((cut_hi (n := 18) (m := 6) (o.ra ++ o.rb ++ o.rc) (o.rd) 6 6 (by decide)).trans ((cut_lo (n := 12) (m := 6) (o.ra ++ o.rb) (o.rc) 0 6 (by decide)).trans (cut_all o.rc)))
  have h3 : o.pack.extractLsb' 2 6 = o.rd := (cut_hi (n := 24) (m := 2) (o.ra ++ o.rb ++ o.rc ++ o.rd) (o.mod) 2 6 (by decide)).trans ((cut_lo (n := 18) (m := 6) (o.ra ++ o.rb ++ o.rc) (o.rd) 0 6 (by decide)).trans (cut_all o.rd))
  have h4 : o.pack.extractLsb' 0 2 = o.mod := (cut_lo (n := 24) (m := 2) (o.ra ++ o.rb ++ o.rc ++ o.rd) (o.mod) 0 2 (by decide)).trans (cut_all o.mod)
  show CR.mk (o.pack.extractLsb' 20 6) (o.pack.extractLsb' 14 6) (o.pack.extractLsb' 8 6) (o.pack.extractLsb' 2 6) (o.pack.extractLsb' 0 2) = o
  rw [h0, h1, h2, h3, h4]

/-- What the word of a S-slot operation reads back as. -/
theorem pick_wordS {h : Hdr} {op : BitVec 8} {x : BitVec 41} {i : Instr} (hs : h.slot = .S) (h0 : op ≠ 0)
    (hp : pickS h op.toNat x = some i) : pick h.slot (wordS h op x) = some i ∧ wordS h op x ≠ 0 := by
  have hg : (wordS h op x).extractLsb' 52 4 = h.guard := (cut_wide (n := 56) (h.guard ++ h.tag ++ op ++ x) 52 4 (by decide) (by decide)).trans ((cut_hi (n := 15) (m := 41) (h.guard ++ h.tag ++ op) x 52 4 (by decide)).trans ((cut_hi (n := 7) (m := 8) (h.guard ++ h.tag) op 11 4 (by decide)).trans ((cut_hi (n := 4) (m := 3) h.guard h.tag 3 4 (by decide)).trans (cut_all h.guard))))
  have ht : (wordS h op x).extractLsb' 49 3 = h.tag := (cut_wide (n := 56) (h.guard ++ h.tag ++ op ++ x) 49 3 (by decide) (by decide)).trans ((cut_hi (n := 15) (m := 41) (h.guard ++ h.tag ++ op) x 49 3 (by decide)).trans ((cut_hi (n := 7) (m := 8) (h.guard ++ h.tag) op 8 3 (by decide)).trans ((cut_lo (n := 4) (m := 3) h.guard h.tag 0 3 (by decide)).trans (cut_all h.tag))))
  have ho : (wordS h op x).extractLsb' 41 8 = op := (cut_wide (n := 56) (h.guard ++ h.tag ++ op ++ x) 41 8 (by decide) (by decide)).trans ((cut_hi (n := 15) (m := 41) (h.guard ++ h.tag ++ op) x 41 8 (by decide)).trans ((cut_lo (n := 7) (m := 8) (h.guard ++ h.tag) op 0 8 (by decide)).trans (cut_all op)))
  have hx : (wordS h op x).extractLsb' 0 41 = x := (cut_wide (n := 56) (h.guard ++ h.tag ++ op ++ x) 0 41 (by decide) (by decide)).trans ((cut_lo (n := 15) (m := 41) (h.guard ++ h.tag ++ op) x 0 41 (by decide)).trans (cut_all x))
  have hh : hdrOf h.slot (wordS h op x) 56 = h := by
    show Hdr.mk h.slot ((wordS h op x).extractLsb' 52 4) ((wordS h op x).extractLsb' 49 3) = h
    rw [hg, ht]
  refine ⟨?_, fun e => h0 ?_⟩
  · have e : pick h.slot (wordS h op x) = pickS (hdrOf h.slot (wordS h op x) 56)
        ((wordS h op x).extractLsb' 41 8).toNat ((wordS h op x).extractLsb' 0 41) := by
      rw [hs]; rfl
    rw [e, hh, ho, hx]; exact hp
  · rw [← ho, e]; rfl

/-- What the word of a V-slot operation reads back as. -/
theorem pick_wordV {h : Hdr} {op : BitVec 8} {x : BitVec 41} {i : Instr} (hs : h.slot = .V0 ∨ h.slot = .V1) (h0 : op ≠ 0)
    (hp : pickV h op.toNat x = some i) : pick h.slot (wordV h op x) = some i ∧ wordV h op x ≠ 0 := by
  have hg : (wordV h op x).extractLsb' 52 4 = h.guard := (cut_wide (n := 56) (h.guard ++ h.tag ++ op ++ x) 52 4 (by decide) (by decide)).trans ((cut_hi (n := 15) (m := 41) (h.guard ++ h.tag ++ op) x 52 4 (by decide)).trans ((cut_hi (n := 7) (m := 8) (h.guard ++ h.tag) op 11 4 (by decide)).trans ((cut_hi (n := 4) (m := 3) h.guard h.tag 3 4 (by decide)).trans (cut_all h.guard))))
  have ht : (wordV h op x).extractLsb' 49 3 = h.tag := (cut_wide (n := 56) (h.guard ++ h.tag ++ op ++ x) 49 3 (by decide) (by decide)).trans ((cut_hi (n := 15) (m := 41) (h.guard ++ h.tag ++ op) x 49 3 (by decide)).trans ((cut_hi (n := 7) (m := 8) (h.guard ++ h.tag) op 8 3 (by decide)).trans ((cut_lo (n := 4) (m := 3) h.guard h.tag 0 3 (by decide)).trans (cut_all h.tag))))
  have ho : (wordV h op x).extractLsb' 41 8 = op := (cut_wide (n := 56) (h.guard ++ h.tag ++ op ++ x) 41 8 (by decide) (by decide)).trans ((cut_hi (n := 15) (m := 41) (h.guard ++ h.tag ++ op) x 41 8 (by decide)).trans ((cut_lo (n := 7) (m := 8) (h.guard ++ h.tag) op 0 8 (by decide)).trans (cut_all op)))
  have hx : (wordV h op x).extractLsb' 0 41 = x := (cut_wide (n := 56) (h.guard ++ h.tag ++ op ++ x) 0 41 (by decide) (by decide)).trans ((cut_lo (n := 15) (m := 41) (h.guard ++ h.tag ++ op) x 0 41 (by decide)).trans (cut_all x))
  have hh : hdrOf h.slot (wordV h op x) 56 = h := by
    show Hdr.mk h.slot ((wordV h op x).extractLsb' 52 4) ((wordV h op x).extractLsb' 49 3) = h
    rw [hg, ht]
  refine ⟨?_, fun e => h0 ?_⟩
  · have e : pick h.slot (wordV h op x) = pickV (hdrOf h.slot (wordV h op x) 56)
        ((wordV h op x).extractLsb' 41 8).toNat ((wordV h op x).extractLsb' 0 41) := by
      rcases hs with hs | hs <;> rw [hs] <;> rfl
    rw [e, hh, ho, hx]; exact hp
  · rw [← ho, e]; rfl

/-- What the word of a M-slot operation reads back as. -/
theorem pick_wordM {h : Hdr} {op : BitVec 6} {x : BitVec 35} {i : Instr} (hs : h.slot = .M) (h0 : op ≠ 0)
    (hp : pickM h op.toNat x = some i) : pick h.slot (wordM h op x) = some i ∧ wordM h op x ≠ 0 := by
  have hg : (wordM h op x).extractLsb' 44 4 = h.guard := (cut_wide (n := 48) (h.guard ++ h.tag ++ op ++ x) 44 4 (by decide) (by decide)).trans ((cut_hi (n := 13) (m := 35) (h.guard ++ h.tag ++ op) x 44 4 (by decide)).trans ((cut_hi (n := 7) (m := 6) (h.guard ++ h.tag) op 9 4 (by decide)).trans ((cut_hi (n := 4) (m := 3) h.guard h.tag 3 4 (by decide)).trans (cut_all h.guard))))
  have ht : (wordM h op x).extractLsb' 41 3 = h.tag := (cut_wide (n := 48) (h.guard ++ h.tag ++ op ++ x) 41 3 (by decide) (by decide)).trans ((cut_hi (n := 13) (m := 35) (h.guard ++ h.tag ++ op) x 41 3 (by decide)).trans ((cut_hi (n := 7) (m := 6) (h.guard ++ h.tag) op 6 3 (by decide)).trans ((cut_lo (n := 4) (m := 3) h.guard h.tag 0 3 (by decide)).trans (cut_all h.tag))))
  have ho : (wordM h op x).extractLsb' 35 6 = op := (cut_wide (n := 48) (h.guard ++ h.tag ++ op ++ x) 35 6 (by decide) (by decide)).trans ((cut_hi (n := 13) (m := 35) (h.guard ++ h.tag ++ op) x 35 6 (by decide)).trans ((cut_lo (n := 7) (m := 6) (h.guard ++ h.tag) op 0 6 (by decide)).trans (cut_all op)))
  have hx : (wordM h op x).extractLsb' 0 35 = x := (cut_wide (n := 48) (h.guard ++ h.tag ++ op ++ x) 0 35 (by decide) (by decide)).trans ((cut_lo (n := 13) (m := 35) (h.guard ++ h.tag ++ op) x 0 35 (by decide)).trans (cut_all x))
  have hh : hdrOf h.slot (wordM h op x) 48 = h := by
    show Hdr.mk h.slot ((wordM h op x).extractLsb' 44 4) ((wordM h op x).extractLsb' 41 3) = h
    rw [hg, ht]
  refine ⟨?_, fun e => h0 ?_⟩
  · have e : pick h.slot (wordM h op x) = pickM (hdrOf h.slot (wordM h op x) 48)
        ((wordM h op x).extractLsb' 35 6).toNat ((wordM h op x).extractLsb' 0 35) := by
      rw [hs]; rfl
    rw [e, hh, ho, hx]; exact hp
  · rw [← ho, e]; rfl

/-- What the word of a C-slot operation reads back as. -/
theorem pick_wordC {h : Hdr} {op : BitVec 7} {x : BitVec 26} {i : Instr} (hs : h.slot = .C0 ∨ h.slot = .C1) (h0 : op ≠ 0)
    (hp : pickC h op.toNat x = some i) : pick h.slot (wordC h op x) = some i ∧ wordC h op x ≠ 0 := by
  have hg : (wordC h op x).extractLsb' 36 4 = h.guard := (cut_wide (n := 40) (h.guard ++ h.tag ++ op ++ x) 36 4 (by decide) (by decide)).trans ((cut_hi (n := 14) (m := 26) (h.guard ++ h.tag ++ op) x 36 4 (by decide)).trans ((cut_hi (n := 7) (m := 7) (h.guard ++ h.tag) op 10 4 (by decide)).trans ((cut_hi (n := 4) (m := 3) h.guard h.tag 3 4 (by decide)).trans (cut_all h.guard))))
  have ht : (wordC h op x).extractLsb' 33 3 = h.tag := (cut_wide (n := 40) (h.guard ++ h.tag ++ op ++ x) 33 3 (by decide) (by decide)).trans ((cut_hi (n := 14) (m := 26) (h.guard ++ h.tag ++ op) x 33 3 (by decide)).trans ((cut_hi (n := 7) (m := 7) (h.guard ++ h.tag) op 7 3 (by decide)).trans ((cut_lo (n := 4) (m := 3) h.guard h.tag 0 3 (by decide)).trans (cut_all h.tag))))
  have ho : (wordC h op x).extractLsb' 26 7 = op := (cut_wide (n := 40) (h.guard ++ h.tag ++ op ++ x) 26 7 (by decide) (by decide)).trans ((cut_hi (n := 14) (m := 26) (h.guard ++ h.tag ++ op) x 26 7 (by decide)).trans ((cut_lo (n := 7) (m := 7) (h.guard ++ h.tag) op 0 7 (by decide)).trans (cut_all op)))
  have hx : (wordC h op x).extractLsb' 0 26 = x := (cut_wide (n := 40) (h.guard ++ h.tag ++ op ++ x) 0 26 (by decide) (by decide)).trans ((cut_lo (n := 14) (m := 26) (h.guard ++ h.tag ++ op) x 0 26 (by decide)).trans (cut_all x))
  have hh : hdrOf h.slot (wordC h op x) 40 = h := by
    show Hdr.mk h.slot ((wordC h op x).extractLsb' 36 4) ((wordC h op x).extractLsb' 33 3) = h
    rw [hg, ht]
  refine ⟨?_, fun e => h0 ?_⟩
  · have e : pick h.slot (wordC h op x) = pickC (hdrOf h.slot (wordC h op x) 40)
        ((wordC h op x).extractLsb' 26 7).toNat ((wordC h op x).extractLsb' 0 26) := by
      rcases hs with hs | hs <;> rw [hs] <;> rfl
    rw [e, hh, ho, hx]; exact hp
  · rw [← ho, e]; rfl

/-- What the word of a X-slot operation reads back as. -/
theorem pick_wordX {h : Hdr} {op : BitVec 6} {x : BitVec 11} {i : Instr} (hs : h.slot = .X) (h0 : op ≠ 0)
    (hp : pickX h op.toNat x = some i) : pick h.slot (wordX h op x) = some i ∧ wordX h op x ≠ 0 := by
  have hg : (wordX h op x).extractLsb' 20 4 = h.guard := (cut_wide (n := 24) (h.guard ++ h.tag ++ op ++ x) 20 4 (by decide) (by decide)).trans ((cut_hi (n := 13) (m := 11) (h.guard ++ h.tag ++ op) x 20 4 (by decide)).trans ((cut_hi (n := 7) (m := 6) (h.guard ++ h.tag) op 9 4 (by decide)).trans ((cut_hi (n := 4) (m := 3) h.guard h.tag 3 4 (by decide)).trans (cut_all h.guard))))
  have ht : (wordX h op x).extractLsb' 17 3 = h.tag := (cut_wide (n := 24) (h.guard ++ h.tag ++ op ++ x) 17 3 (by decide) (by decide)).trans ((cut_hi (n := 13) (m := 11) (h.guard ++ h.tag ++ op) x 17 3 (by decide)).trans ((cut_hi (n := 7) (m := 6) (h.guard ++ h.tag) op 6 3 (by decide)).trans ((cut_lo (n := 4) (m := 3) h.guard h.tag 0 3 (by decide)).trans (cut_all h.tag))))
  have ho : (wordX h op x).extractLsb' 11 6 = op := (cut_wide (n := 24) (h.guard ++ h.tag ++ op ++ x) 11 6 (by decide) (by decide)).trans ((cut_hi (n := 13) (m := 11) (h.guard ++ h.tag ++ op) x 11 6 (by decide)).trans ((cut_lo (n := 7) (m := 6) (h.guard ++ h.tag) op 0 6 (by decide)).trans (cut_all op)))
  have hx : (wordX h op x).extractLsb' 0 11 = x := (cut_wide (n := 24) (h.guard ++ h.tag ++ op ++ x) 0 11 (by decide) (by decide)).trans ((cut_lo (n := 13) (m := 11) (h.guard ++ h.tag ++ op) x 0 11 (by decide)).trans (cut_all x))
  have hh : hdrOf h.slot (wordX h op x) 24 = h := by
    show Hdr.mk h.slot ((wordX h op x).extractLsb' 20 4) ((wordX h op x).extractLsb' 17 3) = h
    rw [hg, ht]
  refine ⟨?_, fun e => h0 ?_⟩
  · have e : pick h.slot (wordX h op x) = pickX (hdrOf h.slot (wordX h op x) 24)
        ((wordX h op x).extractLsb' 11 6).toNat ((wordX h op x).extractLsb' 0 11) := by
      rw [hs]; rfl
    rw [e, hh, ho, hx]; exact hp
  · rw [← ho, e]; rfl

/-- What the word of a K-slot operation reads back as. -/
theorem pick_wordK {h : Hdr} {op : BitVec 4} {x : BitVec 5} {i : Instr} (hs : h.slot = .K) (h0 : op ≠ 0)
    (hp : pickK h op.toNat x = some i) : pick h.slot (wordK h op x) = some i ∧ wordK h op x ≠ 0 := by
  have hg : (wordK h op x).extractLsb' 12 4 = h.guard := (cut_wide (n := 16) (h.guard ++ h.tag ++ op ++ x) 12 4 (by decide) (by decide)).trans ((cut_hi (n := 11) (m := 5) (h.guard ++ h.tag ++ op) x 12 4 (by decide)).trans ((cut_hi (n := 7) (m := 4) (h.guard ++ h.tag) op 7 4 (by decide)).trans ((cut_hi (n := 4) (m := 3) h.guard h.tag 3 4 (by decide)).trans (cut_all h.guard))))
  have ht : (wordK h op x).extractLsb' 9 3 = h.tag := (cut_wide (n := 16) (h.guard ++ h.tag ++ op ++ x) 9 3 (by decide) (by decide)).trans ((cut_hi (n := 11) (m := 5) (h.guard ++ h.tag ++ op) x 9 3 (by decide)).trans ((cut_hi (n := 7) (m := 4) (h.guard ++ h.tag) op 4 3 (by decide)).trans ((cut_lo (n := 4) (m := 3) h.guard h.tag 0 3 (by decide)).trans (cut_all h.tag))))
  have ho : (wordK h op x).extractLsb' 5 4 = op := (cut_wide (n := 16) (h.guard ++ h.tag ++ op ++ x) 5 4 (by decide) (by decide)).trans ((cut_hi (n := 11) (m := 5) (h.guard ++ h.tag ++ op) x 5 4 (by decide)).trans ((cut_lo (n := 7) (m := 4) (h.guard ++ h.tag) op 0 4 (by decide)).trans (cut_all op)))
  have hx : (wordK h op x).extractLsb' 0 5 = x := (cut_wide (n := 16) (h.guard ++ h.tag ++ op ++ x) 0 5 (by decide) (by decide)).trans ((cut_lo (n := 11) (m := 5) (h.guard ++ h.tag ++ op) x 0 5 (by decide)).trans (cut_all x))
  have hh : hdrOf h.slot (wordK h op x) 16 = h := by
    show Hdr.mk h.slot ((wordK h op x).extractLsb' 12 4) ((wordK h op x).extractLsb' 9 3) = h
    rw [hg, ht]
  refine ⟨?_, fun e => h0 ?_⟩
  · have e : pick h.slot (wordK h op x) = pickK (hdrOf h.slot (wordK h op x) 16)
        ((wordK h op x).extractLsb' 5 4).toNat ((wordK h op x).extractLsb' 0 5) := by
      rw [hs]; rfl
    rw [e, hh, ho, hx]; exact hp
  · rw [← ho, e]; rfl

theorem and_fst {a b : Bool} (w : (a && b) = true) : a = true := by
  rw [Bool.and_eq_true] at w; exact w.1

theorem and_snd {a b : Bool} (w : (a && b) = true) : b = true := by
  rw [Bool.and_eq_true] at w; exact w.2

theorem slot_one {h : Hdr} {a : Slot} (e : h.ok [a] = true) : h.slot = a := by
  simp only [Hdr.ok, Bool.and_eq_true] at e
  simpa using e.1

theorem slot_two {h : Hdr} {a b : Slot} (e : h.ok [a, b] = true) : h.slot = a ∨ h.slot = b := by
  simp only [Hdr.ok, Bool.and_eq_true] at e
  simpa using e.1

end Sys2Proof
end

