-- ==== Sys2Proof/Laws/Issue.lean ====
section
/-! SUPPORT. What the issue of a bundle of one operation can do, said once for every operation. -/

namespace Sys2Proof.Machine

/-- What the one slot of a bundle is judged against. -/
def State.ctx (s : State) (op : SlotOp) : Ctx := { s := s.atIssue, i := s.cur, fall := s.fall, slot := op.hdr.slot }

theorem vget_vset {α : Type} {n : Nat} (v : Vector α n) (i j : Nat) (x d : α) :
    vget (vset v i x) j d = if i = j ∧ i < n then x else vget v j d := by
  unfold vget vset
  by_cases hi : i < n
  · by_cases hj : j < n
    · by_cases hij : i = j
      · subst hij; simp [hi]
      · simp [hj, hij]
    · have : i ≠ j := by omega
      simp [hj, this]
  · have : v.setIfInBounds i x = v := by
      ext k hk; simp [Vector.getElem_setIfInBounds]; omega
    simp [hi, this]

theorem State.core_setCore (s : State) (i j : Nat) (c : Core) :
    (s.setCore i c).core j = if i = j ∧ i < 256 then c else s.core j := by
  simp only [State.core, State.setCore]; exact vget_vset ..

theorem State.core_idle (s : State) (i : Nat) (h : 256 ≤ i) : s.core i = Core.idle := by
  simp [State.core, vget, h]

theorem State.core_modCore_self (s : State) (i : Nat) (f : Core → Core) (h : i < 256) : (s.modCore i f).core i = f (s.core i) := by
  simp [State.modCore, State.core_setCore, h]

theorem State.core_modCore_ne (s : State) (i j : Nat) (f : Core → Core) (h : i ≠ j) : (s.modCore i f).core j = s.core j := by
  simp [State.modCore, State.core_setCore, h]

theorem Core.canIssue_lt {s : State} {i pcc : Nat} (h : (s.core i).canIssue pcc = true) : i < 256 := by
  rcases Nat.lt_or_ge i 256 with h' | h'
  · exact h'
  · rw [State.core_idle s i h'] at h
    simp [Core.canIssue, Core.idle] at h


/-- A landing changes the cores and the scratchpads and nothing else. -/
theorem State.landOne_shape (s : State) (i : Nat) (l : Land) :
    s.landOne i l = { s with cores := (s.landOne i l).cores, clusters := (s.landOne i l).clusters } := by
  cases l <;> rfl

theorem State.landAll_shape (fs : List Flight) (s : State) (i : Nat) :
    ∃ a b, fs.foldl (fun s f => s.landOne i f.land) s = { s with cores := a, clusters := b } := by
  induction fs generalizing s with
  | nil => exact ⟨_, _, rfl⟩
  | cons f fs ih =>
    obtain ⟨a, b, h⟩ := ih (s.landOne i f.land)
    refine ⟨a, b, ?_⟩
    rw [List.foldl_cons, h, s.landOne_shape i f.land]

theorem State.landDue_shape (s : State) (i : Nat) : ∃ a b, s.landDue i = { s with cores := a, clusters := b } := by
  unfold State.landDue State.landWhere
  simp only [State.modCore, State.setCore]
  obtain ⟨a, b, h⟩ := State.landAll_shape
    ((s.core i).due.filter fun f => true)
    { s with cores := vset s.cores i { s.core i with flight := (s.core i).flight.filter fun f => !(decide (f.due ≤ (s.core i).cycle) && true) } } i
  rw [h]
  exact ⟨_, _, rfl⟩

/-- Coming to issue changes the cores and the scratchpads and nothing else. -/
theorem State.atIssue_shape (s : State) : ∃ a b, s.atIssue = { s with cores := a, clusters := b } := by
  obtain ⟨a, b, h⟩ := s.landDue_shape s.cur
  unfold State.atIssue
  rw [h]
  exact ⟨_, _, rfl⟩

theorem State.atIssue_errs (s : State) : s.atIssue.errs = s.errs := by obtain ⟨a, b, h⟩ := s.atIssue_shape; rw [h]
theorem State.atIssue_pcc (s : State) : s.atIssue.pcc = s.pcc := by obtain ⟨a, b, h⟩ := s.atIssue_shape; rw [h]
theorem State.atIssue_cur (s : State) : s.atIssue.cur = s.cur := by obtain ⟨a, b, h⟩ := s.atIssue_shape; rw [h]
theorem State.atIssue_mem (s : State) : s.atIssue.mem = s.mem := by obtain ⟨a, b, h⟩ := s.atIssue_shape; rw [h]

theorem Core.relandNow_bubbles (c : Core) : c.relandNow.bubbles = c.bubbles := by unfold Core.relandNow; split <;> rfl
theorem Core.relandNow_asyncs (c : Core) : c.relandNow.asyncs = c.asyncs := by unfold Core.relandNow; split <;> rfl
theorem Core.relandNow_x (c : Core) : c.relandNow.x = c.x := by unfold Core.relandNow; split <;> rfl

theorem State.me_eq (s : State) (h : s.cur < 256) : s.me = ((s.landDue s.cur).core s.cur).relandNow := by
  simp [State.me, State.atIssue, State.core_modCore_self _ _ _ h]

/-- The parts of `clear`. -/
theorem State.clear_iff (s : State) : s.clear = true ↔
    s.powered = true ∧ (s.core s.cur).canIssue s.pcc = true ∧ s.me.bubbles = 0 ∧ s.me.nextAsync = none ∧
    ((s.landDue s.cur).core s.cur).relandClash = none ∧
    (∀ r, s.me.preempt = some r → s.me.cycle < r + 65536) ∧
    (∀ e ∈ s.errs, ∀ c, e.place = .unit c →
      fld c 31 16 ≠ s.cur ∧ ¬(fld c 7 0 = 0x10 ∧ clusterOf (fld c 31 16) = clusterOf s.cur)) ∧
    (∀ x, s.me.inst = some x → x.lh.ilk = true → s.me.flight = []) := by
  simp only [State.clear, Bool.and_eq_true, beq_iff_eq, Option.isNone_iff_eq_none, List.all_eq_true, and_assoc]
  refine and_congr Iff.rfl (and_congr Iff.rfl (and_congr Iff.rfl (and_congr Iff.rfl (and_congr Iff.rfl (and_congr ?_ (and_congr ?_ ?_))))))
  · cases s.me.preempt <;> simp
  · refine forall_congr' fun e => forall_congr' fun _ => ?_
    cases e.place <;> simp [Classical.or_iff_not_imp_left]
  · cases s.me.inst with
    | none => simp
    | some x => cases hx : x.lh.ilk <;> simp [hx]

theorem State.clear_lt {s : State} (h : s.clear = true) : s.cur < 256 := Core.canIssue_lt ((s.clear_iff.1 h).2.1)

theorem runSlots_one {x : Ctx} {op : SlotOp} {b b' : Bld}
    (hwf : op.wf = true) (hg : x.c.r.readP op.hdr.guard.toNat = true) (ht : tagOn op.hdr.tag.toNat 4 = true)
    (hr : (op.run { x with slot := op.hdr.slot }).run.run { b with uses := (3, physP x.c.r.rot op.hdr.guard.toNat) :: b.uses } = (.ok (), b')) :
    runSlots x 4 0 [op] b = (b', none) := by
  simp only [runSlots, hwf, Ctx.c] at *
  simp [hg, ht, hr]

theorem State.unitErrs_none {s : State} (h : ∀ e ∈ s.errs, ∀ c, e.place = .unit c →
    fld c 31 16 ≠ s.cur ∧ ¬(fld c 7 0 = 0x10 ∧ clusterOf (fld c 31 16) = clusterOf s.cur)) (b : Bld) :
    s.atIssue.unitErrs s.cur b = [] := by
  unfold State.unitErrs
  rw [s.atIssue_errs]
  split
  · rfl
  · rw [List.filter_eq_nil_iff]
    intro e he
    cases hp : e.place with
    | home a b => simp
    | unit c =>
      have := h e he c hp
      simp [this.1]
      exact fun h1 h2 => absurd ⟨h1, h2⟩ this.2

theorem tagOn_of {s : State} {h : Hdr} (ho : s.on h = true) : tagOn h.tag.toNat 4 = true := by
  simp only [State.on, Bool.and_eq_true, Bool.or_eq_true, beq_iff_eq] at ho
  rcases ho.2 with h' | h' <;> rw [h'] <;> decide

theorem ilkWaits_nil {c : Core} {b : Bld} (h : c.flight = []) : ilkWaits c b = false := by simp [ilkWaits, h]

/-- A bundle of one operation that nothing stops, whose slot finds no cause and waits for nothing, retires. -/
theorem issueOne_next {s : State} {op : SlotOp} {b : Bld} (hc : s.clear = true) (hwf : op.wf = true) (ho : s.on op.hdr = true)
    (hr : (op.run (s.ctx op)).run.run { Bld.start s.me with uses := [(3, physP s.me.r.rot op.hdr.guard.toNat)] } = (.ok (), b))
    (hroom : s.me.inFlight + b.lands.length ≤ 16) (hm : b.miss = []) (he : b.early = none) (hh : b.holds = [])
    (hgr : ∀ g, b.grant = some g → s.me.grant.valid g s.pcc = true) (hp : b.pair = none) :
    issueOne op s = .next (s.atIssue.retire s.cur b none s.fall) := by
  obtain ⟨hpow, hcan, hbub, hasy, hcla, hpre, herr, hilk⟩ := s.clear_iff.1 hc
  have hlt := State.clear_lt hc
  have hme := s.me_eq hlt
  have hbub' : ((s.landDue s.cur).core s.cur).bubbles = 0 := by rw [hme, Core.relandNow_bubbles] at hbub; exact hbub
  have hasy' : ((s.landDue s.cur).core s.cur).nextAsync = none := by
    rw [hme] at hasy; unfold Core.nextAsync at *; rw [Core.relandNow_asyncs, Core.relandNow_x] at hasy; exact hasy
  have hrun : runSlots { s := s.atIssue, i := s.cur, fall := s.fall, slot := .S } 4 0 [op] (Bld.start s.me) = (b, none) := by
    apply runSlots_one hwf _ (tagOn_of ho)
    · exact hr
    · simp only [State.on, Bool.and_eq_true] at ho; exact ho.1
  have hnoerr := State.unitErrs_none herr b
  unfold issueOne issueBundle
  simp only [hpow, hcan, Bool.not_true, Bool.false_eq_true, if_false, if_true]
  unfold State.issueOn
  simp only [hbub', hasy', hcla, Nat.lt_irrefl, if_false]
  change Host.Outcome.next _ = _
  congr 1
  have hA : (s.landDue s.cur).modCore s.cur Core.relandNow = s.atIssue := rfl
  have hM : s.atIssue.core s.cur = s.me := rfl
  have hS : ({ Bld.start s.me with uses := [] } : Bld) = Bld.start s.me := rfl
  simp only [hA, hM, State.plainHead, State.judgeSlots, evalTree, Option.map, List.map_nil, List.length_nil, hS]
  have hF : fallOf (s.core s.cur).stream (s.core s.cur).pos = s.fall := rfl
  simp only [hF, hrun, hnoerr, List.filter_nil, List.foldl_nil, List.find?_nil, Bool.false_eq_true, if_false]
  refine (if_neg ?_).trans ?_
  · cases hi : s.me.inst with
    | none => simp
    | some x =>
      cases hx : x.lh.ilk with
      | false => simp [hx]
      | true => simp [ilkWaits_nil (hilk x hi hx)]
  unfold State.settle
  simp only [hM, hm, hp, List.isEmpty_nil, Bool.not_true, Bool.false_eq_true, if_false]
  rw [if_neg (by omega)]
  unfold State.proceed
  simp only [hM, he, hh, hp]
  refine (if_neg ?_).trans ?_
  · unfold Core.saveDue
    cases hr' : s.me.preempt with
    | none => simp
    | some r => have := hpre r hr'; simp; omega
  cases hg : b.grant with
  | none => rfl
  | some g => simp [s.atIssue_pcc, hgr g hg]

theorem runSlots_fails {x : Ctx} {op : SlotOp} {b b' : Bld} {k : Cause}
    (hwf : op.wf = true) (hg : x.c.r.readP op.hdr.guard.toNat = true) (ht : tagOn op.hdr.tag.toNat 4 = true)
    (hr : (op.run { x with slot := op.hdr.slot }).run.run { b with uses := (3, physP x.c.r.rot op.hdr.guard.toNat) :: b.uses } = (.error k, b')) :
    runSlots x 4 0 [op] b = (b', some k) := by
  simp only [runSlots, hwf, Ctx.c] at *
  simp [hg, ht, hr]

/-- A bundle of one operation that nothing else stops, whose slot finds a cause, takes its trap. -/
theorem issueOne_traps {s : State} {op : SlotOp} {b : Bld} {k : Cause} (hc : s.clear = true)
    (hr : runSlots { s := s.atIssue, i := s.cur, fall := s.fall, slot := .S } 4 0 [op] (Bld.start s.me) = (b, some k))
    (hm : b.miss = []) :
    issueOne op s = .next (s.trapped k) := by
  obtain ⟨hpow, hcan, hbub, hasy, hcla, hpre, herr, hilk⟩ := s.clear_iff.1 hc
  have hlt := State.clear_lt hc
  have hme := s.me_eq hlt
  have hbub' : ((s.landDue s.cur).core s.cur).bubbles = 0 := by rw [hme, Core.relandNow_bubbles] at hbub; exact hbub
  have hasy' : ((s.landDue s.cur).core s.cur).nextAsync = none := by
    rw [hme] at hasy; unfold Core.nextAsync at *; rw [Core.relandNow_asyncs, Core.relandNow_x] at hasy; exact hasy
  have hnoerr := State.unitErrs_none herr b
  unfold issueOne issueBundle
  simp only [hpow, hcan, Bool.not_true, Bool.false_eq_true, if_false, if_true]
  unfold State.issueOn
  simp only [hbub', hasy', hcla, Nat.lt_irrefl, if_false]
  change Host.Outcome.next _ = _
  congr 1
  have hA : (s.landDue s.cur).modCore s.cur Core.relandNow = s.atIssue := rfl
  have hM : s.atIssue.core s.cur = s.me := rfl
  have hS : ({ Bld.start s.me with uses := [] } : Bld) = Bld.start s.me := rfl
  simp only [hA, hM, State.plainHead, State.judgeSlots, evalTree, Option.map, List.map_nil, List.length_nil, hS]
  have hF : fallOf (s.core s.cur).stream (s.core s.cur).pos = s.fall := rfl
  simp only [hF, hr, hnoerr, List.filter_nil, List.foldl_nil, List.find?_nil, Bool.false_eq_true, if_false]
  refine (if_neg ?_).trans ?_
  · cases hi : s.me.inst with
    | none => simp
    | some x =>
      cases hx : x.lh.ilk with
      | false => simp [hx]
      | true => simp [ilkWaits_nil (hilk x hi hx)]
  simp [hm, State.trapped]

end Sys2Proof.Machine
end

