-- ==== Sys2Proof/Laws/Memory.lean ====
section
/-! SUPPORT. The canonical form of memories: every memory operation keeps it, a read after a write gives the byte written, and a write
leaves every other byte. -/

namespace Sys2Proof.Machine

theorem Memory.above_mono {m : Memory} {lo lo' : Nat} (h : m.above lo = true) (hl : lo' ≤ lo) : m.above lo' = true := by
  cases m with
  | nil => rfl
  | cons c r =>
    simp only [Memory.above, Bool.and_eq_true, decide_eq_true_eq] at h ⊢
    exact ⟨⟨by omega, h.1.2⟩, h.2⟩

theorem Memory.get_below {m : Memory} {lo a : Nat} (h : m.above lo = true) (ha : a < lo) : m.get a = 0 := by
  induction m generalizing lo with
  | nil => rfl
  | cons c r ih =>
    obtain ⟨k, v⟩ := c
    simp only [Memory.above, Bool.and_eq_true, decide_eq_true_eq] at h
    have hk : a ≠ k := by omega
    simp only [Memory.get, if_neg hk]
    exact ih h.2 (by omega)

theorem Memory.above_set {m : Memory} {lo a : Nat} (x : Byte) (h : m.above lo = true) (ha : lo ≤ a) : (m.set a x).above lo = true := by
  induction m generalizing lo with
  | nil =>
    simp only [Memory.set]
    split
    · rfl
    · rename_i hx
      simp only [Memory.above, Bool.and_eq_true, decide_eq_true_eq, bne_iff_ne, ne_eq]
      exact ⟨⟨ha, hx⟩, trivial⟩
  | cons c r ih =>
    obtain ⟨k, v⟩ := c
    simp only [Memory.above, Bool.and_eq_true, decide_eq_true_eq] at h
    simp only [Memory.set]
    split
    · split
      · simp only [Memory.above, Bool.and_eq_true, decide_eq_true_eq]
        exact h
      · rename_i hx
        simp only [Memory.above, Bool.and_eq_true, decide_eq_true_eq, bne_iff_ne, ne_eq]
        exact ⟨⟨ha, hx⟩, ⟨by omega, by simpa using h.1.2⟩, h.2⟩
    · split
      · split
        · exact Memory.above_mono h.2 (by omega)
        · rename_i he hx
          simp only [Memory.above, Bool.and_eq_true, decide_eq_true_eq, bne_iff_ne, ne_eq]
          exact ⟨⟨ha, hx⟩, he ▸ h.2⟩
      · simp only [Memory.above, Bool.and_eq_true, decide_eq_true_eq]
        exact ⟨⟨h.1.1, h.1.2⟩, ih h.2 (by omega)⟩

/-- A write keeps the canonical form. -/
theorem Memory.wf_set {m : Memory} (h : m.wf = true) (a : Nat) (x : Byte) : (m.set a x).wf = true := Memory.above_set x h (Nat.zero_le _)

theorem Memory.get_set_above {m : Memory} {lo : Nat} (h : m.above lo = true) (a b : Nat) (x : Byte) :
    (m.set a x).get b = if b = a then x else m.get b := by
  induction m generalizing lo with
  | nil =>
    simp only [Memory.set]
    split
    · rename_i hx; simp [Memory.get, hx]
    · rfl
  | cons c r ih =>
    obtain ⟨k, v⟩ := c
    simp only [Memory.above, Bool.and_eq_true, decide_eq_true_eq] at h
    simp only [Memory.set]
    split
    · rename_i hak
      split
      · rename_i hx
        by_cases hb : b = a
        · subst hb
          have hk : b ≠ k := by omega
          simp only [if_true, Memory.get, if_neg hk]
          rw [hx]; exact Memory.get_below h.2 (by omega)
        · rw [if_neg hb]
      · rfl
    · split
      · rename_i _ hak
        subst hak
        split
        · rename_i hx
          by_cases hb : b = a
          · subst hb
            simp only [if_true]
            rw [hx]; exact Memory.get_below h.2 (by omega)
          · simp only [Memory.get, if_neg hb]
        · by_cases hb : b = a
          · simp [Memory.get, hb]
          · simp [Memory.get, hb]
      · rename_i _ hak
        simp only [Memory.get]
        by_cases hb : b = k
        · subst hb
          have : b ≠ a := fun e => hak e.symm
          simp [this]
        · simp only [if_neg hb]
          exact ih h.2

/-- A read after a write. -/
theorem Memory.get_set {m : Memory} (h : m.wf = true) (a b : Nat) (x : Byte) : (m.set a x).get b = if b = a then x else m.get b :=
  Memory.get_set_above h a b x

theorem Memory.above_filter {m : Memory} {lo : Nat} (h : m.above lo = true) (p : Host.Cell → Bool) : Memory.above (m.filter p) lo = true := by
  induction m generalizing lo with
  | nil => rfl
  | cons c r ih =>
    obtain ⟨k, v⟩ := c
    simp only [Memory.above, Bool.and_eq_true, decide_eq_true_eq] at h
    rw [List.filter_cons]
    split
    · simp only [Memory.above, Bool.and_eq_true, decide_eq_true_eq]
      exact ⟨⟨h.1.1, h.1.2⟩, ih h.2⟩
    · exact Memory.above_mono (ih h.2) (by omega)

/-- Dropping bytes keeps the canonical form. -/
theorem Memory.wf_filter {m : Memory} (h : m.wf = true) (p : Host.Cell → Bool) : Memory.wf (m.filter p) = true := Memory.above_filter h p

/-- Several writes keep the canonical form. -/
theorem Memory.wf_sets (l : List (Nat × Byte)) {m : Memory} (h : m.wf = true) : (l.foldl (fun m x => m.set x.1 x.2) m).wf = true := by
  induction l generalizing m with
  | nil => exact h
  | cons x l ih => exact ih (Memory.wf_set h _ _)

theorem Memory.wf_writeBytes (l : List Byte) {m : Memory} (h : m.wf = true) (a : Nat) : (m.writeBytes a l).wf = true := by
  induction l generalizing m a with
  | nil => exact h
  | cons x l ih => exact ih (Memory.wf_set h _ _) (a + 1)

/-- What several bytes leave: a byte outside them reads as before. -/
theorem Memory.get_writeBytes_outside (l : List Byte) {m : Memory} (h : m.wf = true) (a b : Nat) (hb : b < a ∨ a + l.length ≤ b) :
    (m.writeBytes a l).get b = m.get b := by
  induction l generalizing m a with
  | nil => rfl
  | cons x l ih =>
    simp only [List.length_cons] at hb
    simp only [Memory.writeBytes]
    rw [ih (Memory.wf_set h _ _) (a + 1) (by omega), Memory.get_set h]
    exact if_neg (by omega)

theorem Memory.get_writeBytes_inside (l : List Byte) {m : Memory} (h : m.wf = true) (a k : Nat) (hk : k < l.length) :
    (m.writeBytes a l).get (a + k) = l[k] := by
  induction l generalizing m a k with
  | nil => simp at hk
  | cons x l ih =>
    simp only [Memory.writeBytes]
    cases k with
    | zero =>
      rw [Memory.get_writeBytes_outside l (Memory.wf_set h _ _) _ _ (by omega), Memory.get_set h]
      simp
    | succ k =>
      have e : a + (k + 1) = a + 1 + k := by omega
      rw [e, ih (Memory.wf_set h _ _) (a + 1) k (by simpa using hk)]
      simp

/-! ### The memories of the package -/

theorem State.cluster_setCluster (s : State) (k j : Nat) (c : Cluster) :
    (s.setCluster k c).cluster j = if k = j ∧ k < 64 then c else s.cluster j := by
  simp only [State.cluster, State.setCluster]; exact vget_vset ..

theorem State.die_setDie (s : State) (k j : Nat) (d : Die) (h : k < 4) : (s.setDie k d).die j = if k = j then d else s.die j := by
  simp only [State.die, State.setDie, vget_vset, h, and_true]

theorem State.port_modPort (s : State) (p j : Nat) (f : Port → Port) :
    (s.modPort p f).port j = if p = j ∧ p < 48 then f (s.port p) else s.port j := by
  simp only [State.port, State.modPort]; exact vget_vset ..

/-- A change of a cluster whose scratchpad stays canonical keeps every memory canonical. -/
theorem State.memoriesCanonical_modCluster {s : State} (h : s.memoriesCanonical) (k : Nat) {f : Cluster → Cluster}
    (hf : ∀ c : Cluster, c.sram.wf = true → (f c).sram.wf = true) : (s.modCluster k f).memoriesCanonical := by
  obtain ⟨h1, h2, h3⟩ := h
  refine ⟨h1, fun j hj => ?_, h3⟩
  simp only [State.modCluster, State.cluster_setCluster]
  split
  · rename_i he; exact hf _ (h2 _ he.2)
  · exact h2 j hj

/-- A write of home memory keeps every memory canonical. -/
theorem State.memoriesCanonical_mem {s : State} (h : s.memoriesCanonical) {m : Memory} (hm : m.wf = true) :
    ({ s with mem := m } : State).memoriesCanonical := ⟨hm, h.2.1, h.2.2⟩

/-- A byte performed at its home keeps every memory canonical. -/
theorem State.memoriesCanonical_writeHome {s : State} (h : s.memoriesCanonical) (key : Nat) (x : Byte) : (s.writeHome key x).memoriesCanonical := by
  unfold State.writeHome
  by_cases hs : isSram key = true
  · rw [if_pos hs]
    exact State.memoriesCanonical_modCluster h _ fun c hc => Memory.wf_set hc _ _
  · rw [if_neg hs]
    by_cases hr : isRemote key = true
    · rw [if_pos hr]; exact h
    · rw [if_neg hr]; exact State.memoriesCanonical_mem h (Memory.wf_set h.1 _ _)

/-- A change of cores keeps every memory. -/
theorem State.memoriesCanonical_modCore {s : State} (h : s.memoriesCanonical) (i : Nat) (f : Core → Core) : (s.modCore i f).memoriesCanonical := h

/-- A landing keeps every memory canonical. -/
theorem State.memoriesCanonical_landOne {s : State} (h : s.memoriesCanonical) (i : Nat) (l : Land) : (s.landOne i l).memoriesCanonical := by
  cases l with
  | cells xs => exact State.memoriesCanonical_modCluster h _ fun c hc => Memory.wf_sets _ hc
  | _ => exact h

/-- The machine right after reset has canonical memories. -/
theorem State.memoriesCanonical_iff (s : State) :
    s.memoriesCanonical ↔ s.mem.wf = true ∧ (∀ k < 64, (s.cluster k).sram.wf = true) ∧ ∀ k < 4, (s.yelm k).scratch.wf = true := Iff.rfl

end Sys2Proof.Machine
end

