-- ==== Sys2Proof/Laws/PerInstr.lean ====
section
/-! SUPPORT. The family `Encoding`: the word of each well-formed slot operation selects that
operation in its slot and is not the empty word. One lemma per constructor. -/

namespace Sys2Proof

namespace Laws.Encoding

/-- A well-formed slot operation's word, read by the opcode maps, is that operation, and it is not the word of an empty slot. -/
def Statement (i : Instr) : Prop := ∀ h, i.hdr? = some h → i.wf = true → pick h.slot (encode i) = some i ∧ encode i ≠ 0

theorem nop (slot : Slot) : Statement (.nop slot) := fun _ e => nomatch e

theorem branchTree (drain : Bool) (tests : List Test) : Statement (.branchTree drain tests) := fun _ e => nomatch e

theorem add (h : Hdr) (o : SR) : Statement (.add h o) := by
  intro h' e w
  cases e
  exact pick_wordS (slot_one (and_fst w)) (by decide) (congrArg (fun z => some (Instr.add h z)) (SR.unpack_pack o))

theorem sub (h : Hdr) (o : SR) : Statement (.sub h o) := by
  intro h' e w
  cases e
  exact pick_wordS (slot_one (and_fst w)) (by decide) (congrArg (fun z => some (Instr.sub h z)) (SR.unpack_pack o))

theorem and (h : Hdr) (o : SR) : Statement (.and h o) := by
  intro h' e w
  cases e
  exact pick_wordS (slot_one (and_fst w)) (by decide) (congrArg (fun z => some (Instr.and h z)) (SR.unpack_pack o))

theorem or (h : Hdr) (o : SR) : Statement (.or h o) := by
  intro h' e w
  cases e
  exact pick_wordS (slot_one (and_fst w)) (by decide) (congrArg (fun z => some (Instr.or h z)) (SR.unpack_pack o))

theorem xor (h : Hdr) (o : SR) : Statement (.xor h o) := by
  intro h' e w
  cases e
  exact pick_wordS (slot_one (and_fst w)) (by decide) (congrArg (fun z => some (Instr.xor h z)) (SR.unpack_pack o))

theorem sll (h : Hdr) (o : SR) : Statement (.sll h o) := by
  intro h' e w
  cases e
  exact pick_wordS (slot_one (and_fst w)) (by decide) (congrArg (fun z => some (Instr.sll h z)) (SR.unpack_pack o))

theorem srl (h : Hdr) (o : SR) : Statement (.srl h o) := by
  intro h' e w
  cases e
  exact pick_wordS (slot_one (and_fst w)) (by decide) (congrArg (fun z => some (Instr.srl h z)) (SR.unpack_pack o))

theorem sra (h : Hdr) (o : SR) : Statement (.sra h o) := by
  intro h' e w
  cases e
  exact pick_wordS (slot_one (and_fst w)) (by decide) (congrArg (fun z => some (Instr.sra h z)) (SR.unpack_pack o))

theorem min (h : Hdr) (o : SR) : Statement (.min h o) := by
  intro h' e w
  cases e
  exact pick_wordS (slot_one (and_fst w)) (by decide) (congrArg (fun z => some (Instr.min h z)) (SR.unpack_pack o))

theorem max (h : Hdr) (o : SR) : Statement (.max h o) := by
  intro h' e w
  cases e
  exact pick_wordS (slot_one (and_fst w)) (by decide) (congrArg (fun z => some (Instr.max h z)) (SR.unpack_pack o))

theorem minu (h : Hdr) (o : SR) : Statement (.minu h o) := by
  intro h' e w
  cases e
  exact pick_wordS (slot_one (and_fst w)) (by decide) (congrArg (fun z => some (Instr.minu h z)) (SR.unpack_pack o))

theorem maxu (h : Hdr) (o : SR) : Statement (.maxu h o) := by
  intro h' e w
  cases e
  exact pick_wordS (slot_one (and_fst w)) (by decide) (congrArg (fun z => some (Instr.maxu h z)) (SR.unpack_pack o))

theorem shadd (h : Hdr) (o : SR) : Statement (.shadd h o) := by
  intro h' e w
  cases e
  exact pick_wordS (slot_one (and_fst w)) (by decide) (congrArg (fun z => some (Instr.shadd h z)) (SR.unpack_pack o))

theorem clz (h : Hdr) (o : SR) : Statement (.clz h o) := by
  intro h' e w
  cases e
  exact pick_wordS (slot_one (and_fst (and_fst w))) (by decide) (congrArg (fun z => some (Instr.clz h z)) (SR.unpack_pack o))

theorem ctz (h : Hdr) (o : SR) : Statement (.ctz h o) := by
  intro h' e w
  cases e
  exact pick_wordS (slot_one (and_fst (and_fst w))) (by decide) (congrArg (fun z => some (Instr.ctz h z)) (SR.unpack_pack o))

theorem popc (h : Hdr) (o : SR) : Statement (.popc h o) := by
  intro h' e w
  cases e
  exact pick_wordS (slot_one (and_fst (and_fst w))) (by decide) (congrArg (fun z => some (Instr.popc h z)) (SR.unpack_pack o))

theorem bext (h : Hdr) (o : SR) : Statement (.bext h o) := by
  intro h' e w
  cases e
  exact pick_wordS (slot_one (and_fst w)) (by decide) (congrArg (fun z => some (Instr.bext h z)) (SR.unpack_pack o))

theorem bins (h : Hdr) (o : SR) : Statement (.bins h o) := by
  intro h' e w
  cases e
  exact pick_wordS (slot_one (and_fst w)) (by decide) (congrArg (fun z => some (Instr.bins h z)) (SR.unpack_pack o))

theorem mul (h : Hdr) (o : SR) : Statement (.mul h o) := by
  intro h' e w
  cases e
  exact pick_wordS (slot_one (and_fst w)) (by decide) (congrArg (fun z => some (Instr.mul h z)) (SR.unpack_pack o))

theorem mulh (h : Hdr) (o : SR) : Statement (.mulh h o) := by
  intro h' e w
  cases e
  exact pick_wordS (slot_one (and_fst w)) (by decide) (congrArg (fun z => some (Instr.mulh h z)) (SR.unpack_pack o))

theorem mulhu (h : Hdr) (o : SR) : Statement (.mulhu h o) := by
  intro h' e w
  cases e
  exact pick_wordS (slot_one (and_fst w)) (by decide) (congrArg (fun z => some (Instr.mulhu h z)) (SR.unpack_pack o))

theorem div (h : Hdr) (o : SR) : Statement (.div h o) := by
  intro h' e w
  cases e
  exact pick_wordS (slot_one (and_fst w)) (by decide) (congrArg (fun z => some (Instr.div h z)) (SR.unpack_pack o))

theorem divu (h : Hdr) (o : SR) : Statement (.divu h o) := by
  intro h' e w
  cases e
  exact pick_wordS (slot_one (and_fst w)) (by decide) (congrArg (fun z => some (Instr.divu h z)) (SR.unpack_pack o))

theorem rem (h : Hdr) (o : SR) : Statement (.rem h o) := by
  intro h' e w
  cases e
  exact pick_wordS (slot_one (and_fst w)) (by decide) (congrArg (fun z => some (Instr.rem h z)) (SR.unpack_pack o))

theorem remu (h : Hdr) (o : SR) : Statement (.remu h o) := by
  intro h' e w
  cases e
  exact pick_wordS (slot_one (and_fst w)) (by decide) (congrArg (fun z => some (Instr.remu h z)) (SR.unpack_pack o))

theorem sel (h : Hdr) (o : SS) : Statement (.sel h o) := by
  intro h' e w
  cases e
  exact pick_wordS (slot_one w) (by decide) (congrArg (fun z => some (Instr.sel h z)) (SS.unpack_pack o))

theorem addi (h : Hdr) (o : SI) : Statement (.addi h o) := by
  intro h' e w
  cases e
  exact pick_wordS (slot_one w) (by decide) (congrArg (fun z => some (Instr.addi h z)) (SI.unpack_pack o))

theorem andi (h : Hdr) (o : SI) : Statement (.andi h o) := by
  intro h' e w
  cases e
  exact pick_wordS (slot_one w) (by decide) (congrArg (fun z => some (Instr.andi h z)) (SI.unpack_pack o))

theorem ori (h : Hdr) (o : SI) : Statement (.ori h o) := by
  intro h' e w
  cases e
  exact pick_wordS (slot_one w) (by decide) (congrArg (fun z => some (Instr.ori h z)) (SI.unpack_pack o))

theorem xori (h : Hdr) (o : SI) : Statement (.xori h o) := by
  intro h' e w
  cases e
  exact pick_wordS (slot_one w) (by decide) (congrArg (fun z => some (Instr.xori h z)) (SI.unpack_pack o))

theorem slli (h : Hdr) (o : SI) : Statement (.slli h o) := by
  intro h' e w
  cases e
  exact pick_wordS (slot_one (and_fst w)) (by decide) (congrArg (fun z => some (Instr.slli h z)) (SI.unpack_pack o))

theorem srli (h : Hdr) (o : SI) : Statement (.srli h o) := by
  intro h' e w
  cases e
  exact pick_wordS (slot_one (and_fst w)) (by decide) (congrArg (fun z => some (Instr.srli h z)) (SI.unpack_pack o))

theorem srai (h : Hdr) (o : SI) : Statement (.srai h o) := by
  intro h' e w
  cases e
  exact pick_wordS (slot_one (and_fst w)) (by decide) (congrArg (fun z => some (Instr.srai h z)) (SI.unpack_pack o))

theorem li (h : Hdr) (o : SL) : Statement (.li h o) := by
  intro h' e w
  cases e
  exact pick_wordS (slot_one w) (by decide) (congrArg (fun z => some (Instr.li h z)) (SL.unpack_pack o))

theorem lih (h : Hdr) (o : SL) : Statement (.lih h o) := by
  intro h' e w
  cases e
  exact pick_wordS (slot_one w) (by decide) (congrArg (fun z => some (Instr.lih h z)) (SL.unpack_pack o))

theorem cmp (h : Hdr) (o : SC) : Statement (.cmp h o) := by
  intro h' e w
  cases e
  exact pick_wordS (slot_one (and_fst w)) (by decide) (congrArg (fun z => some (Instr.cmp h z)) (SC.unpack_pack o))

theorem cmpi (h : Hdr) (o : SCI) : Statement (.cmpi h o) := by
  intro h' e w
  cases e
  exact pick_wordS (slot_one (and_fst w)) (by decide) (congrArg (fun z => some (Instr.cmpi h z)) (SCI.unpack_pack o))

theorem pand (h : Hdr) (o : SP) : Statement (.pand h o) := by
  intro h' e w
  cases e
  exact pick_wordS (slot_one (and_fst w)) (by decide) (congrArg (fun z => some (Instr.pand h z)) (SP.unpack_pack o))

theorem por (h : Hdr) (o : SP) : Statement (.por h o) := by
  intro h' e w
  cases e
  exact pick_wordS (slot_one (and_fst w)) (by decide) (congrArg (fun z => some (Instr.por h z)) (SP.unpack_pack o))

theorem pxor (h : Hdr) (o : SP) : Statement (.pxor h o) := by
  intro h' e w
  cases e
  exact pick_wordS (slot_one (and_fst w)) (by decide) (congrArg (fun z => some (Instr.pxor h z)) (SP.unpack_pack o))

theorem pandn (h : Hdr) (o : SP) : Statement (.pandn h o) := by
  intro h' e w
  cases e
  exact pick_wordS (slot_one (and_fst w)) (by decide) (congrArg (fun z => some (Instr.pandn h z)) (SP.unpack_pack o))

theorem ptst (h : Hdr) (o : SP) : Statement (.ptst h o) := by
  intro h' e w
  cases e
  exact pick_wordS (slot_one (and_fst (and_fst w))) (by decide) (congrArg (fun z => some (Instr.ptst h z)) (SP.unpack_pack o))

theorem bli (h : Hdr) (o : SBL) : Statement (.bli h o) := by
  intro h' e w
  cases e
  exact pick_wordS (slot_one w) (by decide) (congrArg (fun z => some (Instr.bli h z)) (SBL.unpack_pack o))

theorem bmov (h : Hdr) (o : SB) : Statement (.bmov h o) := by
  intro h' e w
  cases e
  exact pick_wordS (slot_one (and_fst w)) (by decide) (congrArg (fun z => some (Instr.bmov h z)) (SB.unpack_pack o))

theorem bget (h : Hdr) (o : SB) : Statement (.bget h o) := by
  intro h' e w
  cases e
  exact pick_wordS (slot_one (and_fst w)) (by decide) (congrArg (fun z => some (Instr.bget h z)) (SB.unpack_pack o))

theorem loop (h : Hdr) (o : SX) : Statement (.loop h o) := by
  intro h' e w
  cases e
  exact pick_wordS (slot_one (and_fst (and_fst (and_fst w)))) (by decide) (congrArg (fun z => some (Instr.loop h z)) (SX.unpack_pack o))

theorem lbrk (h : Hdr) (o : SX) : Statement (.lbrk h o) := by
  intro h' e w
  cases e
  exact pick_wordS (slot_one (and_fst (and_fst (and_fst (and_fst w))))) (by decide) (congrArg (fun z => some (Instr.lbrk h z)) (SX.unpack_pack o))

theorem lget (h : Hdr) (o : SX) : Statement (.lget h o) := by
  intro h' e w
  cases e
  exact pick_wordS (slot_one (and_fst (and_fst (and_fst w)))) (by decide) (congrArg (fun z => some (Instr.lget h z)) (SX.unpack_pack o))

theorem rotcfg (h : Hdr) (o : SX) : Statement (.rotcfg h o) := by
  intro h' e w
  cases e
  exact pick_wordS (slot_one (and_fst (and_fst (and_fst w)))) (by decide) (congrArg (fun z => some (Instr.rotcfg h z)) (SX.unpack_pack o))

theorem swp (h : Hdr) (o : SX) : Statement (.swp h o) := by
  intro h' e w
  cases e
  exact pick_wordS (slot_one (and_fst (and_fst (and_fst (and_fst w))))) (by decide) (congrArg (fun z => some (Instr.swp h z)) (SX.unpack_pack o))

theorem bsel (h : Hdr) (o : SX) : Statement (.bsel h o) := by
  intro h' e w
  cases e
  exact pick_wordS (slot_one (and_fst (and_fst (and_fst w)))) (by decide) (congrArg (fun z => some (Instr.bsel h z)) (SX.unpack_pack o))

theorem dbind (h : Hdr) (o : SX) : Statement (.dbind h o) := by
  intro h' e w
  cases e
  exact pick_wordS (slot_one (and_fst (and_fst (and_fst w)))) (by decide) (congrArg (fun z => some (Instr.dbind h z)) (SX.unpack_pack o))

theorem dfree (h : Hdr) (o : SX) : Statement (.dfree h o) := by
  intro h' e w
  cases e
  exact pick_wordS (slot_one (and_fst (and_fst (and_fst (and_fst w))))) (by decide) (congrArg (fun z => some (Instr.dfree h z)) (SX.unpack_pack o))

theorem dget (h : Hdr) (o : SX) : Statement (.dget h o) := by
  intro h' e w
  cases e
  exact pick_wordS (slot_one (and_fst (and_fst (and_fst w)))) (by decide) (congrArg (fun z => some (Instr.dget h z)) (SX.unpack_pack o))

theorem tyget (h : Hdr) (o : SX) : Statement (.tyget h o) := by
  intro h' e w
  cases e
  exact pick_wordS (slot_one (and_fst (and_fst (and_fst w)))) (by decide) (congrArg (fun z => some (Instr.tyget h z)) (SX.unpack_pack o))

theorem tyset (h : Hdr) (o : SX) : Statement (.tyset h o) := by
  intro h' e w
  cases e
  exact pick_wordS (slot_one (and_fst (and_fst w))) (by decide) (congrArg (fun z => some (Instr.tyset h z)) (SX.unpack_pack o))

theorem csrr (h : Hdr) (o : SX) : Statement (.csrr h o) := by
  intro h' e w
  cases e
  exact pick_wordS (slot_one (and_fst (and_fst (and_fst w)))) (by decide) (congrArg (fun z => some (Instr.csrr h z)) (SX.unpack_pack o))

theorem csrw (h : Hdr) (o : SX) : Statement (.csrw h o) := by
  intro h' e w
  cases e
  exact pick_wordS (slot_one (and_fst (and_fst w))) (by decide) (congrArg (fun z => some (Instr.csrw h z)) (SX.unpack_pack o))

theorem csrs (h : Hdr) (o : SX) : Statement (.csrs h o) := by
  intro h' e w
  cases e
  exact pick_wordS (slot_one (and_fst (and_fst w))) (by decide) (congrArg (fun z => some (Instr.csrs h z)) (SX.unpack_pack o))

theorem csrc (h : Hdr) (o : SX) : Statement (.csrc h o) := by
  intro h' e w
  cases e
  exact pick_wordS (slot_one (and_fst (and_fst w))) (by decide) (congrArg (fun z => some (Instr.csrc h z)) (SX.unpack_pack o))

theorem trap (h : Hdr) (o : SX) : Statement (.trap h o) := by
  intro h' e w
  cases e
  exact pick_wordS (slot_one (and_fst (and_fst (and_fst w)))) (by decide) (congrArg (fun z => some (Instr.trap h z)) (SX.unpack_pack o))

theorem tret (h : Hdr) (o : SX) : Statement (.tret h o) := by
  intro h' e w
  cases e
  exact pick_wordS (slot_one (and_fst (and_fst (and_fst (and_fst w))))) (by decide) (congrArg (fun z => some (Instr.tret h z)) (SX.unpack_pack o))

theorem exit (h : Hdr) (o : SX) : Statement (.exit h o) := by
  intro h' e w
  cases e
  exact pick_wordS (slot_one (and_fst (and_fst (and_fst (and_fst w))))) (by decide) (congrArg (fun z => some (Instr.exit h z)) (SX.unpack_pack o))

theorem wait (h : Hdr) (o : SW) : Statement (.wait h o) := by
  intro h' e w
  cases e
  exact pick_wordS (slot_one w) (by decide) (congrArg (fun z => some (Instr.wait h z)) (SW.unpack_pack o))

theorem bar (h : Hdr) (o : SX) : Statement (.bar h o) := by
  intro h' e w
  cases e
  exact pick_wordS (slot_one (and_fst (and_fst (and_fst (and_fst w))))) (by decide) (congrArg (fun z => some (Instr.bar h z)) (SX.unpack_pack o))

theorem vfadd (h : Hdr) (o : VR) : Statement (.vfadd h o) := by
  intro h' e w
  cases e
  exact pick_wordV (slot_two (and_fst (and_fst (and_fst w)))) (by decide) (congrArg (fun z => some (Instr.vfadd h z)) (VR.unpack_pack o))

theorem vfsub (h : Hdr) (o : VR) : Statement (.vfsub h o) := by
  intro h' e w
  cases e
  exact pick_wordV (slot_two (and_fst (and_fst (and_fst w)))) (by decide) (congrArg (fun z => some (Instr.vfsub h z)) (VR.unpack_pack o))

theorem vfmul (h : Hdr) (o : VR) : Statement (.vfmul h o) := by
  intro h' e w
  cases e
  exact pick_wordV (slot_two (and_fst (and_fst (and_fst w)))) (by decide) (congrArg (fun z => some (Instr.vfmul h z)) (VR.unpack_pack o))

theorem vffma (h : Hdr) (o : VR) : Statement (.vffma h o) := by
  intro h' e w
  cases e
  exact pick_wordV (slot_two (and_fst (and_fst w))) (by decide) (congrArg (fun z => some (Instr.vffma h z)) (VR.unpack_pack o))

theorem vffms (h : Hdr) (o : VR) : Statement (.vffms h o) := by
  intro h' e w
  cases e
  exact pick_wordV (slot_two (and_fst (and_fst w))) (by decide) (congrArg (fun z => some (Instr.vffms h z)) (VR.unpack_pack o))

theorem vfmin (h : Hdr) (o : VR) : Statement (.vfmin h o) := by
  intro h' e w
  cases e
  exact pick_wordV (slot_two (and_fst (and_fst (and_fst (and_fst w))))) (by decide) (congrArg (fun z => some (Instr.vfmin h z)) (VR.unpack_pack o))

theorem vfmax (h : Hdr) (o : VR) : Statement (.vfmax h o) := by
  intro h' e w
  cases e
  exact pick_wordV (slot_two (and_fst (and_fst (and_fst (and_fst w))))) (by decide) (congrArg (fun z => some (Instr.vfmax h z)) (VR.unpack_pack o))

theorem vfabs (h : Hdr) (o : VR) : Statement (.vfabs h o) := by
  intro h' e w
  cases e
  exact pick_wordV (slot_two (and_fst (and_fst (and_fst (and_fst (and_fst w)))))) (by decide) (congrArg (fun z => some (Instr.vfabs h z)) (VR.unpack_pack o))

theorem vfneg (h : Hdr) (o : VR) : Statement (.vfneg h o) := by
  intro h' e w
  cases e
  exact pick_wordV (slot_two (and_fst (and_fst (and_fst (and_fst (and_fst w)))))) (by decide) (congrArg (fun z => some (Instr.vfneg h z)) (VR.unpack_pack o))

theorem vfdiv (h : Hdr) (o : VR) : Statement (.vfdiv h o) := by
  intro h' e w
  cases e
  exact pick_wordV (slot_two (and_fst (and_fst (and_fst w)))) (by decide) (congrArg (fun z => some (Instr.vfdiv h z)) (VR.unpack_pack o))

theorem vfsqrt (h : Hdr) (o : VR) : Statement (.vfsqrt h o) := by
  intro h' e w
  cases e
  exact pick_wordV (slot_two (and_fst (and_fst (and_fst (and_fst w))))) (by decide) (congrArg (fun z => some (Instr.vfsqrt h z)) (VR.unpack_pack o))

theorem vfexp2 (h : Hdr) (o : VR) : Statement (.vfexp2 h o) := by
  intro h' e w
  cases e
  exact pick_wordV (slot_two (and_fst (and_fst (and_fst (and_fst w))))) (by decide) (congrArg (fun z => some (Instr.vfexp2 h z)) (VR.unpack_pack o))

theorem vflog2 (h : Hdr) (o : VR) : Statement (.vflog2 h o) := by
  intro h' e w
  cases e
  exact pick_wordV (slot_two (and_fst (and_fst (and_fst (and_fst w))))) (by decide) (congrArg (fun z => some (Instr.vflog2 h z)) (VR.unpack_pack o))

theorem vfrcp (h : Hdr) (o : VR) : Statement (.vfrcp h o) := by
  intro h' e w
  cases e
  exact pick_wordV (slot_two (and_fst (and_fst (and_fst (and_fst w))))) (by decide) (congrArg (fun z => some (Instr.vfrcp h z)) (VR.unpack_pack o))

theorem vfrsq (h : Hdr) (o : VR) : Statement (.vfrsq h o) := by
  intro h' e w
  cases e
  exact pick_wordV (slot_two (and_fst (and_fst (and_fst (and_fst w))))) (by decide) (congrArg (fun z => some (Instr.vfrsq h z)) (VR.unpack_pack o))

theorem vadd (h : Hdr) (o : VR) : Statement (.vadd h o) := by
  intro h' e w
  cases e
  exact pick_wordV (slot_two (and_fst w)) (by decide) (congrArg (fun z => some (Instr.vadd h z)) (VR.unpack_pack o))

theorem vsub (h : Hdr) (o : VR) : Statement (.vsub h o) := by
  intro h' e w
  cases e
  exact pick_wordV (slot_two (and_fst w)) (by decide) (congrArg (fun z => some (Instr.vsub h z)) (VR.unpack_pack o))

theorem vmul (h : Hdr) (o : VR) : Statement (.vmul h o) := by
  intro h' e w
  cases e
  exact pick_wordV (slot_two (and_fst w)) (by decide) (congrArg (fun z => some (Instr.vmul h z)) (VR.unpack_pack o))

theorem vmulh (h : Hdr) (o : VR) : Statement (.vmulh h o) := by
  intro h' e w
  cases e
  exact pick_wordV (slot_two (and_fst w)) (by decide) (congrArg (fun z => some (Instr.vmulh h z)) (VR.unpack_pack o))

theorem vand (h : Hdr) (o : VR) : Statement (.vand h o) := by
  intro h' e w
  cases e
  exact pick_wordV (slot_two (and_fst w)) (by decide) (congrArg (fun z => some (Instr.vand h z)) (VR.unpack_pack o))

theorem vor (h : Hdr) (o : VR) : Statement (.vor h o) := by
  intro h' e w
  cases e
  exact pick_wordV (slot_two (and_fst w)) (by decide) (congrArg (fun z => some (Instr.vor h z)) (VR.unpack_pack o))

theorem vxor (h : Hdr) (o : VR) : Statement (.vxor h o) := by
  intro h' e w
  cases e
  exact pick_wordV (slot_two (and_fst w)) (by decide) (congrArg (fun z => some (Instr.vxor h z)) (VR.unpack_pack o))

theorem vandn (h : Hdr) (o : VR) : Statement (.vandn h o) := by
  intro h' e w
  cases e
  exact pick_wordV (slot_two (and_fst w)) (by decide) (congrArg (fun z => some (Instr.vandn h z)) (VR.unpack_pack o))

theorem vsll (h : Hdr) (o : VR) : Statement (.vsll h o) := by
  intro h' e w
  cases e
  exact pick_wordV (slot_two (and_fst w)) (by decide) (congrArg (fun z => some (Instr.vsll h z)) (VR.unpack_pack o))

theorem vsrl (h : Hdr) (o : VR) : Statement (.vsrl h o) := by
  intro h' e w
  cases e
  exact pick_wordV (slot_two (and_fst w)) (by decide) (congrArg (fun z => some (Instr.vsrl h z)) (VR.unpack_pack o))

theorem vsra (h : Hdr) (o : VR) : Statement (.vsra h o) := by
  intro h' e w
  cases e
  exact pick_wordV (slot_two (and_fst w)) (by decide) (congrArg (fun z => some (Instr.vsra h z)) (VR.unpack_pack o))

theorem vmin (h : Hdr) (o : VR) : Statement (.vmin h o) := by
  intro h' e w
  cases e
  exact pick_wordV (slot_two (and_fst w)) (by decide) (congrArg (fun z => some (Instr.vmin h z)) (VR.unpack_pack o))

theorem vmax (h : Hdr) (o : VR) : Statement (.vmax h o) := by
  intro h' e w
  cases e
  exact pick_wordV (slot_two (and_fst w)) (by decide) (congrArg (fun z => some (Instr.vmax h z)) (VR.unpack_pack o))

theorem vabs (h : Hdr) (o : VR) : Statement (.vabs h o) := by
  intro h' e w
  cases e
  exact pick_wordV (slot_two (and_fst (and_fst w))) (by decide) (congrArg (fun z => some (Instr.vabs h z)) (VR.unpack_pack o))

theorem vcvt (h : Hdr) (o : VR) : Statement (.vcvt h o) := by
  intro h' e w
  cases e
  exact pick_wordV (slot_two (and_fst w)) (by decide) (congrArg (fun z => some (Instr.vcvt h z)) (VR.unpack_pack o))

theorem vmerge (h : Hdr) (o : VR) : Statement (.vmerge h o) := by
  intro h' e w
  cases e
  exact pick_wordV (slot_two (and_fst (and_fst (and_fst (and_fst w))))) (by decide) (congrArg (fun z => some (Instr.vmerge h z)) (VR.unpack_pack o))

theorem vfcmp (h : Hdr) (o : VC) : Statement (.vfcmp h o) := by
  intro h' e w
  cases e
  exact pick_wordV (slot_two (and_fst (and_fst w))) (by decide) (congrArg (fun z => some (Instr.vfcmp h z)) (VC.unpack_pack o))

theorem vcmp (h : Hdr) (o : VC) : Statement (.vcmp h o) := by
  intro h' e w
  cases e
  exact pick_wordV (slot_two (and_fst (and_fst w))) (by decide) (congrArg (fun z => some (Instr.vcmp h z)) (VC.unpack_pack o))

theorem vperm (h : Hdr) (o : VR) : Statement (.vperm h o) := by
  intro h' e w
  cases e
  exact pick_wordV (slot_two (and_fst (and_fst (and_fst w)))) (by decide) (congrArg (fun z => some (Instr.vperm h z)) (VR.unpack_pack o))

theorem vslide (h : Hdr) (o : VR) : Statement (.vslide h o) := by
  intro h' e w
  cases e
  exact pick_wordV (slot_two (and_fst (and_fst (and_fst w)))) (by decide) (congrArg (fun z => some (Instr.vslide h z)) (VR.unpack_pack o))

theorem vbcast (h : Hdr) (o : VS) : Statement (.vbcast h o) := by
  intro h' e w
  cases e
  exact pick_wordV (slot_two (and_fst (and_fst (and_fst (and_fst w))))) (by decide) (congrArg (fun z => some (Instr.vbcast h z)) (VS.unpack_pack o))

theorem vlane (h : Hdr) (o : VR) : Statement (.vlane h o) := by
  intro h' e w
  cases e
  exact pick_wordV (slot_two (and_fst (and_fst (and_fst (and_fst (and_fst (and_fst w))))))) (by decide) (congrArg (fun z => some (Instr.vlane h z)) (VR.unpack_pack o))

theorem vmovs (h : Hdr) (o : VS) : Statement (.vmovs h o) := by
  intro h' e w
  cases e
  have hm : o.mod.getLsbD 0 = false := (congrArg (fun z : BitVec 4 => z.getLsbD 0) (eq_of_beq (and_snd (and_fst w)))).trans rfl
  refine pick_wordV (slot_two (and_fst (and_fst (and_fst (and_fst (and_fst w)))))) (by decide) ?_
  show some (if (VS.unpack o.pack).mod.getLsbD 0 then Instr.vmovsIns h (VS.unpack o.pack) else .vmovs h (VS.unpack o.pack)) = _
  rw [VS.unpack_pack, hm]; rfl

theorem vmovsIns (h : Hdr) (o : VS) : Statement (.vmovsIns h o) := by
  intro h' e w
  cases e
  have hm : o.mod.getLsbD 0 = true := (congrArg (fun z : BitVec 4 => z.getLsbD 0) (eq_of_beq (and_snd (and_fst w)))).trans rfl
  refine pick_wordV (slot_two (and_fst (and_fst (and_fst (and_fst (and_fst w)))))) (by decide) ?_
  show some (if (VS.unpack o.pack).mod.getLsbD 0 then Instr.vmovsIns h (VS.unpack o.pack) else .vmovs h (VS.unpack o.pack)) = _
  rw [VS.unpack_pack, hm]; rfl

theorem vfred (h : Hdr) (o : VR) : Statement (.vfred h o) := by
  intro h' e w
  cases e
  exact pick_wordV (slot_two (and_fst w)) (by decide) (congrArg (fun z => some (Instr.vfred h z)) (VR.unpack_pack o))

theorem vred (h : Hdr) (o : VR) : Statement (.vred h o) := by
  intro h' e w
  cases e
  exact pick_wordV (slot_two (and_fst w)) (by decide) (congrArg (fun z => some (Instr.vred h z)) (VR.unpack_pack o))

theorem vfscan (h : Hdr) (o : VR) : Statement (.vfscan h o) := by
  intro h' e w
  cases e
  exact pick_wordV (slot_two (and_fst w)) (by decide) (congrArg (fun z => some (Instr.vfscan h z)) (VR.unpack_pack o))

theorem vscan (h : Hdr) (o : VR) : Statement (.vscan h o) := by
  intro h' e w
  cases e
  exact pick_wordV (slot_two (and_fst w)) (by decide) (congrArg (fun z => some (Instr.vscan h z)) (VR.unpack_pack o))

theorem mand (h : Hdr) (o : VM) : Statement (.mand h o) := by
  intro h' e w
  cases e
  exact pick_wordV (slot_two (and_fst w)) (by decide) (congrArg (fun z => some (Instr.mand h z)) (VM.unpack_pack o))

theorem mor (h : Hdr) (o : VM) : Statement (.mor h o) := by
  intro h' e w
  cases e
  exact pick_wordV (slot_two (and_fst w)) (by decide) (congrArg (fun z => some (Instr.mor h z)) (VM.unpack_pack o))

theorem mxor (h : Hdr) (o : VM) : Statement (.mxor h o) := by
  intro h' e w
  cases e
  exact pick_wordV (slot_two (and_fst w)) (by decide) (congrArg (fun z => some (Instr.mxor h z)) (VM.unpack_pack o))

theorem mandn (h : Hdr) (o : VM) : Statement (.mandn h o) := by
  intro h' e w
  cases e
  exact pick_wordV (slot_two (and_fst w)) (by decide) (congrArg (fun z => some (Instr.mandn h z)) (VM.unpack_pack o))

theorem mpop (h : Hdr) (o : VM) : Statement (.mpop h o) := by
  intro h' e w
  cases e
  exact pick_wordV (slot_two (and_fst (and_fst w))) (by decide) (congrArg (fun z => some (Instr.mpop h z)) (VM.unpack_pack o))

theorem vtrow (h : Hdr) (o : VT) : Statement (.vtrow h o) := by
  intro h' e w
  cases e
  exact pick_wordV (slot_two w) (by decide) (congrArg (fun z => some (Instr.vtrow h z)) (VT.unpack_pack o))

theorem vtwr (h : Hdr) (o : VT) : Statement (.vtwr h o) := by
  intro h' e w
  cases e
  exact pick_wordV (slot_two w) (by decide) (congrArg (fun z => some (Instr.vtwr h z)) (VT.unpack_pack o))

theorem vld (h : Hdr) (o : VS) : Statement (.vld h o) := by
  intro h' e w
  cases e
  exact pick_wordV (.inr (slot_one (and_fst (and_fst (and_fst w))))) (by decide) (congrArg (fun z => some (Instr.vld h z)) (VS.unpack_pack o))

theorem vst (h : Hdr) (o : VS) : Statement (.vst h o) := by
  intro h' e w
  cases e
  exact pick_wordV (.inr (slot_one (and_fst (and_fst (and_fst w))))) (by decide) (congrArg (fun z => some (Instr.vst h z)) (VS.unpack_pack o))

theorem vgat (h : Hdr) (o : VS) : Statement (.vgat h o) := by
  intro h' e w
  cases e
  exact pick_wordV (.inr (slot_one (and_fst (and_fst w)))) (by decide) (congrArg (fun z => some (Instr.vgat h z)) (VS.unpack_pack o))

theorem vsca (h : Hdr) (o : VS) : Statement (.vsca h o) := by
  intro h' e w
  cases e
  exact pick_wordV (.inr (slot_one (and_fst (and_fst w)))) (by decide) (congrArg (fun z => some (Instr.vsca h z)) (VS.unpack_pack o))

theorem vatom (h : Hdr) (o : VS) : Statement (.vatom h o) := by
  intro h' e w
  cases e
  exact pick_wordV (.inr (slot_one (and_fst w))) (by decide) (congrArg (fun z => some (Instr.vatom h z)) (VS.unpack_pack o))

theorem fpush (h : Hdr) (o : VS) : Statement (.fpush h o) := by
  intro h' e w
  cases e
  exact pick_wordV (.inr (slot_one (and_fst (and_fst (and_fst (and_fst w)))))) (by decide) (congrArg (fun z => some (Instr.fpush h z)) (VS.unpack_pack o))

theorem fpop (h : Hdr) (o : VS) : Statement (.fpop h o) := by
  intro h' e w
  cases e
  exact pick_wordV (.inr (slot_one (and_fst (and_fst (and_fst (and_fst w)))))) (by decide) (congrArg (fun z => some (Instr.fpop h z)) (VS.unpack_pack o))

theorem fifoCountUpdate : Statement .fifoCountUpdate := fun _ e => nomatch e

theorem ypush (h : Hdr) (o : VS) : Statement (.ypush h o) := by
  intro h' e w
  cases e
  exact pick_wordV (.inr (slot_one (and_fst (and_fst (and_fst (and_fst (and_fst (and_fst (and_fst w))))))))) (by decide) (congrArg (fun z => some (Instr.ypush h z)) (VS.unpack_pack o))

theorem tmma (h : Hdr) (o : MF) : Statement (.tmma h o) := by
  intro h' e w
  cases e
  exact pick_wordM (slot_one (and_fst w)) (by decide) (congrArg (fun z => some (Instr.tmma h z)) (MF.unpack_pack o))

theorem tmmas (h : Hdr) (o : MF) : Statement (.tmmas h o) := by
  intro h' e w
  cases e
  exact pick_wordM (slot_one (and_fst w)) (by decide) (congrArg (fun z => some (Instr.tmmas h z)) (MF.unpack_pack o))

theorem tmmac (h : Hdr) (o : MF) : Statement (.tmmac h o) := by
  intro h' e w
  cases e
  exact pick_wordM (slot_one (and_fst w)) (by decide) (congrArg (fun z => some (Instr.tmmac h z)) (MF.unpack_pack o))

theorem tzero (h : Hdr) (o : MF) : Statement (.tzero h o) := by
  intro h' e w
  cases e
  exact pick_wordM (slot_one (and_fst (and_fst (and_fst (and_fst (and_fst w)))))) (by decide) (congrArg (fun z => some (Instr.tzero h z)) (MF.unpack_pack o))

theorem xpose (h : Hdr) (o : XF) : Statement (.xpose h o) := by
  intro h' e w
  cases e
  exact pick_wordX (slot_one (and_fst w)) (by decide) (congrArg (fun z => some (Instr.xpose h z)) (XF.unpack_pack o))

theorem xcvt (h : Hdr) (o : XF) : Statement (.xcvt h o) := by
  intro h' e w
  cases e
  exact pick_wordX (slot_one w) (by decide) (congrArg (fun z => some (Instr.xcvt h z)) (XF.unpack_pack o))

theorem xquant (h : Hdr) (o : XF) : Statement (.xquant h o) := by
  intro h' e w
  cases e
  exact pick_wordX (slot_one w) (by decide) (congrArg (fun z => some (Instr.xquant h z)) (XF.unpack_pack o))

theorem xquantSat (h : Hdr) (o : XF) : Statement (.xquantSat h o) := by
  intro h' e w
  cases e
  exact pick_wordX (slot_one w) (by decide) (congrArg (fun z => some (Instr.xquantSat h z)) (XF.unpack_pack o))

theorem xexp (h : Hdr) (o : XF) : Statement (.xexp h o) := by
  intro h' e w
  cases e
  exact pick_wordX (slot_one (and_fst w)) (by decide) (congrArg (fun z => some (Instr.xexp h z)) (XF.unpack_pack o))

theorem xresh (h : Hdr) (o : XF) : Statement (.xresh h o) := by
  intro h' e w
  cases e
  exact pick_wordX (slot_one w) (by decide) (congrArg (fun z => some (Instr.xresh h z)) (XF.unpack_pack o))

theorem xcast (h : Hdr) (o : XF) : Statement (.xcast h o) := by
  intro h' e w
  cases e
  exact pick_wordX (slot_one w) (by decide) (congrArg (fun z => some (Instr.xcast h z)) (XF.unpack_pack o))

theorem xadd (h : Hdr) (o : XF) : Statement (.xadd h o) := by
  intro h' e w
  cases e
  exact pick_wordX (slot_one (and_fst w)) (by decide) (congrArg (fun z => some (Instr.xadd h z)) (XF.unpack_pack o))

theorem xmov (h : Hdr) (o : XF) : Statement (.xmov h o) := by
  intro h' e w
  cases e
  exact pick_wordX (slot_one (and_fst w)) (by decide) (congrArg (fun z => some (Instr.xmov h z)) (XF.unpack_pack o))

theorem xch (h : Hdr) (o : XF) : Statement (.xch h o) := by
  intro h' e w
  cases e
  exact pick_wordX (slot_one (and_fst w)) (by decide) (congrArg (fun z => some (Instr.xch h z)) (XF.unpack_pack o))

theorem xchHalfArrival (core : Nat) : Statement (.xchHalfArrival core) := fun _ e => nomatch e

theorem pairTimeout (core : Nat) : Statement (.pairTimeout core) := fun _ e => nomatch e

theorem partnerFault (core : Nat) : Statement (.partnerFault core) := fun _ e => nomatch e

theorem kscl (h : Hdr) (o : KF) : Statement (.kscl h o) := by
  intro h' e w
  cases e
  exact pick_wordK (slot_one w) (by decide) (congrArg (fun z => some (Instr.kscl h z)) (KF.unpack_pack o))

theorem kcode (h : Hdr) (o : KF) : Statement (.kcode h o) := by
  intro h' e w
  cases e
  exact pick_wordK (slot_one w) (by decide) (congrArg (fun z => some (Instr.kcode h z)) (KF.unpack_pack o))

theorem kgrant (h : Hdr) (o : KF) : Statement (.kgrant h o) := by
  intro h' e w
  cases e
  exact pick_wordK (slot_one w) (by decide) (congrArg (fun z => some (Instr.kgrant h z)) (KF.unpack_pack o))

theorem kpad (h : Hdr) (o : KF) : Statement (.kpad h o) := by
  intro h' e w
  cases e
  exact pick_wordK (slot_one w) (by decide) (congrArg (fun z => some (Instr.kpad h z)) (KF.unpack_pack o))

theorem kmode (h : Hdr) (o : KF) : Statement (.kmode h o) := by
  intro h' e w
  cases e
  exact pick_wordK (slot_one w) (by decide) (congrArg (fun z => some (Instr.kmode h z)) (KF.unpack_pack o))

theorem bankModeReady (cluster : Nat) (bank : Nat) : Statement (.bankModeReady cluster bank) := fun _ e => nomatch e

theorem ld (h : Hdr) (o : CI) : Statement (.ld h o) := by
  intro h' e w
  cases e
  exact pick_wordC (slot_two w) (by decide) (congrArg (fun z => some (Instr.ld h z)) (CI.unpack_pack o))

theorem ldW (h : Hdr) (o : CI) : Statement (.ldW h o) := by
  intro h' e w
  cases e
  exact pick_wordC (slot_two w) (by decide) (congrArg (fun z => some (Instr.ldW h z)) (CI.unpack_pack o))

theorem ldH (h : Hdr) (o : CI) : Statement (.ldH h o) := by
  intro h' e w
  cases e
  exact pick_wordC (slot_two w) (by decide) (congrArg (fun z => some (Instr.ldH h z)) (CI.unpack_pack o))

theorem ldB (h : Hdr) (o : CI) : Statement (.ldB h o) := by
  intro h' e w
  cases e
  exact pick_wordC (slot_two w) (by decide) (congrArg (fun z => some (Instr.ldB h z)) (CI.unpack_pack o))

theorem st (h : Hdr) (o : CI) : Statement (.st h o) := by
  intro h' e w
  cases e
  exact pick_wordC (slot_two w) (by decide) (congrArg (fun z => some (Instr.st h z)) (CI.unpack_pack o))

theorem stW (h : Hdr) (o : CI) : Statement (.stW h o) := by
  intro h' e w
  cases e
  exact pick_wordC (slot_two w) (by decide) (congrArg (fun z => some (Instr.stW h z)) (CI.unpack_pack o))

theorem stH (h : Hdr) (o : CI) : Statement (.stH h o) := by
  intro h' e w
  cases e
  exact pick_wordC (slot_two w) (by decide) (congrArg (fun z => some (Instr.stH h z)) (CI.unpack_pack o))

theorem stB (h : Hdr) (o : CI) : Statement (.stB h o) := by
  intro h' e w
  cases e
  exact pick_wordC (slot_two w) (by decide) (congrArg (fun z => some (Instr.stB h z)) (CI.unpack_pack o))

theorem vldm (h : Hdr) (o : CI) : Statement (.vldm h o) := by
  intro h' e w
  cases e
  exact pick_wordC (slot_two w) (by decide) (congrArg (fun z => some (Instr.vldm h z)) (CI.unpack_pack o))

theorem vstm (h : Hdr) (o : CI) : Statement (.vstm h o) := by
  intro h' e w
  cases e
  exact pick_wordC (slot_two w) (by decide) (congrArg (fun z => some (Instr.vstm h z)) (CI.unpack_pack o))

theorem tld (h : Hdr) (o : CW) : Statement (.tld h o) := by
  intro h' e w
  cases e
  exact pick_wordC (slot_two (and_fst w)) (by decide) (congrArg (fun z => some (Instr.tld h z)) (CW.unpack_pack o))

theorem tst (h : Hdr) (o : CW) : Statement (.tst h o) := by
  intro h' e w
  cases e
  exact pick_wordC (slot_two (and_fst w)) (by decide) (congrArg (fun z => some (Instr.tst h z)) (CW.unpack_pack o))

theorem amo (h : Hdr) (o : CA) : Statement (.amo h o) := by
  intro h' e w
  cases e
  exact pick_wordC (slot_two (and_fst (and_fst w))) (by decide) (congrArg (fun z => some (Instr.amo h z)) (CA.unpack_pack o))

theorem cas (h : Hdr) (o : CA) : Statement (.cas h o) := by
  intro h' e w
  cases e
  exact pick_wordC (slot_two (and_fst (and_fst w))) (by decide) (congrArg (fun z => some (Instr.cas h z)) (CA.unpack_pack o))

theorem acq (h : Hdr) (o : CF) : Statement (.acq h o) := by
  intro h' e w
  cases e
  exact pick_wordC (slot_two (and_fst (and_fst (and_fst w)))) (by decide) (congrArg (fun z => some (Instr.acq h z)) (CF.unpack_pack o))

theorem rel (h : Hdr) (o : CF) : Statement (.rel h o) := by
  intro h' e w
  cases e
  exact pick_wordC (slot_two (and_fst (and_fst (and_fst w)))) (by decide) (congrArg (fun z => some (Instr.rel h z)) (CF.unpack_pack o))

theorem releaseTakesPlace (core : Nat) (id : Nat) : Statement (.releaseTakesPlace core id) := fun _ e => nomatch e

theorem xfence (h : Hdr) (o : CF) : Statement (.xfence h o) := by
  intro h' e w
  cases e
  exact pick_wordC (slot_two (and_fst (and_fst (and_fst (and_fst w))))) (by decide) (congrArg (fun z => some (Instr.xfence h z)) (CF.unpack_pack o))

theorem fence (h : Hdr) (o : CF) : Statement (.fence h o) := by
  intro h' e w
  cases e
  exact pick_wordC (slot_two (and_fst (and_fst (and_fst (and_fst w))))) (by decide) (congrArg (fun z => some (Instr.fence h z)) (CF.unpack_pack o))

theorem waitge (h : Hdr) (o : CI) : Statement (.waitge h o) := by
  intro h' e w
  cases e
  exact pick_wordC (slot_two w) (by decide) (congrArg (fun z => some (Instr.waitge h z)) (CI.unpack_pack o))

theorem copy (h : Hdr) (o : CR) : Statement (.copy h o) := by
  intro h' e w
  cases e
  exact pick_wordC (slot_two w) (by decide) (congrArg (fun z => some (Instr.copy h z)) (CR.unpack_pack o))

theorem copy2d (h : Hdr) (o : CR) : Statement (.copy2d h o) := by
  intro h' e w
  cases e
  exact pick_wordC (slot_two w) (by decide) (congrArg (fun z => some (Instr.copy2d h z)) (CR.unpack_pack o))

theorem copywLd (h : Hdr) (o : CR) : Statement (.copywLd h o) := by
  intro h' e w
  cases e
  have hm : o.mod.getLsbD 0 = false := by simpa using and_snd w
  refine pick_wordC (slot_two (and_fst w)) (by decide) ?_
  show some (if (CR.unpack o.pack).mod.getLsbD 0 then Instr.copywSt h (CR.unpack o.pack) else .copywLd h (CR.unpack o.pack)) = _
  rw [CR.unpack_pack, hm]; rfl

theorem copywSt (h : Hdr) (o : CR) : Statement (.copywSt h o) := by
  intro h' e w
  cases e
  have hm : o.mod.getLsbD 0 = true := (congrArg (fun z : BitVec 2 => z.getLsbD 0) (eq_of_beq (and_snd w))).trans rfl
  refine pick_wordC (slot_two (and_fst w)) (by decide) ?_
  show some (if (CR.unpack o.pack).mod.getLsbD 0 then Instr.copywSt h (CR.unpack o.pack) else .copywLd h (CR.unpack o.pack)) = _
  rw [CR.unpack_pack, hm]; rfl

theorem gath (h : Hdr) (o : CR) : Statement (.gath h o) := by
  intro h' e w
  cases e
  exact pick_wordC (slot_two (and_fst w)) (by decide) (congrArg (fun z => some (Instr.gath h z)) (CR.unpack_pack o))

theorem scat (h : Hdr) (o : CR) : Statement (.scat h o) := by
  intro h' e w
  cases e
  exact pick_wordC (slot_two (and_fst w)) (by decide) (congrArg (fun z => some (Instr.scat h z)) (CR.unpack_pack o))

theorem cexp (h : Hdr) (o : CR) : Statement (.cexp h o) := by
  intro h' e w
  cases e
  exact pick_wordC (slot_two w) (by decide) (congrArg (fun z => some (Instr.cexp h z)) (CR.unpack_pack o))

theorem cred (h : Hdr) (o : CR) : Statement (.cred h o) := by
  intro h' e w
  cases e
  exact pick_wordC (slot_two (and_fst w)) (by decide) (congrArg (fun z => some (Instr.cred h z)) (CR.unpack_pack o))

theorem put (h : Hdr) (o : CR) : Statement (.put h o) := by
  intro h' e w
  cases e
  exact pick_wordC (slot_two (and_fst w)) (by decide) (congrArg (fun z => some (Instr.put h z)) (CR.unpack_pack o))

theorem get (h : Hdr) (o : CR) : Statement (.get h o) := by
  intro h' e w
  cases e
  exact pick_wordC (slot_two (and_fst w)) (by decide) (congrArg (fun z => some (Instr.get h z)) (CR.unpack_pack o))

theorem ssend (h : Hdr) (o : CR) : Statement (.ssend h o) := by
  intro h' e w
  cases e
  exact pick_wordC (slot_two (and_fst w)) (by decide) (congrArg (fun z => some (Instr.ssend h z)) (CR.unpack_pack o))

theorem cadd (h : Hdr) (o : CR) : Statement (.cadd h o) := by
  intro h' e w
  cases e
  exact pick_wordC (slot_two (and_fst (and_fst (and_fst w)))) (by decide) (congrArg (fun z => some (Instr.cadd h z)) (CR.unpack_pack o))

theorem copyCommandStart (core : Nat) (ch : Nat) : Statement (.copyCommandStart core ch) := fun _ e => nomatch e

theorem copyChunkTransfer (core : Nat) (ch : Nat) (id : Nat) (remote : List Byte) : Statement (.copyChunkTransfer core ch id remote) := fun _ e => nomatch e

theorem copyChannelFault (core : Nat) (ch : Nat) (id : Nat) : Statement (.copyChannelFault core ch id) := fun _ e => nomatch e

theorem copyChannelResume (core : Nat) (ch : Nat) (ok : Bool) : Statement (.copyChannelResume core ch ok) := fun _ e => nomatch e

theorem completionRecord (core : Nat) (ch : Nat) (id : Nat) (code : Nat) : Statement (.completionRecord core ch id code) := fun _ e => nomatch e

theorem cexpPermitGrant (core : Nat) (ch : Nat) (id : Nat) : Statement (.cexpPermitGrant core ch id) := fun _ e => nomatch e

theorem cexpPermitDeadline (core : Nat) (ch : Nat) (id : Nat) : Statement (.cexpPermitDeadline core ch id) := fun _ e => nomatch e

theorem putMatch (send : Nat) : Statement (.putMatch send) := fun _ e => nomatch e

theorem putNorecvTimeout : Statement .putNorecvTimeout := fun _ e => nomatch e

theorem loadDataReturn (core : Nat) (id : Nat) (stale : Bool) (remote : List Byte) : Statement (.loadDataReturn core id stale remote) := fun _ e => nomatch e

theorem storePerformed (core : Nat) : Statement (.storePerformed core) := fun _ e => nomatch e

theorem tileLoadArrival (core : Nat) (id : Nat) (stale : Bool) (remote : List Byte) : Statement (.tileLoadArrival core id stale remote) := fun _ e => nomatch e

theorem tstSourceRead (core : Nat) (id : Nat) : Statement (.tstSourceRead core id) := fun _ e => nomatch e

theorem resultLanding (core : Nat) : Statement (.resultLanding core) := fun _ e => nomatch e

theorem v1Commit (core : Nat) : Statement (.v1Commit core) := fun _ e => nomatch e

theorem tlbWalkComplete (core : Nat) (evict : List Nat) : Statement (.tlbWalkComplete core evict) := fun _ e => nomatch e

theorem asyncTrap (core : Nat) : Statement (.asyncTrap core) := fun _ e => nomatch e

theorem pageFaultService (core : Nat) (ok : Bool) : Statement (.pageFaultService core ok) := fun _ e => nomatch e

theorem coreHardFault (core : Nat) (kind : Nat) (idx : Nat) : Statement (.coreHardFault core kind idx) := fun _ e => nomatch e

theorem watchdog (core : Nat) : Statement (.watchdog core) := fun _ e => nomatch e

theorem preemptRequest (core : Nat) : Statement (.preemptRequest core) := fun _ e => nomatch e

theorem contextSave (core : Nat) (ok : Bool) : Statement (.contextSave core ok) := fun _ e => nomatch e

theorem forcedSave (core : Nat) : Statement (.forcedSave core) := fun _ e => nomatch e

theorem contextResume (core : Nat) : Statement (.contextResume core) := fun _ e => nomatch e

theorem grantIssue (die : Nat) : Statement (.grantIssue die) := fun _ e => nomatch e

theorem grantExpiry : Statement .grantExpiry := fun _ e => nomatch e

theorem governorWindow : Statement .governorWindow := fun _ e => nomatch e

theorem vectorHeavyCharge : Statement .vectorHeavyCharge := fun _ e => nomatch e

theorem launchNode (graph : Nat) (node : Nat) : Statement (.launchNode graph node) := fun _ e => nomatch e

theorem instanceDispatch (part : Nat) (spr : List Word) : Statement (.instanceDispatch part spr) := fun _ e => nomatch e

theorem condNode (graph : Nat) (node : Nat) (remote : List Byte) : Statement (.condNode graph node remote) := fun _ e => nomatch e

theorem whileNode (graph : Nat) (node : Nat) (remote : List Byte) : Statement (.whileNode graph node remote) := fun _ e => nomatch e

theorem waitNodePoll (graph : Nat) (node : Nat) (remote : List Byte) : Statement (.waitNodePoll graph node remote) := fun _ e => nomatch e

theorem signalNode (graph : Nat) (node : Nat) : Statement (.signalNode graph node) := fun _ e => nomatch e

theorem endNode (graph : Nat) : Statement (.endNode graph) := fun _ e => nomatch e

theorem gridCompletion (graph : Nat) (node : Nat) : Statement (.gridCompletion graph node) := fun _ e => nomatch e

theorem priorityAging : Statement .priorityAging := fun _ e => nomatch e

theorem coreSpareTakeover (core : Nat) : Statement (.coreSpareTakeover core) := fun _ e => nomatch e

theorem sliceSpareTakeover (die : Nat) (slice : Nat) : Statement (.sliceSpareTakeover die slice) := fun _ e => nomatch e

theorem hbmRowBankSpare (stack : Nat) (bank : Bool) : Statement (.hbmRowBankSpare stack bank) := fun _ e => nomatch e

theorem pseudoChannelReplace (stack : Nat) : Statement (.pseudoChannelReplace stack) := fun _ e => nomatch e

theorem ridgeTakeover : Statement .ridgeTakeover := fun _ e => nomatch e

theorem unoonPortTakeover : Statement .unoonPortTakeover := fun _ e => nomatch e

theorem flitCrcRetry (l : PortLane) : Statement (.flitCrcRetry l) := fun _ e => nomatch e

theorem laneSwitch (l : PortLane) : Statement (.laneSwitch l) := fun _ e => nomatch e

theorem portRequestCheck (port : Nat) (f : Arrival) : Statement (.portRequestCheck port f) := fun _ e => nomatch e

theorem errorResponseArrival (agent : Nat) (id : Nat) (code : Nat) : Statement (.errorResponseArrival agent id code) := fun _ e => nomatch e

theorem releaseMarker (die : Nat) (f : Flit) : Statement (.releaseMarker die f) := fun _ e => nomatch e

theorem releaseCompletion (die : Nat) (src : Nat) (agent : Nat) (epoch : Nat) : Statement (.releaseCompletion die src agent epoch) := fun _ e => nomatch e

theorem combStreamMerge (tree : Nat) (stage : Nat) (round : Nat) : Statement (.combStreamMerge tree stage round) := fun _ e => nomatch e

theorem combRootOutput (tree : Nat) (round : Nat) : Statement (.combRootOutput tree round) := fun _ e => nomatch e

theorem yelmQctlPop (die : Nat) : Statement (.yelmQctlPop die) := fun _ e => nomatch e

theorem yelmQselWrite (die : Nat) (queue : Nat) : Statement (.yelmQselWrite die queue) := fun _ e => nomatch e

theorem stepOpen (die : Nat) (remote : List Byte) : Statement (.stepOpen die remote) := fun _ e => nomatch e

theorem affinityEntry (die : Nat) : Statement (.affinityEntry die) := fun _ e => nomatch e

theorem stepClose (die : Nat) (step : Nat) (remote : List Byte) : Statement (.stepClose die step remote) := fun _ e => nomatch e

theorem stepDeadline (die : Nat) (step : Nat) (remote : List Byte) : Statement (.stepDeadline die step remote) := fun _ e => nomatch e

theorem stepOutputPublish (die : Nat) (step : Nat) : Statement (.stepOutputPublish die step) := fun _ e => nomatch e

theorem userRouterException (die : Nat) : Statement (.userRouterException die) := fun _ e => nomatch e

theorem yelmTakeover (failed : Nat) (newDie : Nat) : Statement (.yelmTakeover failed newDie) := fun _ e => nomatch e

theorem pcreate : Statement .pcreate := fun _ e => nomatch e

theorem pdestroy : Statement .pdestroy := fun _ e => nomatch e

theorem ptroot : Statement .ptroot := fun _ e => nomatch e

theorem ptinv : Statement .ptinv := fun _ e => nomatch e

theorem fabcfgKeyEntry : Statement .fabcfgKeyEntry := fun _ e => nomatch e

theorem fabcfgShareEntry : Statement .fabcfgShareEntry := fun _ e => nomatch e

theorem fabcfgPortMode : Statement .fabcfgPortMode := fun _ e => nomatch e

theorem fabcfgOutboundKey : Statement .fabcfgOutboundKey := fun _ e => nomatch e

theorem fabcfgDomainSize : Statement .fabcfgDomainSize := fun _ e => nomatch e

theorem fabcfgRoute : Statement .fabcfgRoute := fun _ e => nomatch e

theorem fabcfgOwnAccelerator : Statement .fabcfgOwnAccelerator := fun _ e => nomatch e

theorem fabcfgReductionTree : Statement .fabcfgReductionTree := fun _ e => nomatch e

theorem fabcfgUalinkSource : Statement .fabcfgUalinkSource := fun _ e => nomatch e

theorem fabcfgLiftFence : Statement .fabcfgLiftFence := fun _ e => nomatch e

theorem fabcfgLaneThreshold : Statement .fabcfgLaneThreshold := fun _ e => nomatch e

theorem memw : Statement .memw := fun _ e => nomatch e

theorem memr : Statement .memr := fun _ e => nomatch e

theorem imgload : Statement .imgload := fun _ e => nomatch e

theorem imgfree : Statement .imgfree := fun _ e => nomatch e

theorem gsubmit : Statement .gsubmit := fun _ e => nomatch e

theorem gabort : Statement .gabort := fun _ e => nomatch e

theorem ycfgAssignQueue : Statement .ycfgAssignQueue := fun _ e => nomatch e

theorem ycfgLoadRouter : Statement .ycfgLoadRouter := fun _ e => nomatch e

theorem govset : Statement .govset := fun _ e => nomatch e

theorem queryPcc : Statement .queryPcc := fun _ e => nomatch e

theorem querySpares : Statement .querySpares := fun _ e => nomatch e

theorem queryPartition : Statement .queryPartition := fun _ e => nomatch e

theorem queryPortTenant : Statement .queryPortTenant := fun _ e => nomatch e

theorem queryYelmQueue : Statement .queryYelmQueue := fun _ e => nomatch e

theorem queryRepairReport : Statement .queryRepairReport := fun _ e => nomatch e

theorem queryTemperature : Statement .queryTemperature := fun _ e => nomatch e

theorem queryErrorCounts : Statement .queryErrorCounts := fun _ e => nomatch e

theorem reset : Statement .reset := fun _ e => nomatch e

theorem powerUp : Statement .powerUp := fun _ e => nomatch e

theorem throttleEntry (die : Nat) (temp : Nat) : Statement (.throttleEntry die temp) := fun _ e => nomatch e

theorem throttleExit (die : Nat) (temp : Nat) : Statement (.throttleExit die temp) := fun _ e => nomatch e

theorem overtempShutdown (die : Nat) (temp : Nat) : Statement (.overtempShutdown die temp) := fun _ e => nomatch e

theorem illegalCode : Statement .illegalCode := fun _ e => nomatch e

theorem reservedOpcode (slot : Slot) (raw : BitVec 56) : Statement (.reservedOpcode slot raw) := fun _ e => nomatch e

theorem reservedCommand : Statement .reservedCommand := fun _ e => nomatch e

theorem scratchpadStallEnd (core : Nat) : Statement (.scratchpadStallEnd core) := fun _ e => nomatch e

theorem writesPerformedAtScope (core : Nat) (line : Option Nat) : Statement (.writesPerformedAtScope core line) := fun _ e => nomatch e

theorem writeAcknowledgement (agent : Nat) (id : Nat) : Statement (.writeAcknowledgement agent id) := fun _ e => nomatch e

theorem deficitRound (port : Nat) (dir : Nat) : Statement (.deficitRound port dir) := fun _ e => nomatch e

theorem yelmQueueFreeEntry : Statement .yelmQueueFreeEntry := fun _ e => nomatch e

theorem unoonLinkDown : Statement .unoonLinkDown := fun _ e => nomatch e

theorem unoonLinkReturn (port : Nat) : Statement (.unoonLinkReturn port) := fun _ e => nomatch e

theorem powerLoss : Statement .powerLoss := fun _ e => nomatch e

theorem softError (place : ErrPlace) (bits : Nat) : Statement (.softError place bits) := fun _ e => nomatch e

theorem scrub (pa : Nat) : Statement (.scrub pa) := fun _ e => nomatch e

end Laws.Encoding
end Sys2Proof
end

