-- ==== Sys2Proof/Laws/Slot.lean ====
section
/-! SUPPORT. What the steps of a slot's judging do, said once each: they read, they note uses, they start landings. -/

namespace Sys2Proof.Machine

/-- From the effects `b` the judging `m` gives `a` and the effects `b'`, whatever register uses it has noted. -/
def Runs {α : Type} (m : SlotM α) (b : Bld) (a : α) (b' : Bld) : Prop :=
  ∀ u, ∃ u', m.run.run { b with uses := u } = (.ok a, { b' with uses := u' })

theorem Runs.bind {α β : Type} {m : SlotM α} {f : α → SlotM β} {a : α} {c : β} {b b1 b2 : Bld}
    (h : Runs m b a b1) (h' : Runs (f a) b1 c b2) : Runs (m >>= f) b c b2 := by
  intro u
  obtain ⟨u1, h1⟩ := h u
  obtain ⟨u2, h2⟩ := h' u1
  refine ⟨u2, ?_⟩
  have e : (m >>= f).run.run { b with uses := u } =
      (match m.run.run { b with uses := u } with
        | (.ok x, t) => (f x).run.run t
        | (.error k, t) => (.error k, t)) := by
    simp only [Bind.bind, ExceptT.bind, ExceptT.run, ExceptT.mk, StateT.bind, StateT.run, ExceptT.bindCont]
    generalize (m { b with uses := u }) = r
    rcases r with ⟨r, t⟩
    cases r <;> rfl
  rw [e, h1]
  exact h2

theorem runs_pure {α : Type} (a : α) (b : Bld) : Runs (pure a) b a b := fun u => ⟨u, rfl⟩

theorem runs_need (x : Ctx) {ok : Bool} (h : ok = true) (p q : Word) (b : Bld) : Runs (x.need ok p q) b () b := by
  unfold Ctx.need; rw [if_pos h]; exact runs_pure _ _

theorem runs_modify (f : Bld → Bld) (b : Bld) (h : ∀ u, ∃ u', f { b with uses := u } = { f b with uses := u' }) :
    Runs (modify f) b () (f b) := by
  intro u
  obtain ⟨u', h'⟩ := h u
  exact ⟨u', by rw [← h']; rfl⟩

theorem runs_use (f n : Nat) (b : Bld) : Runs (use f n) b () b := fun u => ⟨(f, n) :: u, rfl⟩

theorem runs_rS {s : State} {op : SlotOp} {n : BitVec 6} (h : s.sOk n = true) (b : Bld) :
    Runs ((s.ctx op).rS n.toNat) b (s.sv n) b := by
  unfold Ctx.rS
  refine Runs.bind (b1 := b) (a := ()) ?_ (runs_pure _ _)
  unfold Ctx.early
  simp only [State.sOk, Bool.not_eq_true'] at h
  have h' : bit (s.ctx op).c.pendS ((rotS (s.ctx op).c.r.rot).phys n.toNat) = false := h
  simp only [h', Bool.false_eq_true, if_false]
  exact runs_use _ _ _

theorem runs_rV {s : State} {op : SlotOp} {n : BitVec 6} (h : s.vOk n = true) (b : Bld) :
    Runs ((s.ctx op).rV n.toNat) b (s.vv n) b := by
  unfold Ctx.rV
  refine Runs.bind (b1 := b) (a := ()) ?_ (runs_pure _ _)
  unfold Ctx.early
  simp only [State.vOk, Bool.not_eq_true'] at h
  have h' : bit (s.ctx op).c.pendV ((rotV (s.ctx op).c.r.rot).phys n.toNat) = false := h
  simp only [h', Bool.false_eq_true, if_false]
  exact runs_use _ _ _

theorem runs_rTy {s : State} {op : SlotOp} {n : Nat} (h : s.tOk n = true) (b : Bld) :
    Runs ((s.ctx op).rTy n) b (s.tyv n) b := by
  unfold Ctx.rTy
  refine Runs.bind (b1 := b) (a := ()) ?_ (runs_pure _ _)
  unfold Ctx.early
  simp only [State.tOk, Bool.not_eq_true'] at h
  have h' : bit (s.ctx op).c.pendT n = false := h
  simp only [h', Bool.false_eq_true, if_false]
  exact runs_use _ _ _

theorem runs_rT {s : State} {op : SlotOp} {n : Nat} (h : s.tOk n = true) (b : Bld) :
    Runs ((s.ctx op).rT n) b (s.tv n) b := by
  unfold Ctx.rT
  refine Runs.bind (b1 := b) (a := ()) ?_ (runs_pure _ _)
  unfold Ctx.early
  simp only [State.tOk, Bool.not_eq_true'] at h
  have h' : bit (s.ctx op).c.pendT n = false := h
  simp only [h', Bool.false_eq_true, if_false]
  exact runs_use _ _ _

theorem runs_rP (s : State) (op : SlotOp) (n : BitVec 4) (b : Bld) : Runs ((s.ctx op).rP n.toNat) b (s.pv n) b :=
  Runs.bind (runs_use _ _ _) (runs_pure _ _)

theorem runs_rM (s : State) (op : SlotOp) (n : BitVec 3) (b : Bld) : Runs ((s.ctx op).rM n.toNat) b (s.mv n) b :=
  Runs.bind (runs_use _ _ _) (runs_pure _ _)

/-- The register of a landing can take it beside what the bundle has started so far (R25). -/
def State.freeFor (s : State) (b : Bld) (f : Flight) : Prop :=
  ∀ r, f.land.reg = some r → s.busyReg r = false ∧ b.pends.contains r = false ∧
    ∀ z ∈ s.me.flight ++ b.lands, ¬(z.land.reg = some r ∧ z.due = f.due)

theorem runs_land {s : State} {op : SlotOp} {b : Bld} {lat : Nat} {l : Land} {flags : Flags} {clip : Bool}
    (h : s.freeFor b (s.lands lat l flags clip)) :
    Runs ((s.ctx op).land lat l flags clip) b () { b with lands := b.lands ++ [s.lands lat l flags clip] } := by
  intro u
  unfold Ctx.land
  cases hl : l.reg with
  | none => exact ⟨u, rfl⟩
  | some r =>
    obtain ⟨f, n⟩ := r
    obtain ⟨h1, h2, h3⟩ := h (f, n) hl
    have hf : ((s.ctx op).c.flight ++ b.lands).find? (fun z => z.land.reg == some (f, n) && z.due == (s.ctx op).c.cycle + max lat 1) = none := by
      rw [List.find?_eq_none]
      intro z hz
      have := h3 z hz
      simp only [Bool.and_eq_true, beq_iff_eq]
      exact this
    have hb : (s.ctx op).busy { b with uses := u } f n = none := by
      simp only [State.busyReg, Bool.or_eq_false_iff] at h1
      unfold Ctx.busy
      refine (if_neg ?_).trans ((if_neg ?_).trans rfl)
      · rw [Bool.not_eq_true, Bool.or_eq_false_iff]; exact ⟨h1.1, h2⟩
      · rw [Bool.not_eq_true]; exact h1.2
    refine ⟨(f, n) :: u, ?_⟩
    simp only [bind, ExceptT.bind, ExceptT.run, ExceptT.mk, StateT.bind, StateT.run, ExceptT.bindCont, use, modify, modifyGet,
      MonadStateOf.modifyGet, monadLift, MonadLift.monadLift, ExceptT.lift, StateT.modifyGet, Functor.map, StateT.map, get, getThe, MonadStateOf.get, StateT.get, pure, liftM]
    simp only [hf, hb]
    rfl


/-- The list `l` of landings can be started by a bundle that has started `b`. -/
def State.freeAll (s : State) : Bld → List Flight → Prop
  | _, [] => True
  | b, f :: l => s.freeFor b f ∧ s.freeAll { b with lands := b.lands ++ [f] } l

theorem runs_dropped {s : State} {op : SlotOp} {b : Bld} {lat : Nat} {flags : Flags} :
    Runs ((s.ctx op).dropped lat flags) b () { b with lands := b.lands ++ s.dropped lat flags } := by
  unfold Ctx.dropped State.dropped
  split
  · simpa using runs_pure () b
  · exact runs_land (fun r hr => by simp [State.lands, Land.reg] at hr)

theorem runs_wS {s : State} {op : SlotOp} {b : Bld} {n : BitVec 6} {lat : Nat} {v : Word} {flags : Flags}
    (h : s.freeAll b (s.putS n lat v flags)) :
    Runs ((s.ctx op).wS n.toNat v lat flags) b () { b with lands := b.lands ++ s.putS n lat v flags } := by
  unfold Ctx.wS
  unfold State.putS at *
  have e : ((rotS (s.ctx op).c.r.rot).phys n.toNat = 0 || (rotS (s.ctx op).c.r.rot).dead ((rotS (s.ctx op).c.r.rot).phys n.toNat)) = s.sDrop n := by
    rfl
  simp only [e]
  split
  · exact runs_dropped
  · rename_i hd
    rw [if_neg hd] at h
    exact runs_land h.1

theorem runs_wV {s : State} {op : SlotOp} {b : Bld} {n : BitVec 6} {lat : Nat} {v mask : VReg} {flags : Flags}
    (h : s.freeAll b (s.putV n lat v mask flags)) :
    Runs ((s.ctx op).wV n.toNat v mask lat flags) b () { b with lands := b.lands ++ s.putV n lat v mask flags } := by
  unfold Ctx.wV
  unfold State.putV at *
  have e : (rotV (s.ctx op).c.r.rot).dead ((rotV (s.ctx op).c.r.rot).phys n.toNat) = s.vDrop n := rfl
  simp only [e]
  split
  · exact runs_dropped
  · rename_i hd
    rw [if_neg hd] at h
    exact runs_land h.1

theorem runs_wM {s : State} {op : SlotOp} {b : Bld} {n : BitVec 3} {lat : Nat} {v : Word} {flags : Flags}
    (h : s.freeAll b (s.putM n lat v flags)) :
    Runs ((s.ctx op).wM n.toNat v lat flags) b () { b with lands := b.lands ++ s.putM n lat v flags } := by
  unfold Ctx.wM
  unfold State.putM at *
  have e : (n.toNat = 0) = (n = 0) := by rw [eq_iff_iff]; exact ⟨fun h => BitVec.eq_of_toNat_eq h, fun h => by rw [h]; rfl⟩
  simp only [e]
  split
  · exact runs_dropped
  · rename_i hd
    rw [if_neg hd] at h
    exact runs_land h.1

theorem runs_wP {s : State} {op : SlotOp} {b : Bld} {n : BitVec 4} {lat : Nat} {v : Bool}
    (h : s.freeAll b (s.putP n lat v)) :
    Runs ((s.ctx op).wP n.toNat v lat) b () { b with lands := b.lands ++ s.putP n lat v } := by
  unfold Ctx.wP
  unfold State.putP at *
  have e : physP (s.ctx op).c.r.rot n.toNat = physP s.me.r.rot n.toNat := rfl
  simp only [e]
  split
  · simpa using runs_pure () b
  · rename_i hd
    rw [if_neg hd] at h
    exact runs_land h.1

theorem freeAll_append {s : State} (l1 l2 : List Flight) (b : Bld) :
    s.freeAll b (l1 ++ l2) ↔ s.freeAll b l1 ∧ s.freeAll { b with lands := b.lands ++ l1 } l2 := by
  induction l1 generalizing b with
  | nil => simp [State.freeAll]
  | cons f l ih => simp [State.freeAll, ih, and_assoc]

theorem freeAll_of {s : State} (l : List Flight) (b : Bld) (hp : b.pends = [])
    (h : ∀ f ∈ l, ∀ r, f.land.reg = some r → s.busyReg r = false ∧
      ∀ z ∈ s.me.flight ++ b.lands, ¬(z.land.reg = some r ∧ z.due = f.due))
    (hn : (l.filterMap fun f => f.land.reg.map fun r => (r, f.due)).Nodup) : s.freeAll b l := by
  induction l generalizing b with
  | nil => trivial
  | cons f l ih =>
    refine ⟨fun r hr => ⟨(h f (by simp) r hr).1, by simp [hp], (h f (by simp) r hr).2⟩, ih { b with lands := b.lands ++ [f] } hp ?_ ?_⟩
    · intro g hg r hr
      refine ⟨(h g (by simp [hg]) r hr).1, ?_⟩
      intro z hz hzz
      simp only [← List.append_assoc, List.mem_append, List.mem_singleton] at hz
      rcases hz with hz | hz
      · exact (h g (by simp [hg]) r hr).2 z (by simpa using hz) hzz
      · subst hz
        simp only [List.filterMap_cons, hzz.1, Option.map_some, List.nodup_cons, List.mem_filterMap, not_exists, not_and] at hn
        exact hn.1 g hg (by simp [hr, hzz.2])
    · simp only [List.filterMap_cons] at hn
      split at hn
      · exact hn
      · exact (List.nodup_cons.1 hn).2

theorem State.fits_room {s : State} {l : List Flight} (h : s.fits l = true) : s.me.inFlight + l.length ≤ 16 := by
  simp only [State.fits, Bool.and_eq_true, decide_eq_true_eq] at h; exact h.1.1

theorem State.fits_free {s : State} {l : List Flight} (h : s.fits l = true) : s.freeAll (Bld.start s.me) l := by
  simp only [State.fits, Bool.and_eq_true, decide_eq_true_eq, List.all_eq_true] at h
  refine freeAll_of l _ rfl (fun f hf r hr => ?_) h.2
  have := h.1.2 f hf
  simp only [hr, Bool.and_eq_true, Bool.not_eq_true', List.any_eq_false, beq_iff_eq] at this
  refine ⟨this.1, fun z hz => ?_⟩
  have hz' : z ∈ s.me.flight := by simpa [Bld.start] using hz
  exact this.2 z hz'

/-- A bundle of one operation that nothing stops and whose judging gives `b` retires with `b`. -/
theorem issueOne_runs {s : State} {op : SlotOp} {b : Bld} (hc : s.clear = true) (hwf : op.wf = true) (ho : s.on op.hdr = true)
    (hr : Runs (op.run (s.ctx op)) (Bld.start s.me) () b)
    (hroom : s.me.inFlight + b.lands.length ≤ 16) (hm : b.miss = []) (he : b.early = none) (hh : b.holds = [])
    (hgr : ∀ g, b.grant = some g → s.me.grant.valid g s.pcc = true) (hp : b.pair = none) :
    issueOne op s = .next (s.atIssue.retire s.cur b none s.fall) := by
  obtain ⟨u, h⟩ := hr [(3, physP s.me.r.rot op.hdr.guard.toNat)]
  exact (issueOne_next hc hwf ho h hroom hm he hh hgr hp).trans rfl

/-- A bundle of one operation that only starts landings. -/
theorem issueOne_landing {s : State} {op : SlotOp} {l : List Flight} (hc : s.clear = true) (hwf : op.wf = true)
    (ho : s.on op.hdr = true) (hf : s.fits l = true)
    (hr : Runs (op.run (s.ctx op)) (Bld.start s.me) () { Bld.start s.me with lands := l }) :
    issueOne op s = .next (s.landing l) :=
  issueOne_runs hc hwf ho hr (State.fits_room hf) rfl rfl rfl (fun _ h => by simp [Bld.start] at h) rfl

/-- From the effects `b` the judging `m` raises the cause `k`, with no translation miss. -/
def Fails {α : Type} (m : SlotM α) (b : Bld) (k : Cause) : Prop :=
  ∀ u, ∃ b', m.run.run { b with uses := u } = (.error k, b') ∧ b'.miss = []

theorem Fails.bind {α β : Type} {m : SlotM α} {f : α → SlotM β} {a : α} {b b1 : Bld} {k : Cause}
    (h : Runs m b a b1) (h' : Fails (f a) b1 k) : Fails (m >>= f) b k := by
  intro u
  obtain ⟨u1, h1⟩ := h u
  obtain ⟨b2, h2, hm⟩ := h' u1
  refine ⟨b2, ?_, hm⟩
  have e : (m >>= f).run.run { b with uses := u } =
      (match m.run.run { b with uses := u } with
        | (.ok x, t) => (f x).run.run t
        | (.error k, t) => (.error k, t)) := by
    simp only [Bind.bind, ExceptT.bind, ExceptT.run, ExceptT.mk, StateT.bind, StateT.run, ExceptT.bindCont]
    generalize (m { b with uses := u }) = r
    rcases r with ⟨r, t⟩
    cases r <;> rfl
  rw [e, h1]
  exact h2

theorem Fails.first {α β : Type} {m : SlotM α} {f : α → SlotM β} {b : Bld} {k : Cause} (h : Fails m b k) : Fails (m >>= f) b k := by
  intro u
  obtain ⟨b2, h2, hm⟩ := h u
  refine ⟨b2, ?_, hm⟩
  have e : (m >>= f).run.run { b with uses := u } =
      (match m.run.run { b with uses := u } with
        | (.ok x, t) => (f x).run.run t
        | (.error k, t) => (.error k, t)) := by
    simp only [Bind.bind, ExceptT.bind, ExceptT.run, ExceptT.mk, StateT.bind, StateT.run, ExceptT.bindCont]
    generalize (m { b with uses := u }) = r
    rcases r with ⟨r, t⟩
    cases r <;> rfl
  rw [e, h2]

theorem fails_fail {α : Type} (x : Ctx) (code : Nat) (p q r : Word) (b : Bld) (hm : b.miss = []) :
    Fails (α := α) (x.fail code p q r) b (slotCause code x.slot p q r) := fun _ => ⟨_, rfl, hm⟩

theorem fails_need (x : Ctx) {ok : Bool} (h : ok = false) (p q : Word) (b : Bld) (hm : b.miss = []) :
    Fails (x.need ok p q) b (slotCause 0x02 x.slot 0 p q) := by
  unfold Ctx.need
  rw [if_neg (by simp [h])]
  exact fails_fail x 0x02 0 p q b hm

/-- A bundle of one operation whose judging raises a cause takes its trap. -/
theorem issueOne_fails {s : State} {op : SlotOp} {k : Cause} (hc : s.clear = true) (hwf : op.wf = true) (ho : s.on op.hdr = true)
    (hr : Fails (op.run (s.ctx op)) (Bld.start s.me) k) : issueOne op s = .next (s.trapped k) := by
  obtain ⟨b, h, hm⟩ := hr [(3, physP s.me.r.rot op.hdr.guard.toNat)]
  refine issueOne_traps hc (runSlots_fails hwf ?_ (tagOn_of ho) h) hm
  simp only [State.on, Bool.and_eq_true] at ho
  exact ho.1

theorem runs_atRetire (f : State → State) (b : Bld) : Runs (atRetire f) b () { b with post := fun s => f (b.post s) } :=
  fun u => ⟨u, rfl⟩

theorem runs_coreAtRetire (x : Ctx) (f : Core → Core) (b : Bld) :
    Runs (x.coreAtRetire f) b () { b with post := fun s => (b.post s).modCore x.i f } := fun u => ⟨u, rfl⟩

theorem runs_getb {β : Type} {f : Bld → SlotM β} {b b' : Bld} {c : β}
    (h : ∀ u, ∃ u', (f { b with uses := u }).run.run { b with uses := u } = (.ok c, { b' with uses := u' })) :
    Runs (get >>= f) b c b' := by
  intro u
  obtain ⟨u', hu⟩ := h u
  exact ⟨u', hu⟩

/-- A bundle of one operation that starts landings and has further effects. -/
theorem issueOne_does {s : State} {op : SlotOp} {l : List Flight} {f : Bld → Bld} (hc : s.clear = true) (hwf : op.wf = true)
    (ho : s.on op.hdr = true) (hf : s.fits l = true)
    (hr : Runs (op.run (s.ctx op)) (Bld.start s.me) () { f (Bld.start s.me) with lands := l })
    (hm : (f (Bld.start s.me)).miss = []) (he : (f (Bld.start s.me)).early = none) (hh : (f (Bld.start s.me)).holds = [])
    (hgr : ∀ g, (f (Bld.start s.me)).grant = some g → s.me.grant.valid g s.pcc = true) (hp : (f (Bld.start s.me)).pair = none) :
    issueOne op s = .next (s.issued fun b => { f b with lands := l }) :=
  issueOne_runs hc hwf ho hr (State.fits_room hf) hm he hh hgr hp

end Sys2Proof.Machine
end

