-- ==== Sys2Proof/Laws/Scalar.lean ====
section
/-! SUPPORT. Instructions of one shape that only start landings: what completes them, said once for each shape. -/

namespace Sys2Proof.Machine

/-- An operation of two scalar sources and one scalar result gives what its formula says. -/
theorem bin_gives {s : State} {i : Instr} {h : Hdr} {o : SR} {lat : Nat} {f : Word → Word → Word}
    (he : exec i s = issueOne (binOp i h o lat f) s) (v : Word) (hv : i.wf = true → v = f (s.sv o.ra) (s.sv o.rb)) :
    s.Gives i h (s.sOk o.ra && s.sOk o.rb) (s.putS o.rd lat v) := by
  intro hwf hc ho hok hf
  rw [hv hwf] at *
  simp only [Bool.and_eq_true] at hok
  rw [he]
  exact issueOne_landing (op := binOp i h o lat f) hc hwf ho hf
    (Runs.bind (runs_rS hok.1 _) (Runs.bind (runs_rS hok.2 _) (runs_wS (State.fits_free hf))))

/-- An operation of one scalar source and one scalar result. -/
theorem un_gives {s : State} {i : Instr} {h : Hdr} {o : SR} {f : Word → Word}
    (he : exec i s = issueOne (unOp i h o f) s) (v : Word) (hv : i.wf = true → v = f (s.sv o.ra)) :
    s.Gives i h (s.sOk o.ra) (s.putS o.rd 1 v) := by
  intro hwf hc ho hok hf
  rw [hv hwf] at *
  rw [he]
  exact issueOne_landing (op := unOp i h o f) hc hwf ho hf
    (Runs.bind (runs_rS hok _) (runs_wS (State.fits_free hf)))

/-- An operation of a scalar source and an immediate. -/
theorem imm_gives {s : State} {i : Instr} {h : Hdr} {o : SI} {f : Word → Word}
    (he : exec i s = issueOne (immOp i h o f) s) (v : Word) (hv : i.wf = true → v = f (s.sv o.ra)) :
    s.Gives i h (s.sOk o.ra) (s.putS o.rd 1 v) := by
  intro hwf hc ho hok hf
  rw [hv hwf] at *
  rw [he]
  exact issueOne_landing (op := immOp i h o f) hc hwf ho hf
    (Runs.bind (runs_rS hok _) (runs_wS (State.fits_free hf)))

/-- A pair of predicates, the second the complement of the first. -/
theorem pair_runs {s : State} {op : SlotOp} {pt pf : BitVec 4} {r : Bool} {lat : Nat}
    (hf : s.fits (s.putP pt lat r ++ s.putP pf lat (!r)) = true) :
    Runs ((s.ctx op).wPair pt pf r lat) (Bld.start s.me) () { Bld.start s.me with lands := s.putP pt lat r ++ s.putP pf lat (!r) } := by
  have h := (freeAll_append _ _ _).1 (State.fits_free hf)
  exact Runs.bind (runs_wP h.1) (runs_wP h.2)

/-- An operation of two predicate sources. -/
theorem pred_gives {s : State} {i : Instr} {h : Hdr} {o : SP} {f : Bool → Bool → Bool}
    (he : exec i s = issueOne (predOp i h o f) s) (v : Bool) (hv : v = f (s.pv o.pa) (s.pv o.pb)) :
    s.Gives i h true (s.putP o.pt 1 v ++ s.putP o.pf 1 (!v)) := by
  intro hwf hc ho hok hf
  rw [hv] at *
  rw [he]
  exact issueOne_landing (op := predOp i h o f) hc hwf ho hf
    (Runs.bind (runs_rP _ _ _ _) (Runs.bind (runs_rP _ _ _ _) (pair_runs hf)))

end Sys2Proof.Machine
end

