-- ==== Sys2Proof/Laws/State.lean ====
section
/-! SUPPORT. What the operations that change one core, cluster, die or port leave: one lemma for each field of the
state, and the reads of the part that was written. -/

namespace Sys2Proof.Machine

theorem vget_vset_self {α : Type} {n : Nat} (v : Vector α n) (i : Nat) (a d : α) (h : i < n) : vget (vset v i a) i d = a := by
  simp [vget, vset, h]

theorem vget_vset_ne {α : Type} {n : Nat} (v : Vector α n) (i j : Nat) (a d : α) (h : i ≠ j) :
    vget (vset v i a) j d = vget v j d := by
  unfold vget vset
  by_cases hj : j < n <;> simp [hj, h]

@[simp] theorem State.setCore_powered (s : State) (i : Nat) (c : Core) : (s.setCore i c).powered = s.powered := rfl
@[simp] theorem State.setCore_pcc (s : State) (i : Nat) (c : Core) : (s.setCore i c).pcc = s.pcc := rfl
@[simp] theorem State.setCore_clusters (s : State) (i : Nat) (c : Core) : (s.setCore i c).clusters = s.clusters := rfl
@[simp] theorem State.setCore_kmodes (s : State) (i : Nat) (c : Core) : (s.setCore i c).kmodes = s.kmodes := rfl
@[simp] theorem State.setCore_dies (s : State) (i : Nat) (c : Core) : (s.setCore i c).dies = s.dies := rfl
@[simp] theorem State.setCore_mem (s : State) (i : Nat) (c : Core) : (s.setCore i c).mem = s.mem := rfl
@[simp] theorem State.setCore_tags (s : State) (i : Nat) (c : Core) : (s.setCore i c).tags = s.tags := rfl
@[simp] theorem State.setCore_cmpLines (s : State) (i : Nat) (c : Core) : (s.setCore i c).cmpLines = s.cmpLines := rfl
@[simp] theorem State.setCore_l2 (s : State) (i : Nat) (c : Core) : (s.setCore i c).l2 = s.l2 := rfl
@[simp] theorem State.setCore_errs (s : State) (i : Nat) (c : Core) : (s.setCore i c).errs = s.errs := rfl
@[simp] theorem State.setCore_errCount (s : State) (i : Nat) (c : Core) : (s.setCore i c).errCount = s.errCount := rfl
@[simp] theorem State.setCore_reserve (s : State) (i : Nat) (c : Core) : (s.setCore i c).reserve = s.reserve := rfl
@[simp] theorem State.setCore_parts (s : State) (i : Nat) (c : Core) : (s.setCore i c).parts = s.parts := rfl
@[simp] theorem State.setCore_images (s : State) (i : Nat) (c : Core) : (s.setCore i c).images = s.images := rfl
@[simp] theorem State.setCore_graphs (s : State) (i : Nat) (c : Core) : (s.setCore i c).graphs = s.graphs := rfl
@[simp] theorem State.setCore_saved (s : State) (i : Nat) (c : Core) : (s.setCore i c).saved = s.saved := rfl
@[simp] theorem State.setCore_plans (s : State) (i : Nat) (c : Core) : (s.setCore i c).plans = s.plans := rfl
@[simp] theorem State.setCore_copies (s : State) (i : Nat) (c : Core) : (s.setCore i c).copies = s.copies := rfl
@[simp] theorem State.setCore_unoon (s : State) (i : Nat) (c : Core) : (s.setCore i c).unoon = s.unoon := rfl
@[simp] theorem State.setCore_reports (s : State) (i : Nat) (c : Core) : (s.setCore i c).reports = s.reports := rfl
@[simp] theorem State.setCore_reportCount (s : State) (i : Nat) (c : Core) : (s.setCore i c).reportCount = s.reportCount := rfl
@[simp] theorem State.setCore_ports (s : State) (i : Nat) (c : Core) : (s.setCore i c).ports = s.ports := rfl
@[simp] theorem State.setCore_outKeys (s : State) (i : Nat) (c : Core) : (s.setCore i c).outKeys = s.outKeys := rfl
@[simp] theorem State.setCore_accNum (s : State) (i : Nat) (c : Core) : (s.setCore i c).accNum = s.accNum := rfl
@[simp] theorem State.setCore_domain (s : State) (i : Nat) (c : Core) : (s.setCore i c).domain = s.domain := rfl
@[simp] theorem State.setCore_routes (s : State) (i : Nat) (c : Core) : (s.setCore i c).routes = s.routes := rfl
@[simp] theorem State.setCore_trees (s : State) (i : Nat) (c : Core) : (s.setCore i c).trees = s.trees := rfl
@[simp] theorem State.setCore_streams (s : State) (i : Nat) (c : Core) : (s.setCore i c).streams = s.streams := rfl
@[simp] theorem State.setCore_link (s : State) (i : Nat) (c : Core) : (s.setCore i c).link = s.link := rfl
@[simp] theorem State.setCore_rounds (s : State) (i : Nat) (c : Core) : (s.setCore i c).rounds = s.rounds := rfl
@[simp] theorem State.setCore_sends (s : State) (i : Nat) (c : Core) : (s.setCore i c).sends = s.sends := rfl
@[simp] theorem State.setCore_sync (s : State) (i : Nat) (c : Core) : (s.setCore i c).sync = s.sync := rfl
@[simp] theorem State.setCore_news (s : State) (i : Nat) (c : Core) : (s.setCore i c).news = s.news := rfl
@[simp] theorem State.setCore_oldRels (s : State) (i : Nat) (c : Core) : (s.setCore i c).oldRels = s.oldRels := rfl
@[simp] theorem State.setCore_remote (s : State) (i : Nat) (c : Core) : (s.setCore i c).remote = s.remote := rfl
@[simp] theorem State.setCore_bounced (s : State) (i : Nat) (c : Core) : (s.setCore i c).bounced = s.bounced := rfl
@[simp] theorem State.setCore_asks (s : State) (i : Nat) (c : Core) : (s.setCore i c).asks = s.asks := rfl
@[simp] theorem State.setCore_partials (s : State) (i : Nat) (c : Core) : (s.setCore i c).partials = s.partials := rfl
@[simp] theorem State.setCore_ridgeDie (s : State) (i : Nat) (c : Core) : (s.setCore i c).ridgeDie = s.ridgeDie := rfl
@[simp] theorem State.setCore_winAt (s : State) (i : Nat) (c : Core) : (s.setCore i c).winAt = s.winAt := rfl
@[simp] theorem State.setCore_heavyAt (s : State) (i : Nat) (c : Core) : (s.setCore i c).heavyAt = s.heavyAt := rfl
@[simp] theorem State.setCore_agedAt (s : State) (i : Nat) (c : Core) : (s.setCore i c).agedAt = s.agedAt := rfl
@[simp] theorem State.setCore_cmd (s : State) (i : Nat) (c : Core) : (s.setCore i c).cmd = s.cmd := rfl
@[simp] theorem State.setCore_cur (s : State) (i : Nat) (c : Core) : (s.setCore i c).cur = s.cur := rfl
@[simp] theorem State.setCore_serial (s : State) (i : Nat) (c : Core) : (s.setCore i c).serial = s.serial := rfl
@[simp] theorem State.setCore_inputs (s : State) (i : Nat) (c : Core) : (s.setCore i c).inputs = s.inputs := rfl

@[simp] theorem State.modCore_powered (s : State) (i : Nat) (f : Core → Core) : (s.modCore i f).powered = s.powered := rfl
@[simp] theorem State.modCore_pcc (s : State) (i : Nat) (f : Core → Core) : (s.modCore i f).pcc = s.pcc := rfl
@[simp] theorem State.modCore_clusters (s : State) (i : Nat) (f : Core → Core) : (s.modCore i f).clusters = s.clusters := rfl
@[simp] theorem State.modCore_kmodes (s : State) (i : Nat) (f : Core → Core) : (s.modCore i f).kmodes = s.kmodes := rfl
@[simp] theorem State.modCore_dies (s : State) (i : Nat) (f : Core → Core) : (s.modCore i f).dies = s.dies := rfl
@[simp] theorem State.modCore_mem (s : State) (i : Nat) (f : Core → Core) : (s.modCore i f).mem = s.mem := rfl
@[simp] theorem State.modCore_tags (s : State) (i : Nat) (f : Core → Core) : (s.modCore i f).tags = s.tags := rfl
@[simp] theorem State.modCore_cmpLines (s : State) (i : Nat) (f : Core → Core) : (s.modCore i f).cmpLines = s.cmpLines := rfl
@[simp] theorem State.modCore_l2 (s : State) (i : Nat) (f : Core → Core) : (s.modCore i f).l2 = s.l2 := rfl
@[simp] theorem State.modCore_errs (s : State) (i : Nat) (f : Core → Core) : (s.modCore i f).errs = s.errs := rfl
@[simp] theorem State.modCore_errCount (s : State) (i : Nat) (f : Core → Core) : (s.modCore i f).errCount = s.errCount := rfl
@[simp] theorem State.modCore_reserve (s : State) (i : Nat) (f : Core → Core) : (s.modCore i f).reserve = s.reserve := rfl
@[simp] theorem State.modCore_parts (s : State) (i : Nat) (f : Core → Core) : (s.modCore i f).parts = s.parts := rfl
@[simp] theorem State.modCore_images (s : State) (i : Nat) (f : Core → Core) : (s.modCore i f).images = s.images := rfl
@[simp] theorem State.modCore_graphs (s : State) (i : Nat) (f : Core → Core) : (s.modCore i f).graphs = s.graphs := rfl
@[simp] theorem State.modCore_saved (s : State) (i : Nat) (f : Core → Core) : (s.modCore i f).saved = s.saved := rfl
@[simp] theorem State.modCore_plans (s : State) (i : Nat) (f : Core → Core) : (s.modCore i f).plans = s.plans := rfl
@[simp] theorem State.modCore_copies (s : State) (i : Nat) (f : Core → Core) : (s.modCore i f).copies = s.copies := rfl
@[simp] theorem State.modCore_unoon (s : State) (i : Nat) (f : Core → Core) : (s.modCore i f).unoon = s.unoon := rfl
@[simp] theorem State.modCore_reports (s : State) (i : Nat) (f : Core → Core) : (s.modCore i f).reports = s.reports := rfl
@[simp] theorem State.modCore_reportCount (s : State) (i : Nat) (f : Core → Core) : (s.modCore i f).reportCount = s.reportCount := rfl
@[simp] theorem State.modCore_ports (s : State) (i : Nat) (f : Core → Core) : (s.modCore i f).ports = s.ports := rfl
@[simp] theorem State.modCore_outKeys (s : State) (i : Nat) (f : Core → Core) : (s.modCore i f).outKeys = s.outKeys := rfl
@[simp] theorem State.modCore_accNum (s : State) (i : Nat) (f : Core → Core) : (s.modCore i f).accNum = s.accNum := rfl
@[simp] theorem State.modCore_domain (s : State) (i : Nat) (f : Core → Core) : (s.modCore i f).domain = s.domain := rfl
@[simp] theorem State.modCore_routes (s : State) (i : Nat) (f : Core → Core) : (s.modCore i f).routes = s.routes := rfl
@[simp] theorem State.modCore_trees (s : State) (i : Nat) (f : Core → Core) : (s.modCore i f).trees = s.trees := rfl
@[simp] theorem State.modCore_streams (s : State) (i : Nat) (f : Core → Core) : (s.modCore i f).streams = s.streams := rfl
@[simp] theorem State.modCore_link (s : State) (i : Nat) (f : Core → Core) : (s.modCore i f).link = s.link := rfl
@[simp] theorem State.modCore_rounds (s : State) (i : Nat) (f : Core → Core) : (s.modCore i f).rounds = s.rounds := rfl
@[simp] theorem State.modCore_sends (s : State) (i : Nat) (f : Core → Core) : (s.modCore i f).sends = s.sends := rfl
@[simp] theorem State.modCore_sync (s : State) (i : Nat) (f : Core → Core) : (s.modCore i f).sync = s.sync := rfl
@[simp] theorem State.modCore_news (s : State) (i : Nat) (f : Core → Core) : (s.modCore i f).news = s.news := rfl
@[simp] theorem State.modCore_oldRels (s : State) (i : Nat) (f : Core → Core) : (s.modCore i f).oldRels = s.oldRels := rfl
@[simp] theorem State.modCore_remote (s : State) (i : Nat) (f : Core → Core) : (s.modCore i f).remote = s.remote := rfl
@[simp] theorem State.modCore_bounced (s : State) (i : Nat) (f : Core → Core) : (s.modCore i f).bounced = s.bounced := rfl
@[simp] theorem State.modCore_asks (s : State) (i : Nat) (f : Core → Core) : (s.modCore i f).asks = s.asks := rfl
@[simp] theorem State.modCore_partials (s : State) (i : Nat) (f : Core → Core) : (s.modCore i f).partials = s.partials := rfl
@[simp] theorem State.modCore_ridgeDie (s : State) (i : Nat) (f : Core → Core) : (s.modCore i f).ridgeDie = s.ridgeDie := rfl
@[simp] theorem State.modCore_winAt (s : State) (i : Nat) (f : Core → Core) : (s.modCore i f).winAt = s.winAt := rfl
@[simp] theorem State.modCore_heavyAt (s : State) (i : Nat) (f : Core → Core) : (s.modCore i f).heavyAt = s.heavyAt := rfl
@[simp] theorem State.modCore_agedAt (s : State) (i : Nat) (f : Core → Core) : (s.modCore i f).agedAt = s.agedAt := rfl
@[simp] theorem State.modCore_cmd (s : State) (i : Nat) (f : Core → Core) : (s.modCore i f).cmd = s.cmd := rfl
@[simp] theorem State.modCore_cur (s : State) (i : Nat) (f : Core → Core) : (s.modCore i f).cur = s.cur := rfl
@[simp] theorem State.modCore_serial (s : State) (i : Nat) (f : Core → Core) : (s.modCore i f).serial = s.serial := rfl
@[simp] theorem State.modCore_inputs (s : State) (i : Nat) (f : Core → Core) : (s.modCore i f).inputs = s.inputs := rfl

@[simp] theorem State.setCluster_powered (s : State) (k : Nat) (c : Cluster) : (s.setCluster k c).powered = s.powered := rfl
@[simp] theorem State.setCluster_pcc (s : State) (k : Nat) (c : Cluster) : (s.setCluster k c).pcc = s.pcc := rfl
@[simp] theorem State.setCluster_cores (s : State) (k : Nat) (c : Cluster) : (s.setCluster k c).cores = s.cores := rfl
@[simp] theorem State.setCluster_kmodes (s : State) (k : Nat) (c : Cluster) : (s.setCluster k c).kmodes = s.kmodes := rfl
@[simp] theorem State.setCluster_dies (s : State) (k : Nat) (c : Cluster) : (s.setCluster k c).dies = s.dies := rfl
@[simp] theorem State.setCluster_mem (s : State) (k : Nat) (c : Cluster) : (s.setCluster k c).mem = s.mem := rfl
@[simp] theorem State.setCluster_tags (s : State) (k : Nat) (c : Cluster) : (s.setCluster k c).tags = s.tags := rfl
@[simp] theorem State.setCluster_cmpLines (s : State) (k : Nat) (c : Cluster) : (s.setCluster k c).cmpLines = s.cmpLines := rfl
@[simp] theorem State.setCluster_l2 (s : State) (k : Nat) (c : Cluster) : (s.setCluster k c).l2 = s.l2 := rfl
@[simp] theorem State.setCluster_errs (s : State) (k : Nat) (c : Cluster) : (s.setCluster k c).errs = s.errs := rfl
@[simp] theorem State.setCluster_errCount (s : State) (k : Nat) (c : Cluster) : (s.setCluster k c).errCount = s.errCount := rfl
@[simp] theorem State.setCluster_reserve (s : State) (k : Nat) (c : Cluster) : (s.setCluster k c).reserve = s.reserve := rfl
@[simp] theorem State.setCluster_parts (s : State) (k : Nat) (c : Cluster) : (s.setCluster k c).parts = s.parts := rfl
@[simp] theorem State.setCluster_images (s : State) (k : Nat) (c : Cluster) : (s.setCluster k c).images = s.images := rfl
@[simp] theorem State.setCluster_graphs (s : State) (k : Nat) (c : Cluster) : (s.setCluster k c).graphs = s.graphs := rfl
@[simp] theorem State.setCluster_saved (s : State) (k : Nat) (c : Cluster) : (s.setCluster k c).saved = s.saved := rfl
@[simp] theorem State.setCluster_plans (s : State) (k : Nat) (c : Cluster) : (s.setCluster k c).plans = s.plans := rfl
@[simp] theorem State.setCluster_copies (s : State) (k : Nat) (c : Cluster) : (s.setCluster k c).copies = s.copies := rfl
@[simp] theorem State.setCluster_unoon (s : State) (k : Nat) (c : Cluster) : (s.setCluster k c).unoon = s.unoon := rfl
@[simp] theorem State.setCluster_reports (s : State) (k : Nat) (c : Cluster) : (s.setCluster k c).reports = s.reports := rfl
@[simp] theorem State.setCluster_reportCount (s : State) (k : Nat) (c : Cluster) : (s.setCluster k c).reportCount = s.reportCount := rfl
@[simp] theorem State.setCluster_ports (s : State) (k : Nat) (c : Cluster) : (s.setCluster k c).ports = s.ports := rfl
@[simp] theorem State.setCluster_outKeys (s : State) (k : Nat) (c : Cluster) : (s.setCluster k c).outKeys = s.outKeys := rfl
@[simp] theorem State.setCluster_accNum (s : State) (k : Nat) (c : Cluster) : (s.setCluster k c).accNum = s.accNum := rfl
@[simp] theorem State.setCluster_domain (s : State) (k : Nat) (c : Cluster) : (s.setCluster k c).domain = s.domain := rfl
@[simp] theorem State.setCluster_routes (s : State) (k : Nat) (c : Cluster) : (s.setCluster k c).routes = s.routes := rfl
@[simp] theorem State.setCluster_trees (s : State) (k : Nat) (c : Cluster) : (s.setCluster k c).trees = s.trees := rfl
@[simp] theorem State.setCluster_streams (s : State) (k : Nat) (c : Cluster) : (s.setCluster k c).streams = s.streams := rfl
@[simp] theorem State.setCluster_link (s : State) (k : Nat) (c : Cluster) : (s.setCluster k c).link = s.link := rfl
@[simp] theorem State.setCluster_rounds (s : State) (k : Nat) (c : Cluster) : (s.setCluster k c).rounds = s.rounds := rfl
@[simp] theorem State.setCluster_sends (s : State) (k : Nat) (c : Cluster) : (s.setCluster k c).sends = s.sends := rfl
@[simp] theorem State.setCluster_sync (s : State) (k : Nat) (c : Cluster) : (s.setCluster k c).sync = s.sync := rfl
@[simp] theorem State.setCluster_news (s : State) (k : Nat) (c : Cluster) : (s.setCluster k c).news = s.news := rfl
@[simp] theorem State.setCluster_oldRels (s : State) (k : Nat) (c : Cluster) : (s.setCluster k c).oldRels = s.oldRels := rfl
@[simp] theorem State.setCluster_remote (s : State) (k : Nat) (c : Cluster) : (s.setCluster k c).remote = s.remote := rfl
@[simp] theorem State.setCluster_bounced (s : State) (k : Nat) (c : Cluster) : (s.setCluster k c).bounced = s.bounced := rfl
@[simp] theorem State.setCluster_asks (s : State) (k : Nat) (c : Cluster) : (s.setCluster k c).asks = s.asks := rfl
@[simp] theorem State.setCluster_partials (s : State) (k : Nat) (c : Cluster) : (s.setCluster k c).partials = s.partials := rfl
@[simp] theorem State.setCluster_ridgeDie (s : State) (k : Nat) (c : Cluster) : (s.setCluster k c).ridgeDie = s.ridgeDie := rfl
@[simp] theorem State.setCluster_winAt (s : State) (k : Nat) (c : Cluster) : (s.setCluster k c).winAt = s.winAt := rfl
@[simp] theorem State.setCluster_heavyAt (s : State) (k : Nat) (c : Cluster) : (s.setCluster k c).heavyAt = s.heavyAt := rfl
@[simp] theorem State.setCluster_agedAt (s : State) (k : Nat) (c : Cluster) : (s.setCluster k c).agedAt = s.agedAt := rfl
@[simp] theorem State.setCluster_cmd (s : State) (k : Nat) (c : Cluster) : (s.setCluster k c).cmd = s.cmd := rfl
@[simp] theorem State.setCluster_cur (s : State) (k : Nat) (c : Cluster) : (s.setCluster k c).cur = s.cur := rfl
@[simp] theorem State.setCluster_serial (s : State) (k : Nat) (c : Cluster) : (s.setCluster k c).serial = s.serial := rfl
@[simp] theorem State.setCluster_inputs (s : State) (k : Nat) (c : Cluster) : (s.setCluster k c).inputs = s.inputs := rfl

@[simp] theorem State.modCluster_powered (s : State) (k : Nat) (f : Cluster → Cluster) : (s.modCluster k f).powered = s.powered := rfl
@[simp] theorem State.modCluster_pcc (s : State) (k : Nat) (f : Cluster → Cluster) : (s.modCluster k f).pcc = s.pcc := rfl
@[simp] theorem State.modCluster_cores (s : State) (k : Nat) (f : Cluster → Cluster) : (s.modCluster k f).cores = s.cores := rfl
@[simp] theorem State.modCluster_kmodes (s : State) (k : Nat) (f : Cluster → Cluster) : (s.modCluster k f).kmodes = s.kmodes := rfl
@[simp] theorem State.modCluster_dies (s : State) (k : Nat) (f : Cluster → Cluster) : (s.modCluster k f).dies = s.dies := rfl
@[simp] theorem State.modCluster_mem (s : State) (k : Nat) (f : Cluster → Cluster) : (s.modCluster k f).mem = s.mem := rfl
@[simp] theorem State.modCluster_tags (s : State) (k : Nat) (f : Cluster → Cluster) : (s.modCluster k f).tags = s.tags := rfl
@[simp] theorem State.modCluster_cmpLines (s : State) (k : Nat) (f : Cluster → Cluster) : (s.modCluster k f).cmpLines = s.cmpLines := rfl
@[simp] theorem State.modCluster_l2 (s : State) (k : Nat) (f : Cluster → Cluster) : (s.modCluster k f).l2 = s.l2 := rfl
@[simp] theorem State.modCluster_errs (s : State) (k : Nat) (f : Cluster → Cluster) : (s.modCluster k f).errs = s.errs := rfl
@[simp] theorem State.modCluster_errCount (s : State) (k : Nat) (f : Cluster → Cluster) : (s.modCluster k f).errCount = s.errCount := rfl
@[simp] theorem State.modCluster_reserve (s : State) (k : Nat) (f : Cluster → Cluster) : (s.modCluster k f).reserve = s.reserve := rfl
@[simp] theorem State.modCluster_parts (s : State) (k : Nat) (f : Cluster → Cluster) : (s.modCluster k f).parts = s.parts := rfl
@[simp] theorem State.modCluster_images (s : State) (k : Nat) (f : Cluster → Cluster) : (s.modCluster k f).images = s.images := rfl
@[simp] theorem State.modCluster_graphs (s : State) (k : Nat) (f : Cluster → Cluster) : (s.modCluster k f).graphs = s.graphs := rfl
@[simp] theorem State.modCluster_saved (s : State) (k : Nat) (f : Cluster → Cluster) : (s.modCluster k f).saved = s.saved := rfl
@[simp] theorem State.modCluster_plans (s : State) (k : Nat) (f : Cluster → Cluster) : (s.modCluster k f).plans = s.plans := rfl
@[simp] theorem State.modCluster_copies (s : State) (k : Nat) (f : Cluster → Cluster) : (s.modCluster k f).copies = s.copies := rfl
@[simp] theorem State.modCluster_unoon (s : State) (k : Nat) (f : Cluster → Cluster) : (s.modCluster k f).unoon = s.unoon := rfl
@[simp] theorem State.modCluster_reports (s : State) (k : Nat) (f : Cluster → Cluster) : (s.modCluster k f).reports = s.reports := rfl
@[simp] theorem State.modCluster_reportCount (s : State) (k : Nat) (f : Cluster → Cluster) : (s.modCluster k f).reportCount = s.reportCount := rfl
@[simp] theorem State.modCluster_ports (s : State) (k : Nat) (f : Cluster → Cluster) : (s.modCluster k f).ports = s.ports := rfl
@[simp] theorem State.modCluster_outKeys (s : State) (k : Nat) (f : Cluster → Cluster) : (s.modCluster k f).outKeys = s.outKeys := rfl
@[simp] theorem State.modCluster_accNum (s : State) (k : Nat) (f : Cluster → Cluster) : (s.modCluster k f).accNum = s.accNum := rfl
@[simp] theorem State.modCluster_domain (s : State) (k : Nat) (f : Cluster → Cluster) : (s.modCluster k f).domain = s.domain := rfl
@[simp] theorem State.modCluster_routes (s : State) (k : Nat) (f : Cluster → Cluster) : (s.modCluster k f).routes = s.routes := rfl
@[simp] theorem State.modCluster_trees (s : State) (k : Nat) (f : Cluster → Cluster) : (s.modCluster k f).trees = s.trees := rfl
@[simp] theorem State.modCluster_streams (s : State) (k : Nat) (f : Cluster → Cluster) : (s.modCluster k f).streams = s.streams := rfl
@[simp] theorem State.modCluster_link (s : State) (k : Nat) (f : Cluster → Cluster) : (s.modCluster k f).link = s.link := rfl
@[simp] theorem State.modCluster_rounds (s : State) (k : Nat) (f : Cluster → Cluster) : (s.modCluster k f).rounds = s.rounds := rfl
@[simp] theorem State.modCluster_sends (s : State) (k : Nat) (f : Cluster → Cluster) : (s.modCluster k f).sends = s.sends := rfl
@[simp] theorem State.modCluster_sync (s : State) (k : Nat) (f : Cluster → Cluster) : (s.modCluster k f).sync = s.sync := rfl
@[simp] theorem State.modCluster_news (s : State) (k : Nat) (f : Cluster → Cluster) : (s.modCluster k f).news = s.news := rfl
@[simp] theorem State.modCluster_oldRels (s : State) (k : Nat) (f : Cluster → Cluster) : (s.modCluster k f).oldRels = s.oldRels := rfl
@[simp] theorem State.modCluster_remote (s : State) (k : Nat) (f : Cluster → Cluster) : (s.modCluster k f).remote = s.remote := rfl
@[simp] theorem State.modCluster_bounced (s : State) (k : Nat) (f : Cluster → Cluster) : (s.modCluster k f).bounced = s.bounced := rfl
@[simp] theorem State.modCluster_asks (s : State) (k : Nat) (f : Cluster → Cluster) : (s.modCluster k f).asks = s.asks := rfl
@[simp] theorem State.modCluster_partials (s : State) (k : Nat) (f : Cluster → Cluster) : (s.modCluster k f).partials = s.partials := rfl
@[simp] theorem State.modCluster_ridgeDie (s : State) (k : Nat) (f : Cluster → Cluster) : (s.modCluster k f).ridgeDie = s.ridgeDie := rfl
@[simp] theorem State.modCluster_winAt (s : State) (k : Nat) (f : Cluster → Cluster) : (s.modCluster k f).winAt = s.winAt := rfl
@[simp] theorem State.modCluster_heavyAt (s : State) (k : Nat) (f : Cluster → Cluster) : (s.modCluster k f).heavyAt = s.heavyAt := rfl
@[simp] theorem State.modCluster_agedAt (s : State) (k : Nat) (f : Cluster → Cluster) : (s.modCluster k f).agedAt = s.agedAt := rfl
@[simp] theorem State.modCluster_cmd (s : State) (k : Nat) (f : Cluster → Cluster) : (s.modCluster k f).cmd = s.cmd := rfl
@[simp] theorem State.modCluster_cur (s : State) (k : Nat) (f : Cluster → Cluster) : (s.modCluster k f).cur = s.cur := rfl
@[simp] theorem State.modCluster_serial (s : State) (k : Nat) (f : Cluster → Cluster) : (s.modCluster k f).serial = s.serial := rfl
@[simp] theorem State.modCluster_inputs (s : State) (k : Nat) (f : Cluster → Cluster) : (s.modCluster k f).inputs = s.inputs := rfl

@[simp] theorem State.setDie_powered (s : State) (k : Nat) (d : Die) : (s.setDie k d).powered = s.powered := rfl
@[simp] theorem State.setDie_pcc (s : State) (k : Nat) (d : Die) : (s.setDie k d).pcc = s.pcc := rfl
@[simp] theorem State.setDie_cores (s : State) (k : Nat) (d : Die) : (s.setDie k d).cores = s.cores := rfl
@[simp] theorem State.setDie_clusters (s : State) (k : Nat) (d : Die) : (s.setDie k d).clusters = s.clusters := rfl
@[simp] theorem State.setDie_kmodes (s : State) (k : Nat) (d : Die) : (s.setDie k d).kmodes = s.kmodes := rfl
@[simp] theorem State.setDie_mem (s : State) (k : Nat) (d : Die) : (s.setDie k d).mem = s.mem := rfl
@[simp] theorem State.setDie_tags (s : State) (k : Nat) (d : Die) : (s.setDie k d).tags = s.tags := rfl
@[simp] theorem State.setDie_cmpLines (s : State) (k : Nat) (d : Die) : (s.setDie k d).cmpLines = s.cmpLines := rfl
@[simp] theorem State.setDie_l2 (s : State) (k : Nat) (d : Die) : (s.setDie k d).l2 = s.l2 := rfl
@[simp] theorem State.setDie_errs (s : State) (k : Nat) (d : Die) : (s.setDie k d).errs = s.errs := rfl
@[simp] theorem State.setDie_errCount (s : State) (k : Nat) (d : Die) : (s.setDie k d).errCount = s.errCount := rfl
@[simp] theorem State.setDie_reserve (s : State) (k : Nat) (d : Die) : (s.setDie k d).reserve = s.reserve := rfl
@[simp] theorem State.setDie_parts (s : State) (k : Nat) (d : Die) : (s.setDie k d).parts = s.parts := rfl
@[simp] theorem State.setDie_images (s : State) (k : Nat) (d : Die) : (s.setDie k d).images = s.images := rfl
@[simp] theorem State.setDie_graphs (s : State) (k : Nat) (d : Die) : (s.setDie k d).graphs = s.graphs := rfl
@[simp] theorem State.setDie_saved (s : State) (k : Nat) (d : Die) : (s.setDie k d).saved = s.saved := rfl
@[simp] theorem State.setDie_plans (s : State) (k : Nat) (d : Die) : (s.setDie k d).plans = s.plans := rfl
@[simp] theorem State.setDie_copies (s : State) (k : Nat) (d : Die) : (s.setDie k d).copies = s.copies := rfl
@[simp] theorem State.setDie_unoon (s : State) (k : Nat) (d : Die) : (s.setDie k d).unoon = s.unoon := rfl
@[simp] theorem State.setDie_reports (s : State) (k : Nat) (d : Die) : (s.setDie k d).reports = s.reports := rfl
@[simp] theorem State.setDie_reportCount (s : State) (k : Nat) (d : Die) : (s.setDie k d).reportCount = s.reportCount := rfl
@[simp] theorem State.setDie_ports (s : State) (k : Nat) (d : Die) : (s.setDie k d).ports = s.ports := rfl
@[simp] theorem State.setDie_outKeys (s : State) (k : Nat) (d : Die) : (s.setDie k d).outKeys = s.outKeys := rfl
@[simp] theorem State.setDie_accNum (s : State) (k : Nat) (d : Die) : (s.setDie k d).accNum = s.accNum := rfl
@[simp] theorem State.setDie_domain (s : State) (k : Nat) (d : Die) : (s.setDie k d).domain = s.domain := rfl
@[simp] theorem State.setDie_routes (s : State) (k : Nat) (d : Die) : (s.setDie k d).routes = s.routes := rfl
@[simp] theorem State.setDie_trees (s : State) (k : Nat) (d : Die) : (s.setDie k d).trees = s.trees := rfl
@[simp] theorem State.setDie_streams (s : State) (k : Nat) (d : Die) : (s.setDie k d).streams = s.streams := rfl
@[simp] theorem State.setDie_link (s : State) (k : Nat) (d : Die) : (s.setDie k d).link = s.link := rfl
@[simp] theorem State.setDie_rounds (s : State) (k : Nat) (d : Die) : (s.setDie k d).rounds = s.rounds := rfl
@[simp] theorem State.setDie_sends (s : State) (k : Nat) (d : Die) : (s.setDie k d).sends = s.sends := rfl
@[simp] theorem State.setDie_sync (s : State) (k : Nat) (d : Die) : (s.setDie k d).sync = s.sync := rfl
@[simp] theorem State.setDie_news (s : State) (k : Nat) (d : Die) : (s.setDie k d).news = s.news := rfl
@[simp] theorem State.setDie_oldRels (s : State) (k : Nat) (d : Die) : (s.setDie k d).oldRels = s.oldRels := rfl
@[simp] theorem State.setDie_remote (s : State) (k : Nat) (d : Die) : (s.setDie k d).remote = s.remote := rfl
@[simp] theorem State.setDie_bounced (s : State) (k : Nat) (d : Die) : (s.setDie k d).bounced = s.bounced := rfl
@[simp] theorem State.setDie_asks (s : State) (k : Nat) (d : Die) : (s.setDie k d).asks = s.asks := rfl
@[simp] theorem State.setDie_partials (s : State) (k : Nat) (d : Die) : (s.setDie k d).partials = s.partials := rfl
@[simp] theorem State.setDie_ridgeDie (s : State) (k : Nat) (d : Die) : (s.setDie k d).ridgeDie = s.ridgeDie := rfl
@[simp] theorem State.setDie_winAt (s : State) (k : Nat) (d : Die) : (s.setDie k d).winAt = s.winAt := rfl
@[simp] theorem State.setDie_heavyAt (s : State) (k : Nat) (d : Die) : (s.setDie k d).heavyAt = s.heavyAt := rfl
@[simp] theorem State.setDie_agedAt (s : State) (k : Nat) (d : Die) : (s.setDie k d).agedAt = s.agedAt := rfl
@[simp] theorem State.setDie_cmd (s : State) (k : Nat) (d : Die) : (s.setDie k d).cmd = s.cmd := rfl
@[simp] theorem State.setDie_cur (s : State) (k : Nat) (d : Die) : (s.setDie k d).cur = s.cur := rfl
@[simp] theorem State.setDie_serial (s : State) (k : Nat) (d : Die) : (s.setDie k d).serial = s.serial := rfl
@[simp] theorem State.setDie_inputs (s : State) (k : Nat) (d : Die) : (s.setDie k d).inputs = s.inputs := rfl

@[simp] theorem State.modDie_powered (s : State) (k : Nat) (f : Die → Die) : (s.modDie k f).powered = s.powered := rfl
@[simp] theorem State.modDie_pcc (s : State) (k : Nat) (f : Die → Die) : (s.modDie k f).pcc = s.pcc := rfl
@[simp] theorem State.modDie_cores (s : State) (k : Nat) (f : Die → Die) : (s.modDie k f).cores = s.cores := rfl
@[simp] theorem State.modDie_clusters (s : State) (k : Nat) (f : Die → Die) : (s.modDie k f).clusters = s.clusters := rfl
@[simp] theorem State.modDie_kmodes (s : State) (k : Nat) (f : Die → Die) : (s.modDie k f).kmodes = s.kmodes := rfl
@[simp] theorem State.modDie_mem (s : State) (k : Nat) (f : Die → Die) : (s.modDie k f).mem = s.mem := rfl
@[simp] theorem State.modDie_tags (s : State) (k : Nat) (f : Die → Die) : (s.modDie k f).tags = s.tags := rfl
@[simp] theorem State.modDie_cmpLines (s : State) (k : Nat) (f : Die → Die) : (s.modDie k f).cmpLines = s.cmpLines := rfl
@[simp] theorem State.modDie_l2 (s : State) (k : Nat) (f : Die → Die) : (s.modDie k f).l2 = s.l2 := rfl
@[simp] theorem State.modDie_errs (s : State) (k : Nat) (f : Die → Die) : (s.modDie k f).errs = s.errs := rfl
@[simp] theorem State.modDie_errCount (s : State) (k : Nat) (f : Die → Die) : (s.modDie k f).errCount = s.errCount := rfl
@[simp] theorem State.modDie_reserve (s : State) (k : Nat) (f : Die → Die) : (s.modDie k f).reserve = s.reserve := rfl
@[simp] theorem State.modDie_parts (s : State) (k : Nat) (f : Die → Die) : (s.modDie k f).parts = s.parts := rfl
@[simp] theorem State.modDie_images (s : State) (k : Nat) (f : Die → Die) : (s.modDie k f).images = s.images := rfl
@[simp] theorem State.modDie_graphs (s : State) (k : Nat) (f : Die → Die) : (s.modDie k f).graphs = s.graphs := rfl
@[simp] theorem State.modDie_saved (s : State) (k : Nat) (f : Die → Die) : (s.modDie k f).saved = s.saved := rfl
@[simp] theorem State.modDie_plans (s : State) (k : Nat) (f : Die → Die) : (s.modDie k f).plans = s.plans := rfl
@[simp] theorem State.modDie_copies (s : State) (k : Nat) (f : Die → Die) : (s.modDie k f).copies = s.copies := rfl
@[simp] theorem State.modDie_unoon (s : State) (k : Nat) (f : Die → Die) : (s.modDie k f).unoon = s.unoon := rfl
@[simp] theorem State.modDie_reports (s : State) (k : Nat) (f : Die → Die) : (s.modDie k f).reports = s.reports := rfl
@[simp] theorem State.modDie_reportCount (s : State) (k : Nat) (f : Die → Die) : (s.modDie k f).reportCount = s.reportCount := rfl
@[simp] theorem State.modDie_ports (s : State) (k : Nat) (f : Die → Die) : (s.modDie k f).ports = s.ports := rfl
@[simp] theorem State.modDie_outKeys (s : State) (k : Nat) (f : Die → Die) : (s.modDie k f).outKeys = s.outKeys := rfl
@[simp] theorem State.modDie_accNum (s : State) (k : Nat) (f : Die → Die) : (s.modDie k f).accNum = s.accNum := rfl
@[simp] theorem State.modDie_domain (s : State) (k : Nat) (f : Die → Die) : (s.modDie k f).domain = s.domain := rfl
@[simp] theorem State.modDie_routes (s : State) (k : Nat) (f : Die → Die) : (s.modDie k f).routes = s.routes := rfl
@[simp] theorem State.modDie_trees (s : State) (k : Nat) (f : Die → Die) : (s.modDie k f).trees = s.trees := rfl
@[simp] theorem State.modDie_streams (s : State) (k : Nat) (f : Die → Die) : (s.modDie k f).streams = s.streams := rfl
@[simp] theorem State.modDie_link (s : State) (k : Nat) (f : Die → Die) : (s.modDie k f).link = s.link := rfl
@[simp] theorem State.modDie_rounds (s : State) (k : Nat) (f : Die → Die) : (s.modDie k f).rounds = s.rounds := rfl
@[simp] theorem State.modDie_sends (s : State) (k : Nat) (f : Die → Die) : (s.modDie k f).sends = s.sends := rfl
@[simp] theorem State.modDie_sync (s : State) (k : Nat) (f : Die → Die) : (s.modDie k f).sync = s.sync := rfl
@[simp] theorem State.modDie_news (s : State) (k : Nat) (f : Die → Die) : (s.modDie k f).news = s.news := rfl
@[simp] theorem State.modDie_oldRels (s : State) (k : Nat) (f : Die → Die) : (s.modDie k f).oldRels = s.oldRels := rfl
@[simp] theorem State.modDie_remote (s : State) (k : Nat) (f : Die → Die) : (s.modDie k f).remote = s.remote := rfl
@[simp] theorem State.modDie_bounced (s : State) (k : Nat) (f : Die → Die) : (s.modDie k f).bounced = s.bounced := rfl
@[simp] theorem State.modDie_asks (s : State) (k : Nat) (f : Die → Die) : (s.modDie k f).asks = s.asks := rfl
@[simp] theorem State.modDie_partials (s : State) (k : Nat) (f : Die → Die) : (s.modDie k f).partials = s.partials := rfl
@[simp] theorem State.modDie_ridgeDie (s : State) (k : Nat) (f : Die → Die) : (s.modDie k f).ridgeDie = s.ridgeDie := rfl
@[simp] theorem State.modDie_winAt (s : State) (k : Nat) (f : Die → Die) : (s.modDie k f).winAt = s.winAt := rfl
@[simp] theorem State.modDie_heavyAt (s : State) (k : Nat) (f : Die → Die) : (s.modDie k f).heavyAt = s.heavyAt := rfl
@[simp] theorem State.modDie_agedAt (s : State) (k : Nat) (f : Die → Die) : (s.modDie k f).agedAt = s.agedAt := rfl
@[simp] theorem State.modDie_cmd (s : State) (k : Nat) (f : Die → Die) : (s.modDie k f).cmd = s.cmd := rfl
@[simp] theorem State.modDie_cur (s : State) (k : Nat) (f : Die → Die) : (s.modDie k f).cur = s.cur := rfl
@[simp] theorem State.modDie_serial (s : State) (k : Nat) (f : Die → Die) : (s.modDie k f).serial = s.serial := rfl
@[simp] theorem State.modDie_inputs (s : State) (k : Nat) (f : Die → Die) : (s.modDie k f).inputs = s.inputs := rfl

@[simp] theorem State.modYelm_powered (s : State) (k : Nat) (f : Yelm → Yelm) : (s.modYelm k f).powered = s.powered := rfl
@[simp] theorem State.modYelm_pcc (s : State) (k : Nat) (f : Yelm → Yelm) : (s.modYelm k f).pcc = s.pcc := rfl
@[simp] theorem State.modYelm_cores (s : State) (k : Nat) (f : Yelm → Yelm) : (s.modYelm k f).cores = s.cores := rfl
@[simp] theorem State.modYelm_clusters (s : State) (k : Nat) (f : Yelm → Yelm) : (s.modYelm k f).clusters = s.clusters := rfl
@[simp] theorem State.modYelm_kmodes (s : State) (k : Nat) (f : Yelm → Yelm) : (s.modYelm k f).kmodes = s.kmodes := rfl
@[simp] theorem State.modYelm_mem (s : State) (k : Nat) (f : Yelm → Yelm) : (s.modYelm k f).mem = s.mem := rfl
@[simp] theorem State.modYelm_tags (s : State) (k : Nat) (f : Yelm → Yelm) : (s.modYelm k f).tags = s.tags := rfl
@[simp] theorem State.modYelm_cmpLines (s : State) (k : Nat) (f : Yelm → Yelm) : (s.modYelm k f).cmpLines = s.cmpLines := rfl
@[simp] theorem State.modYelm_l2 (s : State) (k : Nat) (f : Yelm → Yelm) : (s.modYelm k f).l2 = s.l2 := rfl
@[simp] theorem State.modYelm_errs (s : State) (k : Nat) (f : Yelm → Yelm) : (s.modYelm k f).errs = s.errs := rfl
@[simp] theorem State.modYelm_errCount (s : State) (k : Nat) (f : Yelm → Yelm) : (s.modYelm k f).errCount = s.errCount := rfl
@[simp] theorem State.modYelm_reserve (s : State) (k : Nat) (f : Yelm → Yelm) : (s.modYelm k f).reserve = s.reserve := rfl
@[simp] theorem State.modYelm_parts (s : State) (k : Nat) (f : Yelm → Yelm) : (s.modYelm k f).parts = s.parts := rfl
@[simp] theorem State.modYelm_images (s : State) (k : Nat) (f : Yelm → Yelm) : (s.modYelm k f).images = s.images := rfl
@[simp] theorem State.modYelm_graphs (s : State) (k : Nat) (f : Yelm → Yelm) : (s.modYelm k f).graphs = s.graphs := rfl
@[simp] theorem State.modYelm_saved (s : State) (k : Nat) (f : Yelm → Yelm) : (s.modYelm k f).saved = s.saved := rfl
@[simp] theorem State.modYelm_plans (s : State) (k : Nat) (f : Yelm → Yelm) : (s.modYelm k f).plans = s.plans := rfl
@[simp] theorem State.modYelm_copies (s : State) (k : Nat) (f : Yelm → Yelm) : (s.modYelm k f).copies = s.copies := rfl
@[simp] theorem State.modYelm_unoon (s : State) (k : Nat) (f : Yelm → Yelm) : (s.modYelm k f).unoon = s.unoon := rfl
@[simp] theorem State.modYelm_reports (s : State) (k : Nat) (f : Yelm → Yelm) : (s.modYelm k f).reports = s.reports := rfl
@[simp] theorem State.modYelm_reportCount (s : State) (k : Nat) (f : Yelm → Yelm) : (s.modYelm k f).reportCount = s.reportCount := rfl
@[simp] theorem State.modYelm_ports (s : State) (k : Nat) (f : Yelm → Yelm) : (s.modYelm k f).ports = s.ports := rfl
@[simp] theorem State.modYelm_outKeys (s : State) (k : Nat) (f : Yelm → Yelm) : (s.modYelm k f).outKeys = s.outKeys := rfl
@[simp] theorem State.modYelm_accNum (s : State) (k : Nat) (f : Yelm → Yelm) : (s.modYelm k f).accNum = s.accNum := rfl
@[simp] theorem State.modYelm_domain (s : State) (k : Nat) (f : Yelm → Yelm) : (s.modYelm k f).domain = s.domain := rfl
@[simp] theorem State.modYelm_routes (s : State) (k : Nat) (f : Yelm → Yelm) : (s.modYelm k f).routes = s.routes := rfl
@[simp] theorem State.modYelm_trees (s : State) (k : Nat) (f : Yelm → Yelm) : (s.modYelm k f).trees = s.trees := rfl
@[simp] theorem State.modYelm_streams (s : State) (k : Nat) (f : Yelm → Yelm) : (s.modYelm k f).streams = s.streams := rfl
@[simp] theorem State.modYelm_link (s : State) (k : Nat) (f : Yelm → Yelm) : (s.modYelm k f).link = s.link := rfl
@[simp] theorem State.modYelm_rounds (s : State) (k : Nat) (f : Yelm → Yelm) : (s.modYelm k f).rounds = s.rounds := rfl
@[simp] theorem State.modYelm_sends (s : State) (k : Nat) (f : Yelm → Yelm) : (s.modYelm k f).sends = s.sends := rfl
@[simp] theorem State.modYelm_sync (s : State) (k : Nat) (f : Yelm → Yelm) : (s.modYelm k f).sync = s.sync := rfl
@[simp] theorem State.modYelm_news (s : State) (k : Nat) (f : Yelm → Yelm) : (s.modYelm k f).news = s.news := rfl
@[simp] theorem State.modYelm_oldRels (s : State) (k : Nat) (f : Yelm → Yelm) : (s.modYelm k f).oldRels = s.oldRels := rfl
@[simp] theorem State.modYelm_remote (s : State) (k : Nat) (f : Yelm → Yelm) : (s.modYelm k f).remote = s.remote := rfl
@[simp] theorem State.modYelm_bounced (s : State) (k : Nat) (f : Yelm → Yelm) : (s.modYelm k f).bounced = s.bounced := rfl
@[simp] theorem State.modYelm_asks (s : State) (k : Nat) (f : Yelm → Yelm) : (s.modYelm k f).asks = s.asks := rfl
@[simp] theorem State.modYelm_partials (s : State) (k : Nat) (f : Yelm → Yelm) : (s.modYelm k f).partials = s.partials := rfl
@[simp] theorem State.modYelm_ridgeDie (s : State) (k : Nat) (f : Yelm → Yelm) : (s.modYelm k f).ridgeDie = s.ridgeDie := rfl
@[simp] theorem State.modYelm_winAt (s : State) (k : Nat) (f : Yelm → Yelm) : (s.modYelm k f).winAt = s.winAt := rfl
@[simp] theorem State.modYelm_heavyAt (s : State) (k : Nat) (f : Yelm → Yelm) : (s.modYelm k f).heavyAt = s.heavyAt := rfl
@[simp] theorem State.modYelm_agedAt (s : State) (k : Nat) (f : Yelm → Yelm) : (s.modYelm k f).agedAt = s.agedAt := rfl
@[simp] theorem State.modYelm_cmd (s : State) (k : Nat) (f : Yelm → Yelm) : (s.modYelm k f).cmd = s.cmd := rfl
@[simp] theorem State.modYelm_cur (s : State) (k : Nat) (f : Yelm → Yelm) : (s.modYelm k f).cur = s.cur := rfl
@[simp] theorem State.modYelm_serial (s : State) (k : Nat) (f : Yelm → Yelm) : (s.modYelm k f).serial = s.serial := rfl
@[simp] theorem State.modYelm_inputs (s : State) (k : Nat) (f : Yelm → Yelm) : (s.modYelm k f).inputs = s.inputs := rfl

@[simp] theorem State.modPort_powered (s : State) (p : Nat) (f : Port → Port) : (s.modPort p f).powered = s.powered := rfl
@[simp] theorem State.modPort_pcc (s : State) (p : Nat) (f : Port → Port) : (s.modPort p f).pcc = s.pcc := rfl
@[simp] theorem State.modPort_cores (s : State) (p : Nat) (f : Port → Port) : (s.modPort p f).cores = s.cores := rfl
@[simp] theorem State.modPort_clusters (s : State) (p : Nat) (f : Port → Port) : (s.modPort p f).clusters = s.clusters := rfl
@[simp] theorem State.modPort_kmodes (s : State) (p : Nat) (f : Port → Port) : (s.modPort p f).kmodes = s.kmodes := rfl
@[simp] theorem State.modPort_dies (s : State) (p : Nat) (f : Port → Port) : (s.modPort p f).dies = s.dies := rfl
@[simp] theorem State.modPort_mem (s : State) (p : Nat) (f : Port → Port) : (s.modPort p f).mem = s.mem := rfl
@[simp] theorem State.modPort_tags (s : State) (p : Nat) (f : Port → Port) : (s.modPort p f).tags = s.tags := rfl
@[simp] theorem State.modPort_cmpLines (s : State) (p : Nat) (f : Port → Port) : (s.modPort p f).cmpLines = s.cmpLines := rfl
@[simp] theorem State.modPort_l2 (s : State) (p : Nat) (f : Port → Port) : (s.modPort p f).l2 = s.l2 := rfl
@[simp] theorem State.modPort_errs (s : State) (p : Nat) (f : Port → Port) : (s.modPort p f).errs = s.errs := rfl
@[simp] theorem State.modPort_errCount (s : State) (p : Nat) (f : Port → Port) : (s.modPort p f).errCount = s.errCount := rfl
@[simp] theorem State.modPort_reserve (s : State) (p : Nat) (f : Port → Port) : (s.modPort p f).reserve = s.reserve := rfl
@[simp] theorem State.modPort_parts (s : State) (p : Nat) (f : Port → Port) : (s.modPort p f).parts = s.parts := rfl
@[simp] theorem State.modPort_images (s : State) (p : Nat) (f : Port → Port) : (s.modPort p f).images = s.images := rfl
@[simp] theorem State.modPort_graphs (s : State) (p : Nat) (f : Port → Port) : (s.modPort p f).graphs = s.graphs := rfl
@[simp] theorem State.modPort_saved (s : State) (p : Nat) (f : Port → Port) : (s.modPort p f).saved = s.saved := rfl
@[simp] theorem State.modPort_plans (s : State) (p : Nat) (f : Port → Port) : (s.modPort p f).plans = s.plans := rfl
@[simp] theorem State.modPort_copies (s : State) (p : Nat) (f : Port → Port) : (s.modPort p f).copies = s.copies := rfl
@[simp] theorem State.modPort_unoon (s : State) (p : Nat) (f : Port → Port) : (s.modPort p f).unoon = s.unoon := rfl
@[simp] theorem State.modPort_reports (s : State) (p : Nat) (f : Port → Port) : (s.modPort p f).reports = s.reports := rfl
@[simp] theorem State.modPort_reportCount (s : State) (p : Nat) (f : Port → Port) : (s.modPort p f).reportCount = s.reportCount := rfl
@[simp] theorem State.modPort_outKeys (s : State) (p : Nat) (f : Port → Port) : (s.modPort p f).outKeys = s.outKeys := rfl
@[simp] theorem State.modPort_accNum (s : State) (p : Nat) (f : Port → Port) : (s.modPort p f).accNum = s.accNum := rfl
@[simp] theorem State.modPort_domain (s : State) (p : Nat) (f : Port → Port) : (s.modPort p f).domain = s.domain := rfl
@[simp] theorem State.modPort_routes (s : State) (p : Nat) (f : Port → Port) : (s.modPort p f).routes = s.routes := rfl
@[simp] theorem State.modPort_trees (s : State) (p : Nat) (f : Port → Port) : (s.modPort p f).trees = s.trees := rfl
@[simp] theorem State.modPort_streams (s : State) (p : Nat) (f : Port → Port) : (s.modPort p f).streams = s.streams := rfl
@[simp] theorem State.modPort_link (s : State) (p : Nat) (f : Port → Port) : (s.modPort p f).link = s.link := rfl
@[simp] theorem State.modPort_rounds (s : State) (p : Nat) (f : Port → Port) : (s.modPort p f).rounds = s.rounds := rfl
@[simp] theorem State.modPort_sends (s : State) (p : Nat) (f : Port → Port) : (s.modPort p f).sends = s.sends := rfl
@[simp] theorem State.modPort_sync (s : State) (p : Nat) (f : Port → Port) : (s.modPort p f).sync = s.sync := rfl
@[simp] theorem State.modPort_news (s : State) (p : Nat) (f : Port → Port) : (s.modPort p f).news = s.news := rfl
@[simp] theorem State.modPort_oldRels (s : State) (p : Nat) (f : Port → Port) : (s.modPort p f).oldRels = s.oldRels := rfl
@[simp] theorem State.modPort_remote (s : State) (p : Nat) (f : Port → Port) : (s.modPort p f).remote = s.remote := rfl
@[simp] theorem State.modPort_bounced (s : State) (p : Nat) (f : Port → Port) : (s.modPort p f).bounced = s.bounced := rfl
@[simp] theorem State.modPort_asks (s : State) (p : Nat) (f : Port → Port) : (s.modPort p f).asks = s.asks := rfl
@[simp] theorem State.modPort_partials (s : State) (p : Nat) (f : Port → Port) : (s.modPort p f).partials = s.partials := rfl
@[simp] theorem State.modPort_ridgeDie (s : State) (p : Nat) (f : Port → Port) : (s.modPort p f).ridgeDie = s.ridgeDie := rfl
@[simp] theorem State.modPort_winAt (s : State) (p : Nat) (f : Port → Port) : (s.modPort p f).winAt = s.winAt := rfl
@[simp] theorem State.modPort_heavyAt (s : State) (p : Nat) (f : Port → Port) : (s.modPort p f).heavyAt = s.heavyAt := rfl
@[simp] theorem State.modPort_agedAt (s : State) (p : Nat) (f : Port → Port) : (s.modPort p f).agedAt = s.agedAt := rfl
@[simp] theorem State.modPort_cmd (s : State) (p : Nat) (f : Port → Port) : (s.modPort p f).cmd = s.cmd := rfl
@[simp] theorem State.modPort_cur (s : State) (p : Nat) (f : Port → Port) : (s.modPort p f).cur = s.cur := rfl
@[simp] theorem State.modPort_serial (s : State) (p : Nat) (f : Port → Port) : (s.modPort p f).serial = s.serial := rfl
@[simp] theorem State.modPort_inputs (s : State) (p : Nat) (f : Port → Port) : (s.modPort p f).inputs = s.inputs := rfl

@[simp] theorem State.core_setCore_self (s : State) (i : Nat) (c : Core) (h : i < 256) : (s.setCore i c).core i = c :=
  vget_vset_self s.cores i c _ h

theorem State.core_setCore_ne (s : State) (i j : Nat) (c : Core) (h : i ≠ j) : (s.setCore i c).core j = s.core j :=
  vget_vset_ne s.cores i j c _ h

@[simp] theorem State.cluster_setCluster_self (s : State) (i : Nat) (c : Cluster) (h : i < 64) : (s.setCluster i c).cluster i = c :=
  vget_vset_self s.clusters i c _ h

theorem State.cluster_setCluster_ne (s : State) (i j : Nat) (c : Cluster) (h : i ≠ j) : (s.setCluster i c).cluster j = s.cluster j :=
  vget_vset_ne s.clusters i j c _ h

@[simp] theorem State.cluster_modCluster_self (s : State) (i : Nat) (f : Cluster → Cluster) (h : i < 64) : (s.modCluster i f).cluster i = f (s.cluster i) :=
  vget_vset_self s.clusters i _ _ h

theorem State.cluster_modCluster_ne (s : State) (i j : Nat) (f : Cluster → Cluster) (h : i ≠ j) : (s.modCluster i f).cluster j = s.cluster j :=
  vget_vset_ne s.clusters i j _ _ h

@[simp] theorem State.die_setDie_self (s : State) (i : Nat) (c : Die) (h : i < 4) : (s.setDie i c).die i = c :=
  vget_vset_self s.dies i c _ h

theorem State.die_setDie_ne (s : State) (i j : Nat) (c : Die) (h : i ≠ j) : (s.setDie i c).die j = s.die j :=
  vget_vset_ne s.dies i j c _ h

@[simp] theorem State.die_modDie_self (s : State) (i : Nat) (f : Die → Die) (h : i < 4) : (s.modDie i f).die i = f (s.die i) :=
  vget_vset_self s.dies i _ _ h

theorem State.die_modDie_ne (s : State) (i j : Nat) (f : Die → Die) (h : i ≠ j) : (s.modDie i f).die j = s.die j :=
  vget_vset_ne s.dies i j _ _ h

@[simp] theorem State.port_modPort_self (s : State) (p : Nat) (f : Port → Port) (h : p < 48) : (s.modPort p f).port p = f (s.port p) :=
  vget_vset_self s.ports p _ _ h

theorem State.port_modPort_ne (s : State) (p q : Nat) (f : Port → Port) (h : p ≠ q) : (s.modPort p f).port q = s.port q :=
  vget_vset_ne s.ports p q _ _ h

end Sys2Proof.Machine
end

