-- ==== Sys2Proof/Tests/Slice0.lean ====
section
/-! SUPPORT. Tests: slot words written out from the encoding tables, the checks of WellFormed, and for each statement a state and
operands that meet its hypotheses. -/

namespace Sys2Proof.Tests

-- one witness after the other: side by side they need more memory than a check allows
set_option Elab.async false

open Sys2Proof Sys2Proof.Machine

/-! ### Decoding: opcodes from R97 to R100, operand bits written out from the formats of R93 to R96, guard 10, path tag 2 -/

/-- The header of the words below. -/
def gh (slot : Slot) : Hdr := { slot := slot, guard := 10, tag := 2 }
/-- Words of 56 bits (slots S, V0, V1), 48 (M), 40 (C0, C1), 24 (X) and 16 (K), R86. -/
def w56 (op : BitVec 8) (x : BitVec 41) : BitVec 56 := 0b1010#4 ++ 0b010#3 ++ op ++ x
def w48 (op : BitVec 6) (x : BitVec 35) : BitVec 56 := (0b1010#4 ++ 0b010#3 ++ op ++ x : BitVec 48).setWidth 56
def w40 (op : BitVec 7) (x : BitVec 26) : BitVec 56 := (0b1010#4 ++ 0b010#3 ++ op ++ x : BitVec 40).setWidth 56
def w24 (op : BitVec 6) (x : BitVec 11) : BitVec 56 := (0b1010#4 ++ 0b010#3 ++ op ++ x : BitVec 24).setWidth 56
def w16 (op : BitVec 4) (x : BitVec 5) : BitVec 56 := (0b1010#4 ++ 0b010#3 ++ op ++ x : BitVec 16).setWidth 56
/-- In the slot, each opcode with these operand bits is the operation beside it, with these fields. -/
def reads {α : Type} {n m : Nat} (w : BitVec n → BitVec m → BitVec 56) (slot : Slot) (x : BitVec m) (o : α)
    (l : List (BitVec n × (Hdr → α → Instr))) : Bool := l.all fun e => decodeSlot slot (w e.1 x) == e.2 (gh slot) o

/-- SR: RD 40:35, RA 34:29, RB 28:23, MOD 22:18. -/
theorem decode_sr :
    reads w56 .S 0b000101_100110_010111_00000_000000000000000000 ({ rd := 5, ra := 38, rb := 23, mod := 0 } : SR)
      [(0x01, .add), (0x02, .sub), (0x03, .and), (0x04, .or), (0x05, .xor), (0x06, .sll), (0x07, .srl), (0x08, .sra), (0x09, .min),
       (0x0A, .max), (0x0B, .minu), (0x0C, .maxu), (0x0D, .shadd), (0x11, .bext), (0x12, .bins), (0x13, .mul), (0x14, .mulh),
       (0x15, .mulhu), (0x16, .div), (0x17, .divu), (0x18, .rem), (0x19, .remu)] ∧
    reads w56 .S 0b000101_100110_000000_00001_000000000000000000 ({ rd := 5, ra := 38, rb := 0, mod := 1 } : SR)
      [(0x0E, .clz), (0x0F, .ctz), (0x10, .popc)] := by
  decide +kernel

/-- SI: RD 40:35, RA 34:29, IMM 28:0. -/
theorem decode_si : reads w56 .S 0b000101_100110_00000000000000000000000101101 ({ rd := 5, ra := 38, imm := 45 } : SI)
    [(0x20, .addi), (0x21, .andi), (0x22, .ori), (0x23, .xori), (0x24, .slli), (0x25, .srli), (0x26, .srai)] := by
  decide +kernel

/-- SL, SS, SC, SCI, SP, SBL, SB, SW. -/
theorem decode_s_others :
    reads w56 .S 0b000101_100110_010111_1101_0000000000000000000 ({ rd := 5, ra := 38, rb := 23, pa := 13 } : SS) [(0x1A, .sel)] ∧
    reads w56 .S 0b000101_10000000000000000000000000000000001 ({ rd := 5, imm := 0x400000001 } : SL) [(0x27, .li), (0x28, .lih)] ∧
    reads w56 .S 0b0011_0100_100110_010111_101_000000000000000000 ({ pt := 3, pf := 4, ra := 38, rb := 23, cc := 5 } : SC) [(0x30, .cmp)] ∧
    reads w56 .S 0b0011_0100_100110_101_100000000000000000000001 ({ pt := 3, pf := 4, ra := 38, cc := 5, imm := 0x800001 } : SCI) [(0x31, .cmpi)] ∧
    reads w56 .S 0b0011_0100_0101_1110_000000_0000000000000000000 ({ pt := 3, pf := 4, pa := 5, pb := 14, ra := 0 } : SP)
      [(0x32, .pand), (0x33, .por), (0x34, .pxor), (0x35, .pandn)] ∧
    reads w56 .S 0b0011_0100_0000_0000_100110_0000000000000000000 ({ pt := 3, pf := 4, pa := 0, pb := 0, ra := 38 } : SP) [(0x36, .ptst)] ∧
    reads w56 .S 0b0111_00000_10000000000000000000000000000001 ({ bd := 7, pos := 0x80000001 } : SBL) [(0x38, .bli)] ∧
    reads w56 .S 0b0111_0000_100110_000000000000000000000000000 ({ bd := 7, ba := 0, ra := 38 } : SB) [(0x39, .bmov)] ∧
    reads w56 .S 0b0000_0111_100110_000000000000000000000000000 ({ bd := 0, ba := 7, ra := 38 } : SB) [(0x3A, .bget)] ∧
    reads w56 .S 0b000001_000010_000011_100000_00000000000000000 ({ l := 1, s := 2, c := 3, t := 32 } : SW) [(0x5B, .wait)] := by
  decide +kernel

/-- SX: RD 40:35, RA 34:29, RB 28:23, IMM 22:0. The words set the fields that the operation uses. -/
theorem decode_sx :
    reads w56 .S 0b000000_100110_000000_00000000000000000000000 ({ rd := 0, ra := 38, rb := 0, imm := 0 } : SX) [(0x43, .rotcfg)] ∧
    reads w56 .S 0b000000_100110_000000_00000000000000000000111 ({ rd := 0, ra := 38, rb := 0, imm := 7 } : SX)
      [(0x40, .loop), (0x48, .dbind), (0x58, .trap)] ∧
    reads w56 .S 0b000000_000000_000000_00000000000000000000111 ({ rd := 0, ra := 0, rb := 0, imm := 7 } : SX)
      [(0x41, .lbrk), (0x44, .swp), (0x49, .dfree), (0x5C, .bar)] ∧
    reads w56 .S 0b000101_000000_000000_00000000000000000000111 ({ rd := 5, ra := 0, rb := 0, imm := 7 } : SX)
      [(0x42, .lget), (0x4A, .dget), (0x4B, .tyget), (0x50, .csrr)] ∧
    reads w56 .S 0b000000_100110_010111_00000000000000000000111 ({ rd := 0, ra := 38, rb := 23, imm := 7 } : SX)
      [(0x45, .bsel), (0x4C, .tyset)] ∧
    reads w56 .S 0b000101_100110_000000_00000000000000000000111 ({ rd := 5, ra := 38, rb := 0, imm := 7 } : SX)
      [(0x51, .csrw), (0x52, .csrs), (0x53, .csrc)] ∧
    reads w56 .S 0b000000_000000_000000_00000000000000000000001 ({ rd := 0, ra := 0, rb := 0, imm := 1 } : SX) [(0x59, .tret)] ∧
    reads w56 .S 0b000000_000000_000000_00000000000000000000000 ({ rd := 0, ra := 0, rb := 0, imm := 0 } : SX) [(0x5A, .exit)] := by
  decide +kernel

/-- VR: VD 40:35, VA 34:29, VB 28:23, VC 22:17, MK 16:14, RM 13:12, ET 11:9, MOD 8:5. -/
theorem decode_vr :
    reads w56 .V0 0b000101_100110_010111_000000_011_10_001_0000_00000
      ({ vd := 5, va := 38, vb := 23, vc := 0, msk := 3, rm := 2, et := 1, mod := 0 } : VR)
      [(0x01, .vfadd), (0x02, .vfsub), (0x03, .vfmul), (0x0A, .vfdiv)] ∧
    reads w56 .V1 0b000101_100110_010111_101001_011_10_011_0000_00000
      ({ vd := 5, va := 38, vb := 23, vc := 41, msk := 3, rm := 2, et := 3, mod := 0 } : VR) [(0x04, .vffma), (0x05, .vffms)] ∧
    reads w56 .V0 0b000101_100110_010111_000000_011_00_010_0000_00000
      ({ vd := 5, va := 38, vb := 23, vc := 0, msk := 3, rm := 0, et := 2, mod := 0 } : VR) [(0x06, .vfmin), (0x07, .vfmax)] ∧
    reads w56 .V0 0b000101_100110_000000_000000_011_00_010_0000_00000
      ({ vd := 5, va := 38, vb := 0, vc := 0, msk := 3, rm := 0, et := 2, mod := 0 } : VR) [(0x08, .vfabs), (0x09, .vfneg)] ∧
    reads w56 .V1 0b000101_100110_000000_000000_011_11_001_0000_00000
      ({ vd := 5, va := 38, vb := 0, vc := 0, msk := 3, rm := 3, et := 1, mod := 0 } : VR)
      [(0x0B, .vfsqrt), (0x0C, .vfexp2), (0x0D, .vflog2), (0x0E, .vfrcp), (0x0F, .vfrsq)] ∧
    reads w56 .V0 0b000101_100110_010111_000000_011_00_101_0001_00000
      ({ vd := 5, va := 38, vb := 23, vc := 0, msk := 3, rm := 0, et := 5, mod := 1 } : VR) [(0x10, .vadd), (0x11, .vsub), (0x12, .vmul)] ∧
    reads w56 .V0 0b000101_100110_010111_000000_011_00_110_0010_00000
      ({ vd := 5, va := 38, vb := 23, vc := 0, msk := 3, rm := 0, et := 6, mod := 2 } : VR) [(0x13, .vmulh), (0x1B, .vmin), (0x1C, .vmax)] ∧
    reads w56 .V0 0b000101_100110_010111_000000_011_00_100_0000_00000
      ({ vd := 5, va := 38, vb := 23, vc := 0, msk := 3, rm := 0, et := 4, mod := 0 } : VR)
      [(0x14, .vand), (0x15, .vor), (0x16, .vxor), (0x17, .vandn), (0x18, .vsll), (0x19, .vsrl), (0x1A, .vsra), (0x1F, .vmerge)] ∧
    reads w56 .V0 0b000101_100110_000000_000000_011_00_100_0001_00000
      ({ vd := 5, va := 38, vb := 0, vc := 0, msk := 3, rm := 0, et := 4, mod := 1 } : VR) [(0x1D, .vabs)] ∧
    reads w56 .V1 0b000101_100110_000000_000000_011_01_000_1010_00000
      ({ vd := 5, va := 38, vb := 0, vc := 0, msk := 3, rm := 1, et := 0, mod := 10 } : VR) [(0x1E, .vcvt)] ∧
    reads w56 .V1 0b000101_100110_010111_101001_011_00_000_0000_00000
      ({ vd := 5, va := 38, vb := 23, vc := 41, msk := 3, rm := 0, et := 0, mod := 0 } : VR) [(0x22, .vperm), (0x23, .vslide)] ∧
    reads w56 .V1 0b000101_000000_000000_000000_011_00_100_0000_00000
      ({ vd := 5, va := 0, vb := 0, vc := 0, msk := 3, rm := 0, et := 4, mod := 0 } : VR) [(0x25, .vlane)] ∧
    reads w56 .V0 0b000101_100110_000000_000000_011_00_001_0010_00000
      ({ vd := 5, va := 38, vb := 0, vc := 0, msk := 3, rm := 0, et := 1, mod := 2 } : VR) [(0x28, .vfred), (0x2A, .vfscan)] ∧
    reads w56 .V0 0b000101_100110_000000_000000_011_00_100_1000_00000
      ({ vd := 5, va := 38, vb := 0, vc := 0, msk := 3, rm := 0, et := 4, mod := 8 } : VR) [(0x29, .vred), (0x2B, .vscan)] := by
  decide +kernel

/-- VS, VC, VM, VT. -/
theorem decode_v_others :
    reads w56 .V0 0b100_100110_010111_011_001_101_00000000000000000
      ({ md := 4, va := 38, vb := 23, msk := 3, et := 1, cc := 5 } : VC) [(0x20, .vfcmp)] ∧
    reads w56 .V0 0b100_100110_010111_011_100_101_00000000000000000
      ({ md := 4, va := 38, vb := 23, msk := 3, et := 4, cc := 5 } : VC) [(0x21, .vcmp)] ∧
    reads w56 .V0 0b000101_000000_010111_011_110_0000_0000000000000
      ({ vd := 5, va := 0, sa := 23, msk := 3, et := 6, mod := 0, imm := 0 } : VS) [(0x24, .vbcast)] ∧
    reads w56 .V0 0b000101_100110_000000_000_001_0000_0000000010001
      ({ vd := 5, va := 38, sa := 0, msk := 0, et := 1, mod := 0, imm := 17 } : VS) [(0x26, .vmovs)] ∧
    reads w56 .V0 0b000101_000000_010111_000_001_0001_0000000010001
      ({ vd := 5, va := 0, sa := 23, msk := 0, et := 1, mod := 1, imm := 17 } : VS) [(0x26, .vmovsIns)] ∧
    reads w56 .V0 0b100_011_110_000000_00000000000000000000000000 ({ md := 4, ma := 3, mb := 6, rd := 0 } : VM)
      [(0x2C, .mand), (0x2D, .mor), (0x2E, .mxor), (0x2F, .mandn)] ∧
    reads w56 .V0 0b000_011_000_100110_00000000000000000000000000 ({ md := 0, ma := 3, mb := 0, rd := 38 } : VM) [(0x30, .mpop)] ∧
    reads w56 .V1 0b000101_1011_010111_011_100000000001_0000000000 ({ vd := 5, tt := 11, sa := 23, msk := 3, imm := 0x801 } : VT)
      [(0x31, .vtrow), (0x32, .vtwr)] ∧
    reads w56 .V1 0b000101_000000_010111_011_000_0000_1000000000001
      ({ vd := 5, va := 0, sa := 23, msk := 3, et := 0, mod := 0, imm := 0x1001 } : VS) [(0x40, .vld), (0x41, .vst)] ∧
    reads w56 .V1 0b000101_100110_010111_011_001_0011_1000000000001
      ({ vd := 5, va := 38, sa := 23, msk := 3, et := 1, mod := 3, imm := 0x1001 } : VS) [(0x42, .vgat), (0x43, .vsca)] ∧
    reads w56 .V1 0b000101_100110_010111_011_100_1000_1000000000001
      ({ vd := 5, va := 38, sa := 23, msk := 3, et := 4, mod := 8, imm := 0x1001 } : VS) [(0x44, .vatom)] ∧
    reads w56 .V1 0b000101_000000_010111_000_000_0000_1000000000001
      ({ vd := 5, va := 0, sa := 23, msk := 0, et := 0, mod := 0, imm := 0x1001 } : VS) [(0x45, .fpush), (0x46, .fpop)] ∧
    reads w56 .V1 0b000101_000000_000000_000_000_0000_0000000000100
      ({ vd := 5, va := 0, sa := 0, msk := 0, et := 0, mod := 0, imm := 4 } : VS) [(0x47, .ypush)] := by
  decide +kernel

/-- MF: TD 34:31, AK 30, AOP 29:18, BK 17, BOP 16:5, MOD 4:0. XF: TD 10:7, TA 6:3, XE 2:0. KF: KS 4:0. -/
theorem decode_m_x_k :
    reads w48 .M 0b1011_1_100110010111_0_000000001101_00010
      ({ td := 11, ak := 1, aop := 0x997, bk := 0, bop := 13, mod := 2 } : MF) [(0x01, .tmma), (0x02, .tmmas), (0x03, .tmmac)] ∧
    reads w48 .M 0b1011_0_000000000000_0_000000000000_00000
      ({ td := 11, ak := 0, aop := 0, bk := 0, bop := 0, mod := 0 } : MF) [(0x04, .tzero)] ∧
    reads w24 .X 0b1011_1101_000 ({ td := 11, ta := 13, xe := 0 } : XF)
      [(0x01, .xpose), (0x05, .xexp), (0x08, .xadd), (0x09, .xmov), (0x0A, .xch)] ∧
    reads w24 .X 0b1011_1101_101 ({ td := 11, ta := 13, xe := 5 } : XF)
      [(0x02, .xcvt), (0x03, .xquant), (0x04, .xquantSat), (0x06, .xresh), (0x07, .xcast)] ∧
    reads w16 .K 0b10110 ({ ks := 22 } : KF) [(0x1, .kscl), (0x2, .kcode), (0x3, .kgrant), (0x4, .kpad), (0x5, .kmode)] := by
  decide +kernel

/-- CI: RD 25:20, RB 19:14, IMM 13:0. CA: RD, RB, RC 13:8, AOP 7:4, SIZE 3:2. CW: TT 25:22, WIN 21:14, RX 13:8, RY 7:2, MOD 1:0.
CF: PA 25:23, PB 22:20, SCOPE 19:17, OBJ 16:1. CR: RA 25:20, RB 19:14, RC 13:8, RD 7:2, MOD 1:0. -/
theorem decode_c :
    reads w40 .C0 0b000101_100110_10000000000001 ({ rd := 5, rb := 38, imm := 0x2001 } : CI)
      [(0x01, .ld), (0x02, .ldW), (0x03, .ldH), (0x04, .ldB), (0x05, .st), (0x06, .stW), (0x07, .stH), (0x08, .stB), (0x09, .vldm),
       (0x0A, .vstm), (0x14, .waitge)] ∧
    reads w40 .C1 0b1011_10000001_100110_010111_01 ({ tt := 11, win := 0x81, rx := 38, ry := 23, mod := 1 } : CW) [(0x0B, .tld)] ∧
    reads w40 .C1 0b1011_10000001_100110_010111_00 ({ tt := 11, win := 0x81, rx := 38, ry := 23, mod := 0 } : CW) [(0x0C, .tst)] ∧
    reads w40 .C1 0b000101_100110_010111_1000_01_00 ({ rd := 5, rb := 38, rc := 23, aop := 8, size := 1 } : CA) [(0x0D, .amo)] ∧
    reads w40 .C1 0b000101_100110_010111_0000_01_00 ({ rd := 5, rb := 38, rc := 23, aop := 0, size := 1 } : CA) [(0x0E, .cas)] ∧
    reads w40 .C0 0b000_000_101_1000000000000001_0 ({ pa := 0, pb := 0, scope := 5, obj := 0x8001 } : CF) [(0x10, .acq), (0x11, .rel)] ∧
    reads w40 .C0 0b110_011_000_0000000000000000_0 ({ pa := 6, pb := 3, scope := 0, obj := 0 } : CF) [(0x12, .xfence)] ∧
    reads w40 .C0 0b000_000_101_0000000000000000_0 ({ pa := 0, pb := 0, scope := 5, obj := 0 } : CF) [(0x13, .fence)] ∧
    reads w40 .C1 0b000101_100110_010111_101001_01 ({ ra := 5, rb := 38, rc := 23, rd := 41, mod := 1 } : CR)
      [(0x20, .copy), (0x21, .copy2d), (0x22, .copywSt), (0x23, .gath), (0x25, .cexp)] ∧
    reads w40 .C0 0b000101_100110_010111_101001_00 ({ ra := 5, rb := 38, rc := 23, rd := 41, mod := 0 } : CR)
      [(0x22, .copywLd), (0x24, .scat), (0x26, .cred), (0x27, .put), (0x28, .get), (0x29, .ssend)] ∧
    reads w40 .C0 0b000101_000000_000000_101001_00 ({ ra := 5, rb := 0, rc := 0, rd := 41, mod := 0 } : CR) [(0x2A, .cadd)] := by
  decide +kernel

/-- An all-zero slot is `nop`; opcode 0 with another bit set, a reserved opcode, path tag 7, a set reserved bit, opcode 0x40 in V0 and a
reserved CC are reserved encodings (R86, R101). -/
theorem decode_reserved :
    decodeSlot .S 0 = .nop .S ∧
    decodeSlot .S 1 = .reservedOpcode .S 1 ∧
    decodeSlot .S (w56 0x1B 0) = .reservedOpcode .S (w56 0x1B 0) ∧
    decodeSlot .V0 (w56 0x33 0) = .reservedOpcode .V0 (w56 0x33 0) ∧
    decodeSlot .V0 (w56 0x40 0) = .reservedOpcode .V0 (w56 0x40 0) ∧
    decodeSlot .M (w48 0x05 0) = .reservedOpcode .M (w48 0x05 0) ∧
    decodeSlot .X (w24 0x0B 0) = .reservedOpcode .X (w24 0x0B 0) ∧
    decodeSlot .K (w16 0x6 0) = .reservedOpcode .K (w16 0x6 0) ∧
    decodeSlot .C1 (w40 0x0F 0) = .reservedOpcode .C1 (w40 0x0F 0) ∧
    decodeSlot .S 0b0000_111_00000011_000101_000110_000111_00000_000000000000000000 =
      .reservedOpcode .S 0b0000_111_00000011_000101_000110_000111_00000_000000000000000000 ∧
    decodeSlot .S (w56 0x30 0b0011_0100_100110_010111_110_000000000000000000) =
      .reservedOpcode .S (w56 0x30 0b0011_0100_100110_010111_110_000000000000000000) := by
  decide +kernel

/-- A bundle by its bit places (R85): the S slot at 335:280, V0 at 279:224, V1 at 223:168, M at 167:120, C0 at 119:80, C1 at 79:40, X at
39:16, K at 15:0. -/
theorem decode_bundle :
    (decodeBundle ((w56 0x09 0b000101_100110_010111_00000_000000000000000000).setWidth 384 <<< 280 ||| (w16 0x5 0b10110).setWidth 384 |||
      (w24 0x09 0b1011_1101_000).setWidth 384 <<< 16)).ops =
      [.min (gh .S) { rd := 5, ra := 38, rb := 23, mod := 0 }, .nop .V0, .nop .V1, .nop .M, .nop .C0, .nop .C1,
       .xmov (gh .X) { td := 11, ta := 13, xe := 0 }, .kmode (gh .K) { ks := 22 }] := by
  decide +kernel

/-- Command blocks by OPC, and by SUB, A1 or item where the command has them (R365, R367 to R369). -/
theorem decode_commands :
    ([(0x01, 0, 0, .pcreate), (0x02, 0, 0, .pdestroy), (0x03, 0, 0, .ptroot), (0x04, 0, 0, .ptinv), (0x05, 0, 0, .fabcfgKeyEntry),
      (0x05, 1, 0, .fabcfgShareEntry), (0x05, 2, 0, .fabcfgPortMode), (0x05, 3, 0, .fabcfgOutboundKey), (0x05, 4, 0, .fabcfgDomainSize),
      (0x05, 4, 1, .fabcfgRoute), (0x05, 4, 2, .fabcfgOwnAccelerator), (0x05, 5, 0, .fabcfgReductionTree), (0x05, 6, 0, .fabcfgUalinkSource),
      (0x05, 7, 0, .fabcfgLiftFence), (0x05, 8, 0, .fabcfgLaneThreshold), (0x06, 0, 0, .memw), (0x07, 0, 0, .memr), (0x08, 0, 0, .imgload),
      (0x09, 0, 0, .imgfree), (0x0A, 0, 0, .gsubmit), (0x0B, 0, 0, .gabort), (0x0C, 0, 0, .ycfgAssignQueue), (0x0C, 0, 1, .ycfgLoadRouter),
      (0x0D, 0, 0, .govset), (0x0E, 0, 0, .queryPcc), (0x0E, 1, 0, .querySpares), (0x0E, 2, 0, .queryPartition), (0x0E, 3, 0, .queryPortTenant),
      (0x0E, 4, 0, .queryYelmQueue), (0x0E, 5, 0, .queryRepairReport), (0x0E, 6, 0, .queryTemperature), (0x0E, 7, 0, .queryErrorCounts),
      (0x0F, 0, 0, .reset), (0x00, 0, 0, .reservedCommand), (0x10, 0, 0, .reservedCommand), (0x05, 9, 0, .reservedCommand),
      (0x05, 4, 3, .reservedCommand), (0x0C, 0, 2, .reservedCommand), (0x0E, 8, 0, .reservedCommand)] :
      List (BitVec 8 × Word × Word × Instr)).all (fun e =>
        decodeCommand (commandOf 1 (0#320 ++ e.2.2.1 ++ e.2.1 ++ 0x00000007#32 ++ 0#24 ++ e.1) []) == e.2.2.2) = true := by
  decide +kernel

/-! ### Well-formedness: a term for each check that breaks it -/

/-- Operands of the ill-formed terms, to be changed in one field. -/
def oSR : SR := { rd := 5, ra := 6, rb := 7, mod := 0 }
def oSI : SI := { rd := 5, ra := 6, imm := 64 }
def oSP : SP := { pt := 1, pf := 2, pa := 0, pb := 0, ra := 0 }
def oSX : SX := { rd := 0, ra := 0, rb := 0, imm := 0 }
def oVR (et : BitVec 3) : VR := { vd := 5, va := 6, vb := 7, vc := 0, msk := 0, rm := 0, et := et, mod := 0 }
def oVS (et : BitVec 3) : VS := { vd := 5, va := 0, sa := 0, msk := 0, et := et, mod := 0, imm := 0 }
def oMF : MF := { td := 1, ak := 0, aop := 2, bk := 0, bop := 3, mod := 0 }
def oXF : XF := { td := 1, ta := 2, xe := 1 }
def oCF : CF := { pa := 0, pb := 0, scope := 0, obj := 0 }
def oCR : CR := { ra := 1, rb := 2, rc := 3, rd := 4, mod := 2 }
/-- A header in a slot. -/
def at_ (slot : Slot) : Hdr := { slot := slot, guard := 0, tag := 0 }

theorem wf_refuses_scalar : ([
    .add { at_ .S with tag := 7 } oSR, .add (at_ .V0) oSR, .sub (at_ .S) { oSR with mod := 4 }, .and (at_ .S) { oSR with mod := 1 },
    .sll (at_ .S) { oSR with mod := 2 }, .shadd (at_ .S) { oSR with mod := 8 }, .clz (at_ .S) oSR, .popc (at_ .S) { oSR with rb := 0, mod := 2 },
    .slli (at_ .S) oSI, .cmp (at_ .S) { pt := 1, pf := 2, ra := 3, rb := 4, cc := 6 }, .cmpi (at_ .S) { pt := 1, pf := 2, ra := 3, cc := 7, imm := 0 },
    .pand (at_ .S) { oSP with ra := 1 }, .ptst (at_ .S) { oSP with pa := 1 }, .ptst (at_ .S) { oSP with pb := 1 },
    .bmov (at_ .S) { bd := 1, ba := 1, ra := 1 }, .bget (at_ .S) { bd := 1, ba := 1, ra := 1 }, .loop (at_ .S) { oSX with rd := 1 },
    .loop (at_ .S) { oSX with rb := 1 }, .loop (at_ .S) { oSX with ra := 1, imm := 16384 }, .lbrk (at_ .S) { oSX with ra := 1 },
    .swp (at_ .S) { oSX with imm := 8 }, .bar (at_ .S) { oSX with rb := 1 }, .lget (at_ .S) { oSX with imm := 13 },
    .rotcfg (at_ .S) { oSX with imm := 1 }, .bsel (at_ .S) oSX, .bsel (at_ .S) { oSX with rb := 1, imm := 16384 },
    .dbind (at_ .S) { oSX with ra := 1, imm := 16 }, .dfree (at_ .S) { oSX with imm := 65536 }, .dget (at_ .S) { oSX with imm := 16 },
    .tyget (at_ .S) { oSX with imm := 32 }, .tyset (at_ .S) { oSX with imm := 16 }, .csrr (at_ .S) { oSX with imm := 4096 },
    .csrw (at_ .S) { oSX with rb := 1 }, .trap (at_ .S) { oSX with imm := 65536 }, .tret (at_ .S) { oSX with imm := 2 },
    .exit (at_ .S) { oSX with imm := 1 }].all fun i => !Instr.wf i) = true := by
  decide +kernel

theorem wf_refuses_vector : ([
    .vfadd (at_ .V0) (oVR 4), .vfadd (at_ .V0) { oVR 0 with vc := 1 }, .vffma (at_ .V0) { oVR 0 with mod := 1 }, .vfmin (at_ .V0) { oVR 0 with rm := 1 },
    .vfabs (at_ .V0) (oVR 0), .vfdiv (at_ .V0) (oVR 2), .vfsqrt (at_ .V0) (oVR 0), .vadd (at_ .V0) { oVR 4 with mod := 2 }, .vadd (at_ .V0) (oVR 0),
    .vmulh (at_ .V0) { oVR 4 with mod := 1 }, .vand (at_ .V0) { oVR 4 with mod := 1 }, .vabs (at_ .V0) (oVR 4),
    .vcvt (at_ .V0) { oVR 1 with vb := 0, mod := 2 }, .vcvt (at_ .V0) { oVR 0 with vb := 0, mod := 12 }, .vcvt (at_ .V0) { oVR 4 with vb := 0, rm := 1, mod := 5 },
    .vcvt (at_ .V0) { oVR 0 with vb := 0 }, .vmerge (at_ .V0) (oVR 7), .vlane (at_ .V0) (oVR 4), .vperm (at_ .V0) (oVR 4), .vslide (at_ .V0) (oVR 1),
    .vfred (at_ .V0) { oVR 0 with vb := 0, mod := 3 }, .vfred (at_ .V0) { oVR 0 with vb := 0, rm := 1, mod := 1 }, .vred (at_ .V0) { oVR 4 with vb := 0, mod := 9 },
    .vscan (at_ .V0) { oVR 5 with vb := 0 }, .vfcmp (at_ .V0) { md := 1, va := 2, vb := 3, msk := 0, et := 2, cc := 0 },
    .vfcmp (at_ .V0) { md := 1, va := 2, vb := 3, msk := 0, et := 0, cc := 7 }, .vcmp (at_ .V0) { md := 1, va := 2, vb := 3, msk := 0, et := 4, cc := 6 },
    .vbcast (at_ .V0) (oVS 7), .vbcast (at_ .V0) { oVS 0 with imm := 1 }, .vmovs (at_ .V0) { oVS 0 with imm := 64 }, .vmovs (at_ .V0) (oVS 2),
    .vmovsIns (at_ .V0) (oVS 0), .mand (at_ .V0) { md := 1, ma := 2, mb := 3, rd := 1 }, .mpop (at_ .V0) { md := 1, ma := 2, mb := 0, rd := 1 },
    .vld (at_ .V0) (oVS 0), .vst (at_ .V1) { oVS 0 with va := 1 }, .vgat (at_ .V1) (oVS 4), .vsca (at_ .V1) { oVS 0 with mod := 4 },
    .vatom (at_ .V1) { oVS 4 with mod := 9 }, .vatom (at_ .V1) (oVS 0), .fpush (at_ .V1) { oVS 0 with msk := 1 }, .ypush (at_ .V1) (oVS 0),
    .ypush (at_ .V1) { oVS 0 with imm := 5 }].all fun i => !Instr.wf i) = true := by
  decide +kernel

theorem wf_refuses_others : ([
    .tmma (at_ .M) { oMF with aop := 16 }, .tmma (at_ .M) { oMF with bop := 16 }, .tmmas (at_ .M) { oMF with mod := 4 }, .tzero (at_ .M) oMF,
    .xmov (at_ .X) oXF, .xcvt (at_ .K) oXF, .kscl (at_ .X) { ks := 0 }, .ld (at_ .M) { rd := 1, rb := 2, imm := 0 },
    .tld (at_ .C0) { tt := 1, win := 2, rx := 3, ry := 4, mod := 2 }, .tst (at_ .C0) { tt := 1, win := 2, rx := 3, ry := 4, mod := 1 },
    .amo (at_ .C0) { rd := 1, rb := 2, rc := 3, aop := 9, size := 0 }, .amo (at_ .C0) { rd := 1, rb := 2, rc := 3, aop := 0, size := 2 },
    .cas (at_ .C0) { rd := 1, rb := 2, rc := 3, aop := 1, size := 0 }, .acq (at_ .C0) { oCF with pa := 1 }, .rel (at_ .C0) { oCF with scope := 6 },
    .xfence (at_ .C0) { oCF with pa := 7 }, .xfence (at_ .C0) { oCF with obj := 1 }, .fence (at_ .C0) { oCF with obj := 1 },
    .copywLd (at_ .C0) { oCR with mod := 1 }, .copywSt (at_ .C0) oCR, .gath (at_ .C0) oCR, .scat (at_ .C0) oCR, .cadd (at_ .C0) { oCR with mod := 0 }].all
    fun i => !Instr.wf i) = true := by
  decide +kernel

/-! ### Small states -/

/-- Core 0 about to issue the code at position 0 of a stream, right after reset. -/
def lab : State := State.reset.withStream [0xFFFF]
/-- With the core changed. -/
def labC (f : Core → Core) : State := lab.modCore 0 f
/-- With its registers changed. -/
def labR (f : Regs → Regs) : State := labC fun c => { c with r := f c.r }
/-- With scalar registers set. -/
def labS (xs : List (Nat × Nat)) : State := labR fun r => { r with s := xs.foldl (fun v x => vset v x.1 (word x.2)) r.s }
/-- With its instance changed. -/
def labI (f : Inst → Inst) : State := labC fun c => { c with inst := some (f Inst.lone) }
/-- Without guard and tag. -/
def hd (slot : Slot) : Hdr := { slot := slot, guard := 0, tag := 0 }
/-- The hypotheses of a completion: the encodings are legal, the core comes to issue with nothing in its way, the slot has effect, the
operands satisfy `ok`, the landings fit. -/
def ready (s : State) (is : List Instr) (ok : Bool := true) (l : List Flight := []) : Bool :=
  s.clear && s.fits l && ok && is.all fun i => i.wf && match i.hdr? with | some h => s.on h | none => true
/-- The instruction answers a next state that satisfies `p`. -/
def answers (i : Instr) (s : State) (p : State → Bool) : Bool := match exec i s with | .next t => p t | _ => false
/-- The core's instance satisfies `p`. -/
def instIs (s : State) (i : Nat) (p : Inst → Bool) : Bool := match (s.core i).inst with | some x => p x | none => false
/-- Core 0 of the next state satisfies `p`. -/
def core0 (p : Core → Bool) (t : State) : Bool := p (t.core 0)
/-- A result in flight from core 0. -/
def flies (l : Land) (lat : Nat) : State → Bool := core0 fun c => c.flight.any fun f => f.land == l && f.due == lat

/-! ### A state and operands for each statement: the S slot -/

def sr : SR := { rd := 3, ra := 1, rb := 2, mod := 0 }
def sx0 : SX := { rd := 0, ra := 0, rb := 0, imm := 0 }

theorem witness_ScalarArithmetic :
    ready lab ([Instr.add, .sub, .and, .or, .xor, .sll, .srl, .sra, .min, .max, .minu, .maxu, .shadd].map (fun k => k (hd .S) sr) ++
      [Instr.clz, .ctz, .popc].map fun k => k (hd .S) { sr with rb := 0 }) (lab.sOk 1 && lab.sOk 2) (lab.putS 3 1 5) ∧
    -- the smallest count of `ctz`, and the count of 0
    (∀ j < 64, (lab.sv 1).getLsbD j = false) ∧ ((labS [(1, 1)]).sv 1).getLsbD 0 = true := by
  decide +kernel

theorem witness_ScalarFieldsImmediates :
    ready lab ([Instr.bext, .bins, .mul, .mulh, .mulhu, .div, .rem, .divu, .remu].map fun k => k (hd .S) sr)
      (lab.sOk 1 && lab.sOk 2 && lab.sOk 3) (lab.putS 3 12 5) ∧
    ready lab ([Instr.addi, .andi, .ori, .xori, .slli, .srli, .srai].map fun k => k (hd .S) { rd := 3, ra := 1, imm := 63 })
      (lab.sOk 1) (lab.putS 3 1 5) ∧
    -- a field that ends at bit 63, and the value of its bits
    (let pos := ((labS [(2, 0x4020)]).sv 2).toNat % 64; min (min (0x4020 / 256 % 128) 64) (64 - pos) = 32) ∧
    (∀ k < 64, (0 : Word).getLsbD k = if k < 0 then true else false) := by
  decide +kernel

theorem witness_SelectComparePredicate :
    ready lab [.li (hd .S) { rd := 3, imm := 1 }, .lih (hd .S) { rd := 3, imm := 1 }, .sel (hd .S) { rd := 3, ra := 1, rb := 2, pa := 1 },
      .bget (hd .S) { bd := 0, ba := 1, ra := 3 }] (lab.sOk 1 && lab.sOk 2 && lab.sOk 3) (lab.putS 3 1 1) ∧
    ready lab [.bli (hd .S) { bd := 1, pos := 9 }, .bmov (hd .S) { bd := 1, ba := 0, ra := 3 }] (lab.sOk 3) [lab.lands 1 (.b 1 9)] ∧
    ready lab [.cmp (hd .S) { pt := 1, pf := 2, ra := 3, rb := 4, cc := 5 }, .cmpi (hd .S) { pt := 1, pf := 2, ra := 3, cc := 0, imm := 7 },
      .ptst (hd .S) { pt := 1, pf := 2, pa := 0, pb := 0, ra := 3 }] (lab.sOk 3 && lab.sOk 4) (lab.putP 1 2 true ++ lab.putP 2 2 false) ∧
    ready lab ([Instr.pand, .por, .pxor, .pandn].map fun k => k (hd .S) { pt := 1, pf := 2, pa := 3, pb := 4, ra := 0 }) true
      (lab.putP 1 1 true ++ lab.putP 2 1 false) := by
  decide +kernel

/-- One loop entry around position 0. -/
def labLoop : State := labR fun r => { r with loops := [{ start := 0, stop := 40, count := 3 }] }

theorem witness_LoopsAndRotation :
    -- three passes that end above the fall-through 25; none; an end at the fall-through
    lab.fall = 25 ∧
    ready lab [.loop (hd .S) { sx0 with imm := 3 * 2 ^ 14 + 26 }, .loop (hd .S) { sx0 with imm := 0 }, .loop (hd .S) { sx0 with imm := 2 ^ 14 + 25 },
      .lbrk (hd .S) { sx0 with imm := 1 }, .lget (hd .S) { sx0 with rd := 3, imm := 12 }] (lab.me.r.loops.isEmpty && lab.sOk 0) (lab.putS 3 1 0) ∧
    ready labLoop [.lbrk (hd .S) { sx0 with imm := 1 }, .swp (hd .S) { sx0 with imm := 2 }] (labLoop.me.r.loops.length == 1) ∧
    ready lab [.rotcfg (hd .S) { sx0 with ra := 1 }] (lab.sv 1 == 0 && lab.sOk 1) ∧
    -- a base without a region
    ready (labS [(1, 1)]) [.rotcfg (hd .S) { sx0 with ra := 1 }] ((labS [(1, 1)]).sv 1 == 1) ∧
    ready lab [.swp (hd .S) sx0] lab.me.r.loops.isEmpty ∧ rotOk labLoop.me.r.rot = true := by
  decide +kernel

/-- Dimension 2 bound to 8, a bucket table of 4 and 8 in s5 and s6, a length of 6 in s1. -/
def labDim : State := (labS [(1, 6), (5, 4 + 7 * 2 ^ 32), (6, 8 + 9 * 2 ^ 32), (7, 9)]).modCore 0 fun c =>
  { c with r := { c.r with d := vset c.r.d 2 (some 8) } }

/-- The type word of a row of 16 FP32 elements (R46). -/
def tyRow : TypeWord := 0b1_00_00010_0000_00_0_0_0000000_000#26 ++ 0#38 ++ 1#16 ++ 1#16 ++ 1#16 ++ 16#16

theorem witness_DimensionsAndTypeWords :
    ready labDim ([1 * 16 + 1, 8 * 16 + 2, 0 * 16 + 1, 9 * 16 + 2].map fun n => .dbind (hd .S) { sx0 with imm := n }) (labDim.sOk 0) ∧
    vget labDim.me.r.d 1 none = none ∧ vget labDim.me.r.d 2 none = some 8 ∧
    ready labDim [.dfree (hd .S) { sx0 with imm := 0xFFFF }, .dget (hd .S) { sx0 with rd := 3, imm := 15 }] true (labDim.putS 3 1 0) ∧
    -- a length of 6 takes bucket 8 of a table of two, for a free variable and for one bound to 8; 9 exceeds the table, 0 is no length
    ready labDim ([(1, 0x12), (1, 0x22), (7, 0x12), (0, 0x12)].map fun x => .bsel (hd .S) { rd := 0, ra := x.1, rb := 5, imm := x.2 })
      (labDim.sOk 1 && labDim.sOk 5 && labDim.sOk 6) [labDim.lands 1 (.b 0 9), labDim.lands 1 (.pad 0 2)] ∧
    ((labDim.sv 5).toNat % 2 ^ 32, (labDim.sv 6).toNat % 2 ^ 32, (labDim.sv 1).toNat, (labDim.sv 7).toNat) = (4, 8, 6, 9) ∧
    ready lab [.tyget (hd .S) { sx0 with rd := 3, imm := 31 }, .tyset (hd .S) { sx0 with ra := 1, rb := 2, imm := 15 }]
      (lab.tOk 15 && lab.sOk 1 && lab.sOk 2) (lab.putS 3 1 0) ∧
    -- the empty word may be written; a valid word with format code 0 may not; a row of 16 FP32 elements may
    (!tyValid (0 : TypeWord)) = true ∧ (tyValid (1#1 ++ 0#127) && !tyBasic (1#1 ++ 0#127)) = true ∧ tyBasic tyRow = true := by
  decide +kernel

theorem witness_SystemRegisters :
    ready lab [.csrr (hd .S) { sx0 with rd := 3, imm := 0x020 }, .csrr (hd .S) { sx0 with rd := 3, imm := 0xFFF }] true (lab.putS 3 2 0) ∧
    ready lab ([Instr.csrw, .csrs, .csrc].flatMap fun k => [k (hd .S) { sx0 with rd := 3, ra := 1, imm := 0x035 }, k (hd .S) { sx0 with rd := 3, ra := 1, imm := 0x022 }])
      (lab.sOk 1) (lab.lands 1 (.pad 3 0) :: lab.putS 3 2 0) ∧
    -- the ends of the supervisor numbers
    ready lab ([0x800, 0x801, 0x810, 0x81F].flatMap fun n => [Instr.csrr, .csrw, .csrs, .csrc].map fun k => k (hd .S) { sx0 with imm := n })
      (lab.sOk 0) := by
  decide +kernel

/-- In a trap handler that returns to position 0. -/
def labHnd : State := labC fun c => { c with x := { c.x with hnd := true, trappc := 0 } }
/-- Core 0 and core 4 run the two instances of a pair; the partner is held at its `bar`, or runs. -/
def labMates (held : Bool) : State :=
  let lh : Header := { (default : Header) with nf := 1, counts := [2], levels := [0, 2] }
  let s := labC fun c => { c with inst := some { Inst.lone with lh := lh } }
  s.modCore 4 fun c => { c with phase := .run, inst := some { Inst.lone with uid := 2, idx := 1, lh := lh }, wake := 9,
                                hold := if held then some (.bar 1, 0) else none }
/-- One load is outstanding. -/
def labCnt : State := labC fun c => { c with cnt := { c.cnt with l := 1 } }

theorem witness_TrapReturnExitWaitBar :
    ready lab [.trap (hd .S) { sx0 with imm := 0xFFFF }, .tret (hd .S) sx0, .exit (hd .S) sx0]
      (lab.sOk 0 && !lab.me.x.hnd && lab.me.cnt == default && lab.errs.isEmpty) ∧
    -- a launch with a trap vector; a load outstanding at `exit`
    (let s := labI fun x => { x with lh := { x.lh with tven := true, tvec := 7 } }
     ready s [.trap (hd .S) sx0] (s.sOk 0 && !s.me.x.hnd && (match s.me.inst with | some x => x.lh.tven | none => false))) ∧
    ready labCnt [.exit (hd .S) sx0] (labCnt.me.cnt.l != 0 && labCnt.errs.isEmpty) ∧
    ready labHnd [.tret (hd .S) sx0, .tret (hd .S) { sx0 with imm := 1 }] labHnd.me.x.hnd ∧
    ready lab [.wait (hd .S) { l := 0, s := 0, c := 0, t := 0 }] (lab.me.cnt == default) ∧
    [labCnt, labCnt.modCore 0 fun c => { c with preempt := some 0 }].all (fun s =>
      ready s [.wait (hd .S) { l := 0, s := 63, c := 63, t := 63 }] (s.me.cnt.l == 1)) ∧
    -- the default header gangs no level
    ready lab [.bar (hd .S) { sx0 with imm := 7 }] ((default : Header).ganged 7 == false) ∧
    -- level 1 ganged, one instance
    (let s := labI fun x => { x with lh := { x.lh with nf := 1, counts := [1], levels := [0, 1] } }
     ready s [.bar (hd .S) { sx0 with imm := 1 }] ((match s.me.inst with | some x => x.lh.ganged 1 | none => false) && barDone s.atIssue 0 1 1)) ∧
    -- a pair: the partner waits at its bar, or has not come to it
    ready (labMates true) [.bar (hd .S) { sx0 with imm := 1 }] (barDone (labMates true).atIssue 0 1 1) ∧
    ready (labMates false) [.bar (hd .S) { sx0 with imm := 1 }] (!barDone (labMates false).atIssue 0 1 1) := by
  decide +kernel

/-! ### The V slots -/

def vr (et : BitVec 3) : VR := { vd := 5, va := 6, vb := 7, vc := 0, msk := 0, rm := 0, et := et, mod := 0 }
/-- Landings of an FP32 vector result of zeros. -/
def putV0 (lat : Nat) : List Flight := lab.putV 5 lat 0 (BitVec.allOnes 2048)

theorem witness_VectorFloat :
    ready lab ([Instr.vfadd, .vfsub, .vfmul, .vfmin, .vfmax, .vffma, .vffms, .vfdiv].map (fun k => k (hd .V0) (vr 0)) ++
      [Instr.vfabs, .vfneg, .vfsqrt, .vfexp2, .vflog2, .vfrcp, .vfrsq].map fun k => k (hd .V1) { vr 1 with vb := 0 })
      (lab.vOk 6 && lab.vOk 7 && lab.vOk 0) (putV0 12) := by
  decide +kernel

theorem witness_VectorInteger :
    ready lab ([Instr.vadd, .vsub, .vmul].map (fun k => k (hd .V0) { vr 4 with mod := 1 }) ++
      [Instr.vmulh, .vmin, .vmax].map (fun k => k (hd .V0) { vr 5 with mod := 2 }) ++
      [Instr.vand, .vor, .vxor, .vandn, .vsll, .vsrl, .vsra].map (fun k => k (hd .V1) (vr 6)) ++ [.vabs (hd .V0) { vr 4 with vb := 0 }])
      (lab.vOk 6 && lab.vOk 7) (putV0 2) := by
  decide +kernel

theorem witness_ConvertCompareMask :
    -- a conversion that widens, from the upper half, and one that narrows
    ready lab [.vcvt (hd .V0) { vr 1 with vb := 0, mod := 8 }, .vcvt (hd .V0) { vr 2 with vb := 0, mod := 8 }] (lab.vOk 6) (putV0 4) ∧
    ready lab [.vfcmp (hd .V0) { md := 1, va := 6, vb := 7, msk := 0, et := 0, cc := 6 }, .vcmp (hd .V0) { md := 1, va := 6, vb := 7, msk := 0, et := 4, cc := 5 }]
      (lab.vOk 6 && lab.vOk 7) (lab.putM 1 2 0) ∧
    -- every element of two zero vectors is equal, and no flag is raised
    ((List.range 64).all fun l => active (lab.mv 0) 32 (32 * l / 32) && (fCompare (ffmtEt 0) 0 (elem 32 (lab.vv 6) l) (elem 32 (lab.vv 7) l)) == (true, 0)) ∧
    ready lab ([Instr.mand, .mor, .mxor, .mandn].map fun k => k (hd .V1) { md := 1, ma := 2, mb := 3, rd := 0 }) true (lab.putM 1 2 0) ∧
    ready lab [.mpop (hd .V0) { md := 0, ma := 0, mb := 0, rd := 3 }] true (lab.putS 3 2 64) := by
  decide +kernel

def vs (et : BitVec 3) : VS := { vd := 5, va := 0, sa := 0, msk := 0, et := et, mod := 0, imm := 0 }

theorem witness_VectorMoves :
    ready lab [.vmerge (hd .V0) (vr 6), .vlane (hd .V0) { vr 4 with va := 0, vb := 0 }, .vperm (hd .V0) (vr 1), .vslide (hd .V0) (vr 0),
      .vbcast (hd .V0) (vs 5)] (lab.vOk 6 && lab.vOk 7 && lab.vOk 0 && lab.sOk 0) (putV0 3) ∧
    -- the last of 64 elements, and one past the last of 32
    ready lab [.vmovs (hd .V0) { vs 0 with imm := 63 }, .vmovsIns (hd .V0) { vs 0 with mod := 1, imm := 63 }] (nElem 32 == 64) (putV0 3) ∧
    ready lab [.vmovs (hd .V0) { vs 1 with imm := 32 }, .vmovsIns (hd .V0) { vs 1 with mod := 1, imm := 32 }] (nElem 64 == 32) (lab.putS 5 3 0) ∧
    ready lab [.vtrow (hd .V0) { vd := 5, tt := 15, sa := 0, msk := 0, imm := 31 }, .vtwr (hd .V0) { vd := 5, tt := 15, sa := 0, msk := 0, imm := 31 }]
      (lab.tOk 15 && lab.vOk 5) (lab.lands 3 (.trow 15 31 0 0) :: putV0 3) := by
  decide +kernel

theorem witness_ReductionsAndScans :
    ready lab [.vfred (hd .V0) { vr 0 with vb := 0, mod := 2 }, .vred (hd .V0) { vr 4 with vb := 0, mod := 8 }, .vfscan (hd .V0) { vr 1 with vb := 0 },
      .vscan (hd .V0) { vr 4 with vb := 0, mod := 7 }] (lab.vOk 6) (putV0 6) := by
  decide +kernel

/-- Bank 0 a scratchpad of core 0. -/
def labSpad : State := lab.modBank 0 0 fun b => { b with mode := .spad, ownUid := 1 }
/-- Bank 1 a FIFO from core 0 to itself with n entries. -/
def labFifo (n : Nat) : State := (labS [(1, 65536)]).modBank 0 1 fun b =>
  { b with mode := .fifo, prodUid := 1, consUid := 1, pcount := n, ccount := n, entries := if n = 0 then [] else [5] }

theorem witness_ScratchpadAccess :
    ready labSpad [.vld (hd .V1) (vs 0), .vst (hd .V1) (vs 0), .vgat (hd .V1) { vs 1 with mod := 3 }, .vsca (hd .V1) (vs 0)]
      (labSpad.sOk 0 && labSpad.vOk 0 && labSpad.vOk 5 && labSpad.spadOk 4 ((List.range 64).map fun j => (j, 4 * j))) (putV0 6) ∧
    -- the last word is inside the scratchpads, the next address is not
    ready (labS [(1, 2 ^ 22 - 4)]) [.vld (hd .V1) { vs 0 with sa := 1 }, .vst (hd .V1) { vs 0 with sa := 1 }] ((labS [(1, 2 ^ 22 - 4)]).sv 1 == 0x3FFFFC) ∧
    -- an address beyond them, one that is no multiple of the element's size, and a bank that is no scratchpad
    [(2 ^ 22 : Nat), 2, 0].all (fun a => ready (labS [(1, a)]) [.vld (hd .V1) { vs 0 with sa := 1 }, .vst (hd .V1) { vs 0 with sa := 1 },
      .vgat (hd .V1) { vs 1 with sa := 1, mod := 3 }, .vsca (hd .V1) { vs 0 with sa := 1 }]
      ((labS [(1, a)]).sOk 1 && (labS [(1, a)]).vOk 0 && (labS [(1, a)]).vOk 5 && (labS [(1, a)]).sv 1 == word a &&
        (((labS [(1, a)]).atIssue.cluster 0).bank 0).mode == .cache && ((List.range 64).filter fun j => bit (lab.mv 0) j).length == 64)) := by
  decide +kernel

theorem witness_AtomicsFifosYpush :
    ready labSpad [.vatom (hd .V1) { vs 4 with va := 6, mod := 8 }, .vatom (hd .V1) { vs 0 with mod := 9 }]
      (labSpad.sOk 0 && labSpad.vOk 0 && labSpad.spadOk 4 ((List.range 64).map fun j => (j, 0))) (putV0 6) ∧
    [0, 255, 256].all (fun n => ready (labFifo n) [.fpush (hd .V1) { vs 0 with sa := 1 }, .fpop (hd .V1) { vs 0 with sa := 1 }]
      (let b := (((labFifo n).atIssue.cluster 0).bank 1); b.mode == .fifo && b.ready && b.pcount == n && b.ccount == n) (putV0 6)) ∧
    ready lab [.ypush (hd .V1) { vs 0 with imm := 4 }] (decide (4 ≤ (lab.atIssue.die 0).yelm.freeSeen)) ∧
    -- a full queue of Yelm
    (let s := lab.modYelm 0 fun y => { y with frees := List.replicate 4096 99 }
     ready s [.ypush (hd .V1) { vs 0 with imm := 1 }] (decide ((s.atIssue.die 0).yelm.freeSeen < 1))) := by
  decide +kernel

/-! ### The M, X and K slots -/

/-- A valid type word of two extents and nothing else (R45). -/
def ty2 (fmt a b : Nat) : TypeWord :=
  0b1_01#3 ++ BitVec.ofNat 5 fmt ++ 0#56 ++ (1#16 ++ 1#16 ++ BitVec.ofNat 16 b ++ BitVec.ofNat 16 a : BitVec 64)
/-- Tile 0 is INT8 2 × 4, tile 1 INT8 4 × 2, tile 2 INT32 2 × 2, tile 3 FP32 2 × 32, tile 4 FP32 2 × 32; s24 a parameter. -/
def labTile (p : Nat) : State := (labS [(24, p)]).modCore 0 fun c =>
  { c with r := { c.r with ty := vset (vset (vset (vset (vset c.r.ty 0 (ty2 10 2 4)) 1 (ty2 10 4 2)) 2 (ty2 8 2 2)) 3 (ty2 2 2 32)) 4 (ty2 2 2 32) } }
/-- With a grant of class 1. -/
def labGrant : State := (labTile 0).modCore 0 fun c => { c with grant := { cls := some 1, gend := 99, pend := none } }
/-- The typing rule has a result on the core's variables. -/
def typed {α : Type} (s : State) (m : TyM α) : Bool := match m.run s.me.r.d with | .ok _ => true | .error _ => false
/-- `tmma` of tile a and tile b into tile d. -/
def mf (a d b : Nat) : MF := { td := BitVec.ofNat 4 d, ak := 0, aop := BitVec.ofNat 12 a, bk := 0, bop := BitVec.ofNat 12 b, mod := 0 }

theorem witness_MatrixMultiply :
    -- a product that types, granted and not granted, its accumulator kept or from zero, clamped; one that does not type
    [labTile 0, labGrant].all (fun s => ready s [.tmma (hd .M) (mf 0 2 1), .tmma (hd .M) { mf 0 2 1 with mod := 3 }, .tzero (hd .M) (mf 0 2 0)]
      (s.mReady 0 0 && s.mReady 0 1 && s.tOk 2 && (s.mOpnd 0 0).legal && (s.mOpnd 0 1).legal && s.me.e.occ == 0 && int32Row (s.tyv 0) (s.tyv 1) &&
        s.me.preempt.isNone && typed s (mTyping .dense false 2 (s.mOpnd 0 0) (s.mOpnd 0 1) (s.tyv 2)) &&
        !typed s (mTyping .dense false 2 (s.mOpnd 0 0) (s.mOpnd 0 0) (s.tyv 2)))
      [s.lands 1 (.tzero 2)]) ∧
    labGrant.me.grant.valid 1 0 = true ∧ (labTile 0).me.grant.valid 1 0 = false ∧
    -- a scratchpad operand of tile 1: row pitch 4, base 0
    ((labTile 0).mOpnd 1 0).legal = true ∧
    -- the corner of a 2 × 2 product along 4 with no padding
    (let g : Geo := { ext := [2, 2], rank := 1, outer := 1, r1 := 2, r0 := 2, fmt := 8, layout := 0, sgeo := 0, sidx := false, esc := false, ocnt := 0, dens := 0, seed := 0 }
     1 < g.r1 ∧ 1 < g.r0 ∧ 32 * (g.r1 * g.r0) ≤ 65536 ∧ ¬ (g.r1 - 0 ≤ 1)) := by
  decide +kernel

def xf (d a : Nat) : XF := { td := BitVec.ofNat 4 d, ta := BitVec.ofNat 4 a, xe := 0 }

theorem witness_TileTransforms :
    (let s := labTile 0
     ready s [.xpose (hd .X) (xf 3 3), .xpose (hd .X) (xf 5 3), .xexp (hd .X) (xf 5 3), .xmov (hd .X) (xf 5 3)] (s.tOk 3) [s.lands 6 (.t 5 0 0)] &&
     typed s (do let g ← xSource 3 (s.tyv 3); needCond (decide (1 ≤ tyRank (s.tyv 3))) (tileOpnd 0 3) 4 1; let gn ← checkResult 5 (swapExts (s.tyv 3)); pure (g, gn)) &&
     typed s (do let g ← xSource 3 (s.tyv 3); let gn ← checkDerived (tileOpnd 3 5) (putBits (s.tyv 3) 86 19 0); pure (g, gn))) ∧
    -- a cast to INT32, and a reshape to 4 × 16
    (let s := labTile 8
     ready s [.xcast (hd .X) (xf 3 3)] (s.tOk 3 && s.xpOk (xf 3 3) && s.xp (xf 3 3) == 8) [s.lands 0 (.ty 3 0)] && typed s (xcastTyping 3 8 (s.tyv 3))) ∧
    (let s := labTile (4 + 16 * 2 ^ 16 + 2 ^ 32 + 2 ^ 48)
     ready s [.xresh (hd .X) (xf 3 3)] (s.tOk 3 && s.xpOk (xf 3 3) && typed s (xreshTyping 3 (s.xp (xf 3 3)) (s.tyv 3))) [s.lands 0 (.ty 3 0)]) ∧
    -- a row of two INT8 codes
    (let g : Geo := { ext := [2], rank := 0, outer := 1, r1 := 1, r0 := 2, fmt := 10, layout := 0, sgeo := 0, sidx := false, esc := false, ocnt := 0, dens := 0, seed := 0 }
     (∀ c ∈ [255, 0], c < 2 ^ fmtBits g.fmt) ∧ [255, 0].length = g.count ∧ g.count * fmtBits g.fmt ≤ 65536 ∧ g.fmt ≠ 12 ∧ 0 < g.r0) := by
  decide +kernel

theorem witness_TileArithmetic :
    -- to BF16, rounding to nearest
    (let s := labTile 4
     ready s [.xcvt (hd .X) (xf 5 3)] (s.tOk 3 && s.xpOk (xf 5 3) && xcvtOk (s.xp (xf 5 3)) && typed s (xcvtTyping 3 5 4 (s.tyv 3))) [s.lands 6 (.t 5 0 0)]) ∧
    -- to INT8 in blocks, with the largest element of each block kept aside
    (let p := 10 + 32 + 2 * 2 ^ 10 + 2 ^ 32
     let s := labTile p
     ready s [.xquant (hd .X) (xf 5 3), .xquantSat (hd .X) (xf 5 3)] (s.tOk 3 && s.xpOk (xf 5 3) && xquantOk (s.xp (xf 5 3)) && typed s (xquantTyping 3 5 (word p) (s.tyv 3)))
      [s.lands 10 (.t 5 0 0)]) ∧
    (let s := labTile 0
     ready s [.xadd (hd .X) (xf 4 3)] (s.tOk 3 && s.tOk 4 && typed s (xaddTyping 3 4 (s.tyv 3) (s.tyv 4))) [s.lands 6 (.t 4 0 0)]) := by
  decide +kernel

/-- Cores 0 and 4 run the two instances of a pair; `f` changes the partner. -/
def labPair (f : Core → Core) : State :=
  let lh : Header := { (default : Header) with nf := 1, counts := [2], levels := [0, 2] }
  let s := (labTile 0).modCore 0 fun c => { c with inst := some { Inst.lone with lh := lh } }
  s.modCore 4 fun c => f { c with phase := .run, inst := some { Inst.lone with uid := 2, idx := 1, lh := lh }, wake := 9 }
/-- The partner's half, of this type, is on the link. -/
def labHalf (ty : TypeWord) : State :=
  { labPair id with link := [{ graph := Inst.lone.graph, node := Inst.lone.node, idx := 1, num := 0, data := 7, ty := ty, taken := false }] }
/-- The partner has left. -/
def labGone : State := labPair fun c => { c with inst := none }

theorem witness_PairExchange :
    -- the half is there and agrees, or not; the partner runs and has not supplied it, and a save is asked for, or not; it is gone; it is broken
    [labHalf (ty2 2 2 32), labHalf (ty2 10 2 32), labPair id, (labPair id).modCore 0 fun c => { c with preempt := some 0 }, labGone,
      labPair fun c => { c with broke := some 0 }].all (fun s =>
      ready s [.xch (hd .X) (xf 5 3)] (s.tOk 3 && instIs s 0 (fun x => x.lh.pairLevel.isSome) &&
        (match constExts s.me.r.d (s.tyv 3) with | .ok w => w == ty2 2 2 32 | .error _ => false))
        [{ s.lands 40 (.t 5 0 0) with xch := true }]) ∧
    (let agrees := fun t : TypeWord => match pairTypes lab.me.r.d 3 5 (ty2 2 2 32) t with | .ok _ => true | .error _ => false
     agrees (ty2 2 2 32) = true ∧ agrees (ty2 10 2 32) = false) ∧
    (labHalf 0).partnerLost 0 0 = false ∧ (labPair id).partnerLost 0 0 = false ∧ labGone.partnerLost 0 0 = true ∧
    (labPair fun c => { c with broke := some 0 }).partnerLost 0 0 = true ∧
    -- outside a paired launch; a type with a variable that is not bound
    ready lab [.xch (hd .X) (xf 5 3)] (lab.tOk 3 && instIs lab 0 (fun x => x.lh.pairLevel.isNone)) ∧
    (match constExts lab.me.r.d (ty2 2 2 0x8001) with | .ok _ => false | .error _ => true) = true := by
  decide +kernel

theorem witness_EngineStateBankModes :
    -- scale 15 to 1.0, a scale of 0, SBB to 1.0; a codebook row; a grant of 2^24; padding registers; bank 5 to scratchpad
    [[(17, 0x3F800000 * 2 ^ 16 + 15 * 1), (18, 0)], [(17, 15)], [(17, 0x3F80000000000020)], [(17, 4)], [(16, 1), (17, 252 + 2 ^ 8)],
      [(17, 24 * 16)], [(17, 25 * 16)], [(17, 0x124)], [(17, 0x200)], [(17, 5 + 64)]].all (fun l =>
        ready (labS l) [.kscl (hd .K) { ks := 17 }, .kcode (hd .K) { ks := 16 }, .kgrant (hd .K) { ks := 17 }, .kpad (hd .K) { ks := 17 }, .kmode (hd .K) { ks := 17 }]
          ((labS l).sOk 16 && (labS l).sOk 17)) ∧
    -- a request alone in its cycle, of an instance that runs
    (let s := { lab with kmodes := [{ cluster := 0, bank := 5, mode := .spad, core := 0, uid := lab.me.uid, peer := 0, peerUid := 0, cons := false }] }
     s.departed lab.me.uid = false ∧ ((s.cluster 0).bank 5).mode ≠ BankMode.spad) ∧
    kmodeOk (labS [(17, 5 + 64)]).atIssue 0 (word (5 + 64)) = true ∧ kmodeOk lab.atIssue 0 (word (3 * 64)) = false ∧
    (fld (word (0x3F80 * 2 ^ 32 + 15)) 46 39 = 127) ∧
    -- bank 63 of cluster 63 is changing
    (let s := lab.modBank 63 63 fun b => { b with ready := false }
     s.powered = true ∧ ((s.cluster 63).bank 63).ready = false) ∧
    ((lab.cluster 0).bank 5).mode ≠ modeOf 1 ∧ ((lab.cluster 0).bank 5).mode = modeOf 0 := by
  decide +kernel

/-! ### The C slots -/

/-- 2 MiB of home memory from 0x400000 at VA 0x200000; a page of accelerator 3 at VA 0x400000; a read-only page at VA 0x600000. -/
def tlb0 : List Trans :=
  [{ va := 0x200000, size := 0x200000, acc := none, pa := 0x400000, write := true, entry := 0, level := 1 },
   { va := 0x400000, size := 4096, acc := some 3, pa := 0x1000, write := true, entry := 0, level := 0 },
   { va := 0x600000, size := 4096, acc := none, pa := 0x800000, write := false, entry := 0, level := 0 }]
/-- With these translations, `f` applied to the core, s1 = 0x200000, s2 = 0x400000, s3 = 0x600000, s4 = 0x900000. -/
def labMem (f : Core → Core) : State :=
  ((labS [(1, 0x200000), (2, 0x400000), (3, 0x600000), (4, 0x900000)]).modCluster 0 fun k => { k with tlb := tlb0 }).modCore 0 f
/-- Every page is translated. -/
def found (s : State) (a : Access) (va n : Nat) : Bool := let r := spanOf (s.atIssue.page s.cur a) [(va, n)]; r.2 == ([], none)

def ci (rb imm : Nat) : CI := { rd := 5, rb := BitVec.ofNat 6 rb, imm := BitVec.ofNat 14 imm }
def ca (op : Nat) : CA := { rd := 5, rb := 1, rc := 3, aop := BitVec.ofNat 4 op, size := 1 }

theorem witness_LoadsStoresAtomics :
    (let s := labMem id
     ready s ([Instr.ld, .ldW, .ldH, .ldB, .st, .stW, .stH, .stB, .vldm, .vstm].flatMap (fun k => [k (hd .C0) (ci 1 0), k (hd .C1) (ci 1 1), k (hd .C0) (ci 3 0), k (hd .C0) (ci 4 0)]) ++
         [.amo (hd .C0) (ca 8), .cas (hd .C0) (ca 0), .amo (hd .C0) { ca 0 with rb := 7 }, .cas (hd .C0) { ca 0 with rb := 7 }])
       (s.sOk 1 && s.sOk 3 && s.sOk 5 && s.vOk 5 && decide (s.me.cnt.l < 63) && decide (s.me.cnt.s < 63) && s.pendable (0, 5) && s.pendable (1, 5)) &&
     -- within a page, across two pages, and for an atomic
     found s .read 0x200000 8 && found s .read 0x200FFC 256 && found s .write 0x200000 256 && found s .atomic 0x200000 8 &&
     -- a read-only page faults a store, an unknown page misses
     (spanOf (s.atIssue.page 0 .write) [(0x600000, 8)]).2.2.isSome && (spanOf (s.atIssue.page 0 .read) [(0x900000, 8)]).2.1 == [0x900]) ∧
    -- misaligned
    0x200001 % 4 ≠ 0 ∧ (labS [(7, 4)]).sv 7 = 4 ∧
    ready (labS [(7, 4)]) [.amo (hd .C0) { ca 0 with rb := 7 }, .cas (hd .C0) { ca 0 with rb := 7 }] (4 % 8 != 0) ∧
    -- L at 62 and at 63, S likewise; an access to a home that is not remote
    [62, 63].all (fun n => (labMem fun c => { c with cnt := { c.cnt with l := n, s := n } }).counts.l == n) ∧
    ((spanOf ((labMem id).atIssue.page 0 .read) [(0x200000, 8)]).1.keys.all fun k => !isRemote k) = true ∧ (LoadKind.scalar (some 5)).atomic = false := by
  decide +kernel

/-- The descriptor of a window of rank 2 at VA 0x200000 (R58): 40 × 32 FP32 elements, row stride 128, box 2 × 32. -/
def win0 : WindowWord := BitVec.ofNat 512
  (0x200000 + 1 * 2 ^ 56 + 2 * 2 ^ 58 + 2 ^ 63 + 40 * 2 ^ 128 + 32 * 2 ^ 152 + 2 ^ 176 + 2 ^ 200 + 128 * 2 ^ 256 + 2 * 2 ^ 384 + 32 * 2 ^ 400 +
    2 ^ 416 + 2 ^ 432 + 0x3F800000 * 2 ^ 448)
/-- Window 0 is that one, window 1 is not valid; tile 3 has the type of its box. -/
def labWin : State := (labMem id).modCore 0 fun c =>
  { c with inst := some { Inst.lone with windows := [win0, 0] }, r := { c.r with ty := vset c.r.ty 3 (ty2 2 2 32) } }
def cw (win : Nat) : CW := { tt := 3, win := BitVec.ofNat 8 win, rx := 6, ry := 0, mod := 0 }

theorem witness_TileLoadsAndStores :
    (let s := labWin
     let org := [0, 0, 0, 0]
     ready s ([0, 1].flatMap fun w => [.tld (hd .C0) (cw w), .tld (hd .C1) { cw w with mod := 1 }, .tst (hd .C1) (cw w)])
       (s.sOk 6 && s.tOk 3 && s.windowOk 0 org && !winValid (s.windowOf 1) && decide (s.me.cnt.t < 63) && s.pendable (2, 3)) &&
     [(none, some 3), (some (tileOpnd 3 3, s.tyv 3), some 3), (some (tileOpnd 1 3, s.tyv 3), none)].all fun (o : Option (Origin × TypeWord) × Option Nat) =>
       match (boxTyping (s.windowOf 0) 0 org o.1 o.2).run s.me.r.d with
       | .ok ((box, ext), _) => ext == [2, 32, 1, 1] &&
           [Access.read, .write].all fun a => let r := spanOf (s.atIssue.page 0 a) (boxRanges (s.windowOf 0) box ext org); r.2 == ([], none)
       | .error _ => false) := by
  decide +kernel

def cf (scope : Nat) : CF := { pa := 0, pb := 0, scope := BitVec.ofNat 3 scope, obj := 0 }
/-- A release waits behind a store. -/
def labRel (n : Nat) : State := labMem fun c =>
  { c with mem := { c.mem with rels := List.replicate n { id := 1, obj := 0, scope := 0, epoch := none, agent := 0, marked := true, routes := [] } } }

theorem witness_Synchronisation :
    -- no release outstanding, one, sixteen; already entered
    [labRel 0, labRel 1, labRel 16, labMem fun c => { c with relIn := [(false, 0)] }].all (fun s =>
      ready s [.rel (hd .C0) (cf 5), .acq (hd .C0) (cf 5), .fence (hd .C0) (cf 0), .xfence (hd .C0) { cf 0 with pa := 3, pb := 0 },
        .xfence (hd .C1) { cf 0 with pa := 4, pb := 3 }] s.me.preempt.isNone) ∧
    ((labRel 0).me.mem.rels.isEmpty && (labRel 0).atIssue.writesDone 0 0 && !(labRel 1).me.mem.rels.isEmpty && (labRel 16).me.mem.rels.length == 16 &&
      (labMem fun c => { c with relIn := [(false, 0)] }).me.relIn == [(false, 0)]) ∧
    -- a local counter that has reached 0 and has not reached 5; a remote one; a misaligned one
    (let s := (labMem id).modCore 0 fun c => { c with r := { c.r with s := vset c.r.s 5 5 } }
     ready s [.waitge (hd .C0) { ci 1 0 with rd := 0 }, .waitge (hd .C0) (ci 1 0), .waitge (hd .C0) (ci 2 0), .waitge (hd .C0) (ci 1 1)]
       (s.sOk 0 && s.sOk 1 && s.sOk 2 && s.sOk 5 && s.me.preempt.isNone) &&
     (let l := (spanOf (s.atIssue.page 0 .read) [(0x200000, 8)]).1
      found s .read 0x200000 8 && !l.remote && ofBytes (l.keys.map fun k => s.atIssue.l1Read 0 false k) == 0) &&
     found s .read 0x400000 8 && (spanOf (s.atIssue.page 0 .read) [(0x400000, 8)]).1.remote) ∧
    -- a remote counter read as 7, refused with code 2, not read yet
    [some (.inl 7), some (.inr 2), none].all (fun p : Option (Word ⊕ Nat) =>
      (let s := labMem fun c => { c with mem := { c.mem with poll := match p with | some x => [(Slot.C0.code, x)] | none => [] } }
       (s.me.mem.poll.find? fun p => p.1 == Slot.C0.code).map (·.2)) == p) ∧
    -- a counter judged when its bundle first came to issue
    (let s := labMem fun c => { c with mem := { c.mem with gate := [(Slot.C0.code, (spanOf (lab.atIssue.page 0 .read) [(0x200000, 8)]).1)] } }
     (s.me.mem.gate.find? fun g => g.1 == Slot.C0.code).isSome) = true := by
  decide +kernel

def cr (a b c : Nat) : CR := { ra := BitVec.ofNat 6 a, rb := BitVec.ofNat 6 b, rc := BitVec.ofNat 6 c, rd := 0, mod := 0 }
/-- Registers for the copies: s7 the shape of a one-row copy, s8 the control of `cadd`, s9 a list of one entry, s10 an empty FP32 `cred`. -/
def labCopy : State := labWin.modCore 0 fun c =>
  { c with r := { c.r with s := vset (vset (vset (vset (vset (vset c.r.s 12 3) 7 0x1001) 8 (1 * 2 ^ 16 + 8)) 9 (2 ^ 56)) 10 0) 11 (2 ^ 56) } }

theorem witness_CopyPushes :
    ready labCopy [.copy (hd .C0) (cr 1 1 0), .copy (hd .C1) { cr 1 1 0 with mod := 2 }, .copy2d (hd .C0) (cr 1 1 7), .gath (hd .C0) (cr 9 1 1), .scat (hd .C0) (cr 9 1 1),
      .cred (hd .C0) (cr 1 1 10), .cexp (hd .C0) (cr 1 1 0), .ssend (hd .C0) (cr 1 1 0), .cadd (hd .C0) { cr 0 0 0 with rd := 8 },
      .copywLd (hd .C0) (cr 1 0 0), .copywSt (hd .C0) { cr 1 0 0 with mod := 1 }, .get (hd .C0) (cr 0 0 0), .put (hd .C0) (cr 0 1 12), .copy (hd .C0) (cr 11 1 0),
      .copy (hd .C0) (cr 1 11 0), .copy (hd .C0) (cr 1 1 11)]
      (labCopy.copyOk (cr 1 1 0) && labCopy.copyOk (cr 9 1 1) && labCopy.copyOk { cr 0 0 0 with rd := 8 } && (labCopy.sv 8).getLsbD 3 && labCopy.tOk 3 && tyValid (labCopy.tyv 3) &&
        fld (labCopy.sv 11) 63 56 != 0 && fld (labCopy.sv 1) 63 56 == 0) ∧
    labCopy.windowOk 0 [0, 0, 0, 0] = true ∧
    -- the queue has room; a full queue sends the entry to a ring slot, here in translated memory
    (vget labCopy.me.ch 0 default).queue.length < 16 ∧ (vget labCopy.me.ch 0 default).spilled = [] ∧
    found (labCopy.modCore 0 fun c => { c with spr := vset c.spr 0 0x200000 }) .write 0x200000 64 = true ∧
    typed labCopy (do let be ← boxAt (labCopy.windowOf 0) 0 false [0, 0, 0, 0]; checkWord (boxOpnd 0) be.1; pure be) = true ∧
    -- a type word to carry, and one whose extent is not bound
    (match carryType labCopy.me.r.d 3 (labCopy.tyv 3) with | .ok w => w == ty2 2 2 32 | .error _ => false) = true ∧
    (match carryType labCopy.me.r.d 3 (ty2 2 2 0x8001) with | .ok _ => false | .error _ => true) = true := by
  decide +kernel

/-! ### Bundles, retirement, traps, events of a core -/

theorem witness_GuardsLegalityTrees :
    lab.clear = true ∧ lab.fits [] = true ∧ lab.me.preempt = none ∧
    -- an illegal encoding, a guard that reads false
    (Instr.add (hd .S) { sr with mod := 4 }).wf = false ∧ lab.on { hd .S with guard := 1 } = false ∧ lab.on { hd .S with tag := 1 } = false ∧
    -- a tree whose tests all fail, and one whose second test is the first to hold, a call
    (let holds := fun t : Test => lab.pv t.pred != (t.sense == 1)
     let no : Test := { pred := 1, sense := 0, tgt := 2, kind := 0 }
     let yes : Test := { pred := 0, sense := 0, tgt := 2, kind := 1 }
     (∀ t ∈ [no, no], holds t = false) ∧ holds yes = true ∧ [no, yes][1]? = some yes ∧ lab.fits [lab.lands 1 (.b 15 (BitVec.ofNat 32 lab.fall))] = true) := by
  decide +kernel

/-- Loops that end at the fall-through 25: with c passes left, inside one that does not. -/
def labEnd (c : Nat) : State := labR fun r =>
  { r with loops := [{ start := 5, stop := 25, count := BitVec.ofNat 32 c }, { start := 1, stop := 60, count := 2 }] }

theorem witness_RetireFrame :
    lab.clear = true ∧ (labEnd 1).clear = true ∧ (labEnd 2).clear = true ∧ (labEnd 0).clear = true ∧
    (labEnd 2).me.r.loops.map (fun e => (e.stop.toNat, e.count.toNat)) = [((labEnd 2).fall, 2), (60, 2)] ∧
    (lab.core 0).reland = false ∧ (∀ f ∈ (lab.core 0).flight, (lab.core 0).cycle < f.due) := by
  decide +kernel

/-- The instance has a trap vector at 7, a policy and RESTART on level 0 and no levels above. -/
def labTvec (policy : Nat) (f : Core → Core) : State := (labI fun x =>
  { x with lh := { x.lh with tven := true, tvec := 7, levels := [BitVec.ofNat 8 (64 * policy + 32)], counts := [] } }).modCore 0 f

theorem witness_TrapEntryContainment :
    -- a program trap outside a handler and inside one, a page fault, a watchdog
    instIs (labTvec 2 id) 0 (fun x => x.lh.tven && x.lh.policy 0 == 2 && x.lh.nf == 0) = true ∧
    ((labTvec 2 id).core 0).x.hnd = false ∧ ((labTvec 2 fun c => { c with x := { c.x with hnd := true } }).core 0).x.hnd = true ∧
    0x10 < 0x11 ∧ (slotCause 0x11 .C0 0 0 0).code = 0x11 ∧ 0x13 ≤ (bundleCause 0x16 0 0 0).code ∧
    -- ignore, retry of a soft and of a hard cause, kill-self; the first try
    ([0, 1, 2].all fun p => instIs (labTvec p id) 0 fun x => x.lh.policy 0 == p) = true ∧
    (slotCause 0x02 .S 0 0 0).hard = false ∧ (bundleCause 0x15 0 0 0).hard = true ∧ ((labTvec 1 id).core 0).x.rtry = 0 ∧
    instIs (labTvec 1 id) 0 (fun x => relaunchOk x.lh 0 ((labTvec 1 id).spareFor 0)) = true ∧
    -- the same code at the same position again; retries that are used up
    (let c := (labTvec 1 fun c => { c with x := { c.x with run := 4, rtryCode := 2, rtryPos := 0 } }).core 0
     c.x.run ≠ 0 ∧ c.x.rtryCode = 2 ∧ c.x.rtryPos = c.pos ∧ ¬c.x.run ≤ 3) ∧
    -- what a pair timeout withdraws
    (labPair id).link = [] ∧ (slotCause 0x0E .X 0 0 0).code = 0x0E := by
  decide +kernel

/-- A scalar result and a commit are due; position 40 of a run with one more result in flight. -/
def labDue : State := labSpad.modCore 0 fun c =>
  { c with cycle := 9
           flight := [{ due := 9, land := .s 3 5, flags := 1, clip := false, xch := false, q := none },
             { due := 8, land := .cells [(0, 7)], flags := 0, clip := false, xch := false, q := none },
             { due := 10, land := .s 4 6, flags := 0, clip := false, xch := false, q := none }] }

theorem witness_LandingsAndEffect :
    labDue.powered = true ∧ (labDue.core 0).canIssue labDue.pcc = true ∧
    (let due := fun commit : Bool => (sortBy Flight.due ((labDue.core 0).flight.filter fun f => decide (f.due ≤ (labDue.core 0).cycle))).filter
       fun f => f.land.isCommit == commit
     (due false).length = 1 ∧ (due true).length = 1) ∧
    -- registers at the ends of the files
    (0 < 64 ∧ 63 < 64 ∧ 15 < 16 ∧ 31 < 32 ∧ 7 < 8) := by
  decide +kernel

theorem witness_StallEndsAndAsyncTraps :
    (let s := labC fun c => { c with stallEnd := some 0 }
     s.powered = true ∧ (s.core 0).stallEnd = some 0 ∧ 0 ≤ s.pcc) ∧
    (let s := labC fun c => { c with asyncs := [{ pcc := 0, deferred := false, cause := bundleCause 0x15 0 0 0 }] }
     (s.core 0).nextAsync.isSome = true ∧ (s.core 0).canIssue s.pcc = true ∧ (s.core 0).bubbles = 0) ∧
    -- a watchdog of 2^32 cycles
    (let s := { (labC fun c => { c with hold := some (.bar 1, 3) }) with pcc := 2 ^ 32 + 4 }
     (s.core 0).phase = .run ∧ (s.core 0).hold = some (.bar 1, 3) ∧ 2 ^ s.watchLog (s.core 0) < s.pcc - 3) ∧
    -- held for as long before a save
    (let s := labC fun c => { c with hold := some (.wait, 0), held := 2 ^ 32 + 1 }
     (s.core 0).phase = .run ∧ 2 ^ s.watchLog (s.core 0) < (s.core 0).held + (s.pcc - 0)) ∧
    -- a pair stall whose half has come, one that has timed out, one whose partner is gone, one whose partner has broken off
    (let st := fun (s : State) => s.modCore 0 fun c => { c with stall := some (.pair, 0), wake := 5 }
     let at_ := fun h : XchHalf => (h.graph == Inst.lone.graph && h.node == Inst.lone.node && h.idx == partnerIdx 0 && h.num == 0) && !h.taken
     ((st (labHalf 0)).core 0).stall = some (.pair, 0) ∧ ((labHalf 0).link.find? at_).isSome = true ∧ (labPair id).link.find? at_ = none ∧
     instIs (st (labPair id)) 0 (fun x => x.lh.pto == 0) = true ∧ 0 + 2 ^ 0 ≤ 1 ∧
     (st labGone).partnerHere 0 = false ∧
     ((labPair fun c => { c with broke := some 0 }).partnerAt 0).any (fun p => p.broke == some 0) = true) := by
  decide +kernel

theorem witness_ServiceAndHardFaults :
    (let s := labC fun c => { c with phase := .service, serving := some (slotCause 0x11 .C0 0 0 0) }
     s.powered = true ∧ (s.core 0).phase = .service ∧ (s.core 0).preempt = none ∧ (s.core 0).serving.isSome = true) ∧
    ((labC fun c => { c with phase := .service, preempt := some 3 }).core 0).preempt = some 3 ∧
    coreKind 0x01 = true ∧ (lab.core 0).spareDue = false ∧ (lab.core 0).unplaceable = false ∧ (lab.core 0).inst.isSome = true ∧
    (lab.core 255).inst = none ∧ (lab.core 255).spareDue = false := by
  decide +kernel

theorem witness_SaveAndResume :
    (lab.core 0).inst.isSome = true ∧ (lab.core 0).preempt = none ∧ (lab.core 0).phase = .run ∧
    (let s := labC fun c => { c with preempt := some 0, cycle := 65536 }
     (s.core 0).canIssue s.pcc = true ∧ (s.core 0).bubbles = 0 ∧ (s.core 0).preempt = some 0 ∧ 65536 ≤ (s.core 0).cycle - 0 ∧
     (s.core 0).nextAsync = none ∧ s.errs = [] ∧ instIs s 0 (fun x => !x.lh.ilk) = true) ∧
    -- an empty bundle there, and a `tret`, whose trap comes first
    [((0 : BundleWord), false), (0x59 <<< 321, true)].all (fun x =>
      let s := labC fun c => { c with preempt := some 0, cycle := 65536, dict := [x.1], stream := [0] }
      let h := (s.core 0).fetched
      h.1.code.isNone && !h.1.bad && ((s.landDue 0).core 0).relandClash.isNone &&
      (let r := ((s.landDue 0).modCore 0 Core.relandNow).judgeSlots 0 h.1 h.2
       r.1.miss == [] && r.1.lands == [] && r.1.pair.isNone && r.2.isSome == x.2)) = true ∧
    -- a request while it is serviced and while it resumes
    [Phase.service, .resuming].all (fun ph => ((labC fun c => { c with phase := ph }).core 0).preempt.isNone) = true ∧
    (let s := labC fun c => { c with phase := .saving }
     (s.core 0).phase = .saving ∧ (s.core 0).cnt = default ∧ (s.core 0).inst.isSome = true) ∧
    (let s := labC fun c => { c with phase := .resuming }
     (s.core 0).phase = .resuming ∧ s.copiesDone (s.core 0).uid = true) := by
  decide +kernel

/-! ### Memory events -/

/-- Bytes 0x400000 on of home memory hold 1 to 8. -/
def labData (f : Core → Core) : State :=
  { labMem f with mem := (List.range 8).map fun k => (0x400000 + k, BitVec.ofNat 8 (k + 1)) }
/-- L1 has room for the lines of these bytes. -/
def room (m : CoreMem) (keys : List Nat) : Bool :=
  (List.range 256).all fun set => decide ((m.linesOf set ++ (keys.map (· / 128)).filter fun l => l1Set l == set).eraseDups.length ≤ 12)

theorem room_iff (m : CoreMem) (keys : List Nat) : room m keys = true ↔ m.roomFor keys := by
  simp [room, CoreMem.roomFor]

/-- The 8 bytes at VA 0x200000. -/
def span8 : Span := { ranges := [(0x200000, 8)], pages := [(0x200, 0x400000)] }
/-- An outstanding access to them. -/
def loadOf (kind : LoadKind) : LoadOp := { id := 1, slot := 4, va := 0x200000, n := 8, kind := kind, span := span8, fwd := [], obj := none, asked := true, keep := true }
/-- It is outstanding. -/
def labLoad (kind : LoadKind) : State := labData fun c => { c with cnt := { c.cnt with l := 1 }, mem := { c.mem with loads := [loadOf kind] }, pendS := 32 }
/-- A byte that a store writes. -/
def db (key val : Nat) : DirtyByte := { key := key, val := BitVec.ofNat 8 val, mask := 0xFF, obj := none, ser := 1, cmp := false }

theorem witness_LoadAndAtomicReturns :
    [LoadKind.scalar (some 5), .scalar none, .vector (some 5), .vector none, .poll].all (fun k =>
      let s := labLoad k
      let c := s.core 0
      s.powered && s.errs == [] && c.phase == .run && (c.mem.loads.find? fun l => l.id == 1) == some (loadOf k) && c.mem.loadReady (loadOf k) [] &&
      !k.atomic && room c.mem span8.keys) ∧
    [LoadKind.amo (some 5) 8 7, .cas (some 5) 0x0807060504030201 9, .cas (some 5) 0 9].all (fun k =>
      let s := labLoad k
      let c := s.core 0
      s.mem.wf && c.phase == .run && (c.mem.loads.find? fun l => l.id == 1) == some (loadOf k) && c.mem.loadReady (loadOf k) [] &&
      (loadOf k).span.keys.length == 8 && (loadOf k).span.keys.all (fun a => decide (a < 2 ^ 52)) && c.mem.dirty == [] && s.powered && s.errs == []) ∧
    (loadOf .poll).span.keys.Nodup := by
  decide +kernel

/-- A tile store of the box of window 0. -/
def tst0 : TstOp :=
  { id := 1, slot := 4, tile := 3, win := 0, desc := win0, box := ty2 2 2 32, ext := [2, 32, 1, 1], org := [0, 0, 0, 0],
    span := { ranges := [(0x200000, 256)], pages := [(0x200, 0x400000)] }, data := 5, ocnt := 0, epoch := 0 }

theorem witness_StoresPerformed :
    (let s := labData fun c => { c with mem := { c.mem with stores := [{ id := 1, slot := 4, va := 0x200000, epoch := 0, bytes := [db 0x400000 7, db 0x400001 8] }] } }
     let c := s.core 0
     s.powered = true ∧ c.phase = .run ∧ c.mem.loads = [] ∧ c.mem.tlds = [] ∧ c.mem.tsts = [] ∧
     ([db 0x400000 7, db 0x400001 8].map (·.key)).Nodup ∧ [db 0x400000 7, db 0x400001 8].all (fun d => d.mask == 0xFF && !isRemote d.key && decide (d.key < noKey)) ∧
     room c.mem [0x400000, 0x400001]) ∧
    (let s := labData fun c => { c with mem := { c.mem with tsts := [tst0] } }
     let c := s.core 0
     let ws := boxWrites win0 (ty2 2 2 32) [2, 32, 1, 1] [0, 0, 0, 0] 5 0
     c.phase = .run ∧ c.mem.stores = [] ∧ (c.mem.tsts.find? fun t => t.id == 1) = some tst0 ∧ (c.mem.tsts.all fun t => decide (1 ≤ t.id)) ∧
     ws.length = 256 ∧ (ws.all fun w => !isRemote (tst0.span.key w.1) && decide (tst0.span.key w.1 < noKey)) ∧ (ws.map fun w => tst0.span.key w.1).Nodup ∧
     room c.mem (ws.map fun w => tst0.span.key w.1)) := by
  decide +kernel

/-- A tile load of that box into tile 3; under `esc` its elements are INT8 codes with escapes. -/
def tld0 : TldOp :=
  { id := 1, slot := 4, tile := 3, win := 0, desc := win0, box := ty2 2 2 32, ext := [2, 32, 1, 1], org := [0, 0, 0, 0],
    span := { ranges := [(0x200000, 256)], pages := [(0x200, 0x400000)] }, fwd := [], asked := true, keep := true }

theorem witness_TileLoadArrives :
    (let s := labData fun c => { c with mem := { c.mem with tlds := [tld0] }, cnt := { c.cnt with t := 1 }, pendT := 8 }
     let c := s.core 0
     s.powered = true ∧ s.errs = [] ∧ c.phase = .run ∧ (c.mem.tlds.find? fun l => l.id == 1) = some tld0 ∧ c.mem.tldReady tld0 [] = true ∧ tld0.tile < 16 ∧
     (let r := boxTile win0 tld0.box tld0.ext tld0.org fun va => s.gather 0 false tld0.span [] [] (tld0.span.key va)
      r.2 ≤ 64 ∧ room c.mem (({ tld0.span with ranges := tldUses tld0 r.2 } : Span).keys ++ tld0.span.keys))) := by
  decide +kernel

theorem witness_WriteBackAndRelease :
    (let s := labData fun c => { c with mem := { c.mem with dirty := [db 0x400000 7, db 0x400100 8] } }
     let c := s.core 0
     s.powered = true ∧ s.errs = [] ∧ s.mem.wf = true ∧ (c.mem.dirty.map (·.key)).Nodup ∧ (c.mem.dirty.all fun d => decide (d.key < 2 ^ 52)) ∧
     (c.mem.dirty.any fun d => d.key / 128 == 0x8000) ∧ (c.mem.dirty.any fun _ => true)) ∧
    (let s := labRel 1
     s.mem.wf = true ∧ (s.core 0).mem.rels.length = 1 ∧ ((s.core 0).mem.rels.any fun r => s.relReady 0 r)) := by
  decide +kernel

/-- A page table of partition 0: the root at 0x1000 points to 0x2000 and so on down to a table of pages at 0x5000, which maps VA 0 to the page
at 0x7000, has a remote page, a page without V, a malformed one and one beyond the package. -/
def labTable : State := { (labMem fun c => { c with mem := { c.mem with want := [0, 2] } }) with
  parts := vset lab.parts 0 (some { clusters := 1, tenant := 0, root := 0x1000, wlog := 32 }), domain := 16
  mem := [(0x1000, 3), (0x1001, 0x20), (0x2000, 3), (0x2001, 0x30), (0x3000, 3), (0x3001, 0x40), (0x4000, 3), (0x4001, 0x50), (0x5000, 5), (0x5001, 0x70),
    (0x5008, 5), (0x5009, 0x70), (0x500F, 0x80), (0x5018, 0x11), (0x5020, 1), (0x5023, 0xC0), (0x5024, 0xFF)] }

theorem witness_PageTableWalks :
    labTable.powered = true ∧ (labTable.core 0).inst.isSome = true ∧ (labTable.core 0).mem.want ≠ [] ∧ labTable.mem.wf = true ∧
    (let e := fun n : Nat => word (labTable.readNat (0x5000 + 8 * n) 8)
     -- a leaf, a remote leaf, no V, malformed, beyond the package
     ((e 0).getLsbD 0 && !malformed 16 0 (e 0) && !(e 0).getLsbD 63 && decide ((e 0).toNat / 2 ^ 12 % 2 ^ 28 * 4096 < Config.localLimit) && !(e 0).getLsbD 1) ∧
     ((e 1).getLsbD 0 && !malformed 16 0 (e 1) && (e 1).getLsbD 63) ∧ (e 2).getLsbD 0 = false ∧ ((e 3).getLsbD 0 && malformed 16 0 (e 3)) ∧
     ((e 4).getLsbD 0 && !malformed 16 0 (e 4) && !(e 4).getLsbD 63 && decide (Config.localLimit ≤ (e 4).toNat / 2 ^ 12 % 2 ^ 28 * 4096)) ∧
     -- a pointer at the top level
     (let p := word (labTable.readNat 0x1000 8); p.getLsbD 0 && !malformed 16 4 p && p.getLsbD 1 && decide (p.toNat / 2 ^ 12 % 2 ^ 28 * 4096 < Config.localLimit))) := by
  decide +kernel

/-- A queue entry of core 0 with destination, source and parameters, due at `at_`. -/
def entry (kind : CopyKind) (ra rb rc : Nat) (mod : Nat := 0) (at_ : Int := 0) : CopyEntry :=
  { own := { uid := 1, part := 0, graph := 0, node := 0, idx := 0, core := 0 }, kind := kind, ra := word ra, rb := word rb, rc := word rc
    mod := BitVec.ofNat 2 mod, desc := win0, win := 0, ext := [2, 32, 1, 1], org := [0, 0, 0, 0], box := ty2 2 2 32, at_ := at_, add := 3, cen := false, record := 0x200100 }
/-- A command in progress for it. -/
def runOf (e : CopyEntry) : CopyRun :=
  { id := 5, ch := 0, seq := 0, e := e, start := 0, total := some 2, done := 0, off := 0, idx := 0, status := 0, flags := 1, permit := 0, buf := none, img := [], gap := false, asked := []
    fin := false, sent := false }
/-- A remote write of core 0, of a copy or not, and a load and a tile load of remote bytes. -/
def labFar (copy : Bool) (mem : Bool) (access : Nat := 1) : State :=
  { (labData fun c => if mem then { c with mem := { c.mem with
      loads := [{ loadOf (.scalar (some 5)) with id := 3, span := { ranges := [(0x400000, 8)], pages := [(0x400, remoteKey 3 0x1000)] } }]
      tlds := [{ tld0 with id := 4, span := { ranges := [(0x400000, 256)], pages := [(0x400, remoteKey 3 0x1000)] } }] } } else c) with
    remote := [{ id := 2, group := 9, own := { uid := 1, part := 0, graph := 0, node := 0, idx := 0, core := 0 }, agent := 0, epoch := 0, port := none, native := !false, va := 0x400000, acc := 3, key := remoteKey 3 0x1000, access := access, slot := 4, copy := copy, refused := false, merge := none, placed := false }] }

theorem witness_FabricResponses :
    -- a write and an add, of a copy and of the core
    ([(true, 1), (false, 1), (true, 2), (false, 2)].all fun b =>
      ((labFar b.1 false b.2).remote.find? fun r => r.id == 2 && r.agent == 0 && !r.refused && r.access != 0).any fun r => r.copy == b.1) ∧
    (let s := labFar false true
     let c := s.core 0
     s.powered = true ∧ (s.remote.find? fun r => r.id == 3 && r.agent == 0 && !r.refused) = none ∧ c.phase = .run ∧ c.inst.isSome = true ∧
     ((c.mem.loads.find? fun l => l.id == 3 && l.span.remote).any fun l => l.kind == .scalar (some 5)) ∧
     (c.mem.loads.find? fun l => l.id == 4 && l.span.remote) = none ∧ (c.mem.tlds.find? fun l => l.id == 4 && l.span.remote).isSome = true) ∧
    -- a chunk that has asked for remote bytes
    (let s := { labFar false false with copies := [{ runOf (entry .copy 0x200000 0x400000 8) with id := 4, asked := [remoteKey 3 0x1000] }] }
     (s.remote.find? fun r => r.id == 4 && r.agent == 0 && !r.refused) = none ∧ (s.core 0).phase = .run ∧ (s.core 0).mem.loads = [] ∧
     (s.core 0).mem.tlds = [] ∧ s.copies.any (fun r => r.id == 4 && r.e.own.core == 0 && !r.fin) = true) ∧
    1 ≤ 9 ∧ 9 ≤ 9 := by
  decide +kernel

/-! ### The copy engine -/

/-- Core 0's channel 0 holds these entries; these commands are in progress; the PCC reads 10. -/
def labChan (q : List CopyEntry) (rs : List CopyRun) (f : Channel → Channel := id) : State :=
  { (labData fun c => c.modCh 0 fun h => f { h with queue := q }) with copies := rs, pcc := 10 }

theorem witness_CopyCommandStarts :
    -- at once, at the PCC, late, in order with nothing ordered in progress; a spilled entry behind
    [entry .copy 0x200000 0x200000 8, entry .copy2d 0 0 8 0 10, entry .cred 0 0 8 0 9, entry .copy 0 0 8 1, entry .cexp 0 0 8 1 (-1)].all (fun e =>
      let s := labChan [e] [runOf (entry .copy 0 0 8)] fun h => { h with spilled := [e, e] }
      let h := vget (s.core 0).ch 0 default
      s.powered && h.queue == [e] && h.stop == none && (e.at_ == 0 || decide (e.at_ ≤ (s.pcc : Int))) &&
      decide ((s.copies.filter fun r => r.e.own.core == 0 && r.ch == 0).length < 8) && s.copies.all (fun r => !r.e.ord) && (s.core 0).phase != .resuming &&
      (s.core 0).inst.isSome && (s.core 0).uid == e.own.uid) = true ∧
    ((entry .copy 0 0 8 1).ord = true ∧ (entry .copy 0 0 8).ord = false ∧ ((labChan [] []).core 255).inst = none) := by
  decide +kernel

theorem witness_CopyChunks :
    -- 8 bytes between two places of a page
    (let r := runOf (entry .copy 0x200100 0x200000 8)
     let s := labChan [] [r]
     s.powered = true ∧ s.errs = [] ∧ s.mem.wf = true ∧ s.run r.id = some r ∧ r.e.own.core < 256 ∧ r.ch < 2 ∧ s.chunkOk r = true ∧ r.buf = none ∧ 0 < min 1024 (fld r.e.rc 31 0 - 1024 * r.done) ∧
     ((List.range 8).all fun j => s.homeOf r.e .read (0x200000 + j) == some (0x400000 + j) && s.homeOf r.e .write (0x200100 + j) == some (0x400100 + j))) ∧
    -- a source with no translation
    (let r := runOf (entry .copy 0x200100 0x900000 8)
     let s := labChan [] [r]
     s.run r.id = some r ∧ s.chunkOk r = true ∧ (match s.copyPage r.e .read (0x900000 / 4096) with | .fault _ => true | _ => false) = true) ∧
    -- a channel stopped on it
    (let r := runOf (entry .copy 0x200100 0x900000 8)
     let st : ChanStop := { id := 5, atRec := false, synd0 := 0x900000, synd1 := 0, synd2 := 0 }
     let s := labChan [] [r] fun h => { h with stop := some st }
     s.run r.id = some r ∧ (vget (s.core 0).ch 0 default).stop = some st ∧ st.id = r.id ∧ st.atRec = false ∧ fld st.synd1 3 0 ≠ 5) := by
  decide +kernel

/-- A ring of 4 slots whose release word reads 0, with 6 groups and a permit time limit of 10. -/
def ringRun : CopyRun := { runOf (entry .cexp (4 * 2 ^ 24) 0 (48 + 10 * 2 ^ 32) 1) with total := some 6 }

theorem witness_CompletionRecords :
    [false, true].all (fun cen =>
      let r := { runOf { entry .copy 0x200100 0x200000 8 with cen := cen } with fin := true }
      let s := labChan [] [r]
      s.powered && s.errs == [] && s.run r.id == some r && s.recordDue r && !r.e.ord && r.e.cen == cen && s.mem.wf && r.e.record % 16 == 0 &&
      s.homeOf r.e .atomic r.e.record == some 0x400100) = true ∧
    -- the first permit, and one past the slots at its limit, of a ring whose release word lies in a scratchpad, and in a bank that is none
    (let s := (labChan [] [ringRun]).modBank 0 0 fun b => { b with mode := .spad, ownUid := 1 }
     ((s.cluster 0).bank 0).mode = .spad ∧ ((s.cluster 0).bank 0).ready = true ∧ (((labChan [] [ringRun]).cluster 0).bank 0).mode = .cache ∧
     fld ringRun.e.ra 21 0 + 1024 * 4 < 2 ^ 22 ∧ (vget (s.core 0).ch 0 default).stop = none ∧ ringRun.total = some 6 ∧ s.run 5 = some ringRun ∧ ringRun.permit < 6 ∧ ringRun.permit + 1 ≤ ofBytes ((s.cluster 0).sram.readBytes 4096 4) + 4 ∧ ringRun.fin = false ∧ bit ringRun.e.mod 0 = true) ∧
    (let r := { ringRun with permit := 4, done := 4 }
     let s := labChan [] [r]
     s.run 5 = some r ∧ r.start + fld r.e.rc 63 32 ≤ s.pcc ∧ ofBytes ((s.cluster 0).sram.readBytes 4096 4) + fld r.e.ra 29 24 < r.permit + 1 ∧ r.permit ≤ r.done) := by
  decide +kernel

/-- A typed send of accelerator 3 with tag 2 in tenant 1 and a posted receive of it. -/
def labSend (ty : TypeWord) (pcc : Nat) : State :=
  { labChan [] [runOf (entry .get 0 0 (3 + 2 * 2 ^ 16))] with
    parts := vset lab.parts 0 (some { clusters := 1, tenant := 1, root := 0x1000, wlog := 32 })
    sends := [{ id := 8, port := 0, tenant := 1, src := 3, agent := 0, tag := 2, ty := ty, image := [1, 2, 3], pcc := 0 }], pcc := pcc }

theorem witness_TypedReceives :
    -- a word that unifies with the box and one that does not
    [(ty2 2 2 32, true), (ty2 2 3 32, false)].all (fun x =>
      let s := labSend x.1 10
      match s.sends with
      | [q] => s.powered && s.errs == [] && s.mem.wf && (s.sends.find? fun p => p.id == q.id) == some q &&
        (s.sends.find? fun p => p.tenant == q.tenant && p.src == q.src && p.tag == q.tag) == some q &&
        (match s.posting q with
         | some r => s.run r.id == some r && (vget (s.core 0).ch 0 default).stop.isNone &&
           imageEscapes r.e.desc (geoOf r.e.box r.e.ext) (BitVec.ofNat 65536 (ofBytes (q.image ++ List.replicate (8192 - q.image.length) 0))) == 0 && (match sendTypes r q.ty with | .ok _ => x.2 | .error _ => !x.2) &&
           (let ws := boxWrites r.e.desc r.e.box r.e.ext r.e.org 0 0
            match s.copySpan r.e .write (joinRanges (ws.map fun w => (w.1, 1))) with
            | .ok sp => ws.all (fun w => decide (sp.key w.1 < 2 ^ 52)) && decide (ws.map fun w => sp.key w.1).Nodup
            | .error _ => false)
         | none => false)
      | _ => false) = true ∧
    (let s := labSend (ty2 2 2 32) (2 ^ 24)
     s.powered = true ∧ ∃ q ∈ s.sends, q.pcc + 2 ^ 24 ≤ s.pcc) ∧
    -- a way back to the sender
    (let s := { labSend (ty2 2 2 32) 10 with domain := 16, routes := [(3, 1)] }
     let s := s.modPort 0 fun p => { p with mode := 1 }
     3 < s.domain ∧ (s.routePort 3).isSome = true) := by
  decide +kernel

/-! ### Graphs, starts, repair -/

/-- A node word with kind, BODY, ADDR, REC and VAL, image 6. -/
def nodeWord (kind body addr rec_ val : Nat) : WindowWord :=
  BitVec.ofNat 512 (kind + 6 * 2 ^ 9 + body * 2 ^ 21 + addr * 2 ^ 320 + rec_ * 2 ^ 384 + val * 2 ^ 448)
/-- A node of that word. -/
def node (w : WindowWord) (st : NodeState) (launch : Option Launch := none) : Node :=
  { word := w, state := st, since := 0, eff := 0, sent := false, polled := none, launch := launch, lh := some { (default : Header) with levels := [0] } }
/-- Graph 4 of partition 0 with these nodes, the last its end node, and image 6; VA 0x100 reads `w`. -/
def labGraph (w : List (Nat × Byte)) (nodes : List Node) (pcc : Nat := 0) : State := { labTable with
  mem := labTable.mem ++ w, pcc := pcc, images := [(6, { dict := [], stream := [0xFFFF], windows := [], entry := 0 })]
  graphs := [(4, { part := 0, order := 0, record := 0x200, nodes := nodes, status := 0, sent := false })] }

theorem witness_GraphNodes :
    -- a launch node; cond and wait nodes that read 7, for a value below, at and above it; a signal node; the same three over a page without V;
    -- a signal node of another accelerator
    (let s := labGraph [(0x7100, 7)] ([node (nodeWord 0 0 0 0 0) .ready] ++ [1, 3].flatMap (fun k => [0, 7, 8].map fun v => node (nodeWord k 0 0x100 0 v) .ready) ++
       [node (nodeWord 1 0 0x2000 0 0) .ready, node (nodeWord 3 0 0x2000 0 0) .ready, node (nodeWord 4 0 0x100 0 1) .ready, node (nodeWord 4 0 0x2000 0 1) .ready,
        node (nodeWord 4 0 0x1000 0 1) .ready])
     s.powered = true ∧ s.errs = [] ∧ s.mem.wf = true ∧ (assoc s.images 6).isSome = true ∧
     (assoc s.graphs 4).any (fun gr => gr.nodes.map (fun x => ndKind x.word) == [0, 1, 1, 1, 3, 3, 3, 1, 3, 4, 4, 4] &&
       gr.nodes.all (fun x => x.state == .ready && x.lh.isSome && ndImg x.word == 6 && ndAddr x.word % 8 == 0) && gr.part == 0) ∧
     s.asks = [] ∧ s.ridgeRead 0 0x100 8 [] = .bytes [7, 0, 0, 0, 0, 0, 0, 0] ∧ s.ridgeRead 0 0x2000 8 [] = .fault ∧
     { s with errs := [{ place := .home 0x7100 0, bits := 2 }] }.ridgeRead 0 0x100 8 [] = .failed ∧
     s.ridgeHome 0 .atomic 0x100 = some 0x7100 ∧ s.ridgeHome 0 .atomic 0x2000 = none ∧ (s.ridgeHome 0 .atomic 0x1000).any isRemote = true ∧
     -- the launch can be held, and cannot once every core is lost
     (let lh : Header := { (default : Header) with levels := [0] }
      let u : UnitReq := { first := 0, size := 1, saved := [] }
      max 1 lh.unitSize = 1 ∧ s.holdable 0 lh u = true ∧
      ((List.range 4).foldl (fun t i => t.modCore i fun c => { c with unplaceable := true }) s).holdable 0 lh u = false)) ∧
    -- a page fault in service, and one whose service has failed
    [false, true].all (fun x =>
      let s := { labGraph [] [] with asks := [{ who := .node 4 0, failed := x }] }
      s.askOf (.node 4 0) == some { who := .node 4 0, failed := x } && (s.asks.find? fun a => !a.failed).isSome == !x) = true := by
  decide +kernel

/-- A launch of one instance. -/
def launch1 (gone : Nat) (killed : Bool) : Launch :=
  { lh := { (default : Header) with levels := [0] }, windows := [], image := { dict := [], stream := [0xFFFF], windows := [], entry := 0 }, total := 1
    next := gone, gone := gone, redo := [], dead := [], killed := killed, refused := false, left := [] }

theorem witness_WhileAndRecords :
    -- a while node over a body whose word reads 0, one whose word asks for a pass, one whose word asks for what is refused
    [([], 0), ([(0x7107, 0x80)], 2 ^ 63), ([(0x7105, 0x80), (0x7107, 0x80)], 2 ^ 63 + 2 ^ 47)].all (fun w =>
      let s := labGraph w.1 [node (nodeWord 2 1 0x100 0 0) .ready, node (nodeWord 0 0 0 0x200 0) .running]
      s.powered && s.askOf (.node 4 0) == none && s.mem.wf && s.ridgeHome 0 .atomic 0x200 == some 0x7200 &&
        s.holdable 0 (passHeader { (default : Header) with levels := [0] } w.2) { first := 0, size := 1, saved := [] } && s.errs == [] && match assoc s.graphs 4 with
      | some gr => gr.nodes.length == 2 && bit gr.status 1 == false && gr.nodes.all (fun nd => ndKind nd.word != 2 || (ndBody nd.word == 1 && ndAddr nd.word == 0x100)) &&
        gr.nodes.all (fun nd => nd.launch.isNone) && (match s.ridgeRead gr.part 0x100 8 [] with | .bytes b => ofBytes b == w.2 | _ => false) &&
        (w.2 / 2 ^ 39 % 2 ^ 24 == 0) == (w.2 != 2 ^ 63 + 2 ^ 47) && (passHeader { (default : Header) with levels := [0] } w.2).cutOk (s.placeable gr.part).length && (assoc s.images 6).isSome
      | none => false) = true ∧
    -- a word that cannot be read, and one whose page faults
    (let s := labGraph [] [node (nodeWord 2 1 0x100 0 0) .ready, node (nodeWord 0 0 0 0 0) .running]
     { s with errs := [{ place := .home 0x7100 0, bits := 2 }] }.ridgeRead 0 0x100 8 [] = .failed ∧ s.ridgeRead 0 0x2000 8 [] = .fault) ∧
    -- a launch that has ended, not killed and killed, without a record and with one
    ([0, 0x200].all fun rc => [false, true].all fun k =>
      let s := labGraph [] [node (nodeWord 0 0 0 rc 0) .running (some (launch1 1 k))]
      s.errs == [] && s.gridQuiet 4 0 (launch1 1 k) && s.mem.wf && s.ridgeHome 0 .atomic 0x200 == some 0x7200 && ndRec (nodeWord 0 0 0 rc 0) == rc &&
      (assoc s.graphs 4).any fun gr => !(bodies gr.nodes).contains 0) = true ∧
    -- the end node
    (let s := labGraph [] [node (nodeWord 5 0 0 0 0) .ready]
     s.errs = [] ∧ s.ridgePending 4 = false ∧ s.mem.wf = true ∧ s.ridgeHome 0 .atomic 0x200 = some 0x7200 ∧
     (assoc s.graphs 4).any fun gr => gr.endNode == 0 && !gr.sent && gr.record == 0x200 && gr.nodes.all fun nd => ndKind nd.word == 5) := by
  decide +kernel

theorem witness_InstanceStarts :
    -- a launch of one instance with core 1 the lowest free; one in a partition whose cores are all unplaceable
    (let s := { labGraph [] [node (nodeWord 0 0 0 0 0) .running (some (launch1 0 false))] with plans := [] }
     s.powered = true ∧ s.plans = [] ∧
     (s.firstReady 0).any fun x => s.unitClear x.1.graph x.1.node x.2 && x.2.saved.isEmpty && x.2.size == 1 && unitLevels x.1.la.lh 1 == [] &&
       x.2.placeOn x.1.la.lh (s.owns 0) (s.freeCores 0) == some [(0, 1)]) ∧
    (let s := (List.range 4).foldl (fun t i => t.modCore i fun c => { c with unplaceable := true })
       (labGraph [] [node (nodeWord 0 0 0 0 0) .running (some (launch1 0 false))])
     (s.firstReady 0).any fun x => s.unitClear x.1.graph x.1.node x.2 && x.2.placeOn x.1.la.lh (s.owns 0) (s.freeCores 0) == none && !s.holdable 0 x.1.la.lh x.2) := by
  decide +kernel

theorem witness_RepairErrorsThermal :
    -- what a launch that is waiting loses with the last core
    (let s := (List.range 4).foldl (fun t i => t.modCore i fun c => { c with unplaceable := true })
       (labGraph [] [node (nodeWord 0 0 0 0 0) .running (some (launch1 0 false))])
     s.unheld 0 4 0 (launch1 0 false) = true) ∧
    -- an instance of a launch on die 0
    ((labGraph [] [node (nodeWord 0 0 0 0 0) .running (some (launch1 0 false))]).launch 4 0).isSome = true ∧ dieOf 0 = 0 ∧
    (let s := lab.modCore 3 fun c => { c with spareDue := true }
     s.powered = true ∧ (s.core 3).spareReady = true ∧ 0 < (s.die (dieOf 3)).spareCores ∧ 0 < (s.die 0).spareSlices ∧
     ((s.modDie 0 fun d => { d with spareCores := 0 }).core 3).spareReady = true ∧ ((s.modDie 0 fun d => { d with spareCores := 0 }).die (dieOf 3)).spareCores = 0) ∧
    vget lab.reserve 15 false = true ∧ lab.ridgeDie = 0 ∧ lab.errs = [] ∧ 0 < Config.localLimit ∧
    (lab.die 0).throttling = false ∧ (lab.die 0).throttleAt ≤ 255 ∧ (lab.die 0).shut = false ∧
    (let s := lab.modDie 3 fun d => { d with throttling := true }
     (s.die 3).throttling = true ∧ 0 + 5 ≤ (s.die 3).throttleAt) := by
  decide +kernel

/-! ### Governor, ports, trees, Yelm -/

theorem witness_GovernorAndClocks :
    -- a request of each class on die 3, at a budget that is just enough
    [(0, 1), (1, 4), (2, 5)].all (fun x =>
      let q : GrantReq := { core := 255, pcc := 4 }
      let s := { (lab.modCore 255 fun c => { c with grant := { cls := none, gend := 0, pend := some (x.1, 8) } }).modDie 3 fun d =>
        { d with queue := [q], b := x.2, d := x.2, charge := 0 } with pcc := 5 }
      let d := s.die 3
      let c := s.core q.core
      s.powered && d.queue == [q] && c.grant.pend == some (x.1, 8) && decide (q.pcc < s.pcc) &&
      decide (s.unitsHeld 3 + d.charge + x.2 ≤ (if d.throttling then d.b / 2 else d.b) + c.unitsHeld s.pcc) && decide (d.winUnits + x.2 ≤ d.d)) = true ∧
    -- a grant that has ended; windows at their multiples; counts and free entries that have arrived
    (let s := { (lab.modCore 7 fun c => { c with grant := { cls := some 2, gend := 2 ^ 20, pend := none } }) with pcc := 2 ^ 20 }
     (∃ i < 256, (s.core i).grant.cls.isSome = true ∧ (s.core i).grant.gend ≤ s.pcc) ∧ s.pcc % 64 = 0 ∧ s.pcc % 1024 = 0 ∧ s.pcc % 2 ^ 20 = 0 ∧
     s.winAt ≠ s.pcc ∧ s.heavyAt ≠ s.pcc ∧ s.agedAt ≠ s.pcc) ∧
    (let s := (labGraph [] [node (nodeWord 0 0 0 0 0) .ready]).modCluster 63 fun k =>
       { k with banks := vset k.banks 63 { Bank.cache with transit := [(0, true), (1, false)] } }
     (∃ k < 64, ∃ b < 64, ((s.cluster k).bank b).countDue s.pcc = true) ∧ s.graphs.length = 1) ∧
    (let s := lab.modYelm 3 fun y => { y with frees := [0, 1] }
     ∃ k < 4, ∃ x ∈ (s.yelm k).frees, x ≤ s.pcc) := by
  decide +kernel

/-- A flit of class `cls` in tenant 2 with tag 9, for the byte address `pa`. -/
def flit (cls pa len : Nat) (payload : List Byte) : Flit :=
  { dst := 0, src := 3, ten := 2, ktag := 9, cls := cls, tyw := false, agent := 1, epoch := 0, len := len, vch := 0, pa := pa, payload := payload }
/-- The key of tenant 2: tag 9, the first MiB, every class. -/
def key2 : Word := word (2 ^ 63 + 2 ^ 62 + 2 ^ 61 + 2 ^ 60 + 9 * 2 ^ 40)
/-- The first flit of a typed send of 4 bytes, of which the first n of its 20 bytes are in the flit, and a later one. -/
def sendFlit0 (n : Nat) : Flit := { flit 9 0 n ((toBytes 16 (ty2 5 1 4).toNat ++ [1, 2, 3, 4]).take n) with tyw := true }
def sendFlit1 : Flit := flit 9 0 3 [2, 3, 4]
/-- Port p in native mode with that key, these lanes and this outbound and inbound queue; another port is up, and leads to accelerator 3. -/
def labPort (p lanes : Nat) (spare : Bool) (outq : List (Nat × Flit))
    (inq : List (Flit × Option (Nat × List Byte))) : State :=
  { (State.reset.modPort (47 - p) fun q => { q with mode := 1 }).modPort p fun q =>
      { q with mode := 1, lanes := lanes, spare := spare, keys := [(2, key2)], shares := [], outq := outq, inq := inq } with
    domain := 16, routes := [(3, 2 ^ (47 - p))] }

theorem witness_PortsFencesShares :
    -- the first and the last port, with and without its spare, with 3, 2 and 1 lanes; a queue of each kind as the port goes down
    [0, 47].all (fun p => [3, 2, 1].all fun n => [true, false].all fun b => [([], []), ([(5, flit 0 0 8 [])], []), ([], [(flit 0 0 8 [], some (3, [1]))]),
        ([], [(sendFlit0 17, none)])].all fun x =>
      let s := labPort p n b x.1 x.2
      s.powered && (s.port p).lanes == n && (s.port p).spare == b && (s.port p).up == decide (2 ≤ n) && s.sends.isEmpty && s.partials.isEmpty &&
      (s.port p).native && s.routePort 3 == some (47 - p) && flIsRequest (sendFlit0 17)) = true ∧
    -- one error more, within the threshold and beyond it
    (let q := (labPort 47 4 true [] []).port 47
     (q.corr[3]?).getD 0 + 1 ≤ q.thresh ∧ { q with thresh := 0 }.thresh < (q.corr[3]?).getD 0 + 1 ∧ { flit 0 0 8 [] with src := 0 }.src = (State.reset).accNum) ∧
    -- requests: no key, outside the range, a protocol error, a read, a write, an atomic
    (let s := labPort 47 4 true [] []
     let q := s.port 47
     let ten := fun f : Flit => { f.onWire with ten := (q.tenantOf f.onWire).getD f.onWire.ten }
     s.errs = [] ∧ s.mem.wf = true ∧
     [flit 0 0 8 [], flit 0 0x100000 8 [], flit 12 0 0 [], flit 1 0 24 (List.replicate 24 1), flit 2 0 16 (List.replicate 16 0)].all (fun f => (flIsRequest f || decide (12 ≤ f.cls)) && ten f == f) = true ∧
     s.judge q { flit 0 0 8 [] with ktag := 8 } false = .refuse 2 ∧ s.judge q (flit 0 0x100000 8 []) false = .refuse 4 ∧
     s.judge q (flit 12 0 0 []) false = .fence ∧ s.judge q (flit 0 0 8 []) true = .fence ∧
     s.judge q (flit 0 0 8 []) false = .serve ∧ s.judge q (flit 1 0 24 (List.replicate 16 1 ++ List.replicate 8 5)) false = .fence ∧
     s.judge q (flit 1 0 24 (0xFF :: List.replicate 15 0 ++ List.replicate 8 5)) false = .serve ∧
     s.judge q (flit 2 0 16 (List.replicate 16 0)) false = .serve ∧
     flAtomicOk (flit 2 0 16 (List.replicate 16 0)) = true ∧ bit (BitVec.ofNat 16 (flCtl (flit 2 0 16 (List.replicate 16 0)))) 14 = false ∧
     -- a record step: control bit 14 set
     (let f := flit 2 0 24 ([0, 0x40] ++ List.replicate 22 0)
      flAtomicOk f && bit (BitVec.ofNat 16 (flCtl f)) 14) = true ∧
     -- answers, and what only passes through
     [3, 4, 5, 6].all (fun k => flIsAnswer (flit k 0 0 [])) = true ∧ flMalformed (flit 4 0 0 []) = false ∧ flMalformed (flit 4 0 9 []) = true ∧
     q.fenced.contains 2 = false ∧ (s.modPort 47 fun q => { q with fenced := [2] }).port 47 = { q with fenced := [2] } ∧
     (let f := { flit 0 0 8 [] with dst := 3 }; f.dst ≠ s.accNum ∧ f.dst < s.domain) ∧
     -- the first flit of a typed send, which is served, and a later one, of a message in progress and of none
     s.judge q (sendFlit0 17) false = .serve ∧ flLater (sendFlit0 17) = false ∧ flLater sendFlit1 = true ∧ flMalformed sendFlit1 = false ∧
     q.native = true ∧ s.openMessage 47 sendFlit1 = false ∧ (labPort 47 4 true [] [(sendFlit0 17, none)]).openMessage 47 sendFlit1 = true) ∧
    -- a marker at a router, an epoch that is complete, one flit to leave, a marker to leave and one flit to deliver
    (let f := flit 7 0 4 [2, 0, 0, 0]
     let s := lab.modDie 3 fun d => { d with markers := [(47, f)] }
     ((s.die 3).markers.find? fun m => m.2 == f) = some (47, f) ∧ 47 / 12 = 3) ∧
    (let c : FenceCount := { port := 47, src := 3, agent := 1, epoch := 0, passed := 2, marker := some 2 }
     let s := lab.modDie 3 fun d => { d with fences := [c] }
     ((s.die 3).fences.find? fun c => c.src == 3 && c.agent == 1 && c.epoch == 0 && c.done) = some c) ∧
    [flit 0 0 8 [], flit 1 0 24 (0xFF :: List.replicate 15 0 ++ List.replicate 8 5), flit 7 0 4 [2, 0, 0, 0]].all (fun f =>
      let s := labPort 47 4 true [(0, f)] []
      (s.port 47).up && (s.port 47).native && (s.port 47).shares == [] && (s.port 47).outq == [(0, f)]) = true ∧
    -- an answer that waits; a flit for another accelerator; a typed send that is whole, and one that is not
    [(flit 0 0 8 [], some (3, [1])), ({ flit 0 0 8 [] with dst := 3 }, none), (sendFlit0 20, none), (sendFlit0 17, none)].all (fun x =>
      let s := labPort 47 4 true [] [x]
      (s.port 47).up && (s.port 47).shares == [] && (s.port 47).inq == [x] && s.partials.isEmpty && s.routePort 3 == some 0 && s.accNum == 0) = true ∧
    imageSize (BitVec.ofNat 128 (ofBytes ((sendFlit0 17).payload.take 16))) = 4 := by
  decide +kernel

/-- A tree of two leaves and one stage on this accelerator; their streams of round 0, and a stream at the root. -/
def tree0 (acc : Nat) : Tree :=
  { num := 3, ten := 0, cap := 16, part := 0, leaves := [{ acc := acc, die := 0, parent := some 0, inp := 0 }, { acc := 2, die := 0, parent := some 0, inp := 1 }]
    stages := [{ acc := acc, die := 0, parent := none, inp := 0 }] }
def stream (stage inp ra : Nat) : Stream :=
  { tree := 3, round := 0, stage := stage, inp := inp, segs := [{ dense := false, first := 0, entries := [(1, 0x3F800000), (4, 0x40000000)] }]
    ra := word ra, vf := true, dz := false, thr := 0, marks := [(1, 0)], left := 0 }
def labStreams : State := { labTable with trees := [tree0 labTable.accNum], streams := [stream 0 0 0x100, stream 0 1 0x100, stream rootStage 0 0x100] }

theorem witness_ReductionTrees :
    (let s := labStreams
     let tr := tree0 s.accNum
     s.powered = true ∧ (s.trees.find? fun t => t.num == tr.num) = some tr ∧ s.stageIns tr 0 0 = some [stream 0 0 0x100, stream 0 1 0x100] ∧
     (stream 0 0 0x100).agrees (stream 0 1 0x100) = true ∧ (stream 0 0 0x200).agrees (stream 0 1 0x100) = false ∧ (tr.stages[0]?).any (fun st => st.acc == s.accNum && st.parent.isNone) ∧
     tr.lead (s.streams.filter fun x => x.tree == tr.num && x.round == 0 && x.stage == rootStage) = some (stream rootStage 0 0x100) ∧ s.mem.wf = true ∧
     (let n := 8 + ((fitRecords tr.cap (stream rootStage 0 0x100).segs 8).1.flatMap id).length
      (match s.rootPlace 0 0x100 n with | .keys ks => decide ks.Nodup && ks.all fun k => decide (k < 2 ^ 52) | _ => false) = true ∧
      -- a buffer on another accelerator, and one whose page faults, before its service and after it has failed
      (match s.rootPlace 0 0x1000 n with | .none => true | _ => false) = true ∧ (match s.rootPlace 0 0x2000 n with | .fault => true | _ => false) = true) ∧
     s.askOf (.comb 3 0) = none ∧ { s with asks := [{ who := .comb 3 0, failed := true }] }.askOf (.comb 3 0) = some { who := .comb 3 0, failed := true }) := by
  decide +kernel

/-- The step of R353 with T 2, E 1 and C 1, and a descriptor of it whose byte 0 of the deadline is `dl`. -/
def yStep (aff : List ((Nat × Nat) × BitVec 32)) (closed : Option Bool) : YStep :=
  { id := 9, num := 5, t := 2, e := 1, c := 1, add := 1, stat := 0x100, res := 0, meta_ := 0x200, itab := 0x300, dl := 1, aff := aff, malc := 0, nanc := 0
    closed := closed, miss := 0, bitmap := [true], waitRes := false, fault := false, since := 0, wrote := false }
/-- The gate-logit queue of die 3 with these entries and steps; the table of partition 0; the step descriptor at VA 0x400. -/
def labYelm (queue : List WindowWord) (steps : List YStep) (user : Bool) (w : List (Nat × Byte)) : State :=
  { (labGraph w []).modYelm 3 fun y => { y with queue := queue, steps := steps, part := some 0, user := user, qsel := 3 } with pcc := 1 }
/-- An entry that opens step 5, and an affinity of step 5 for a token. -/
def entO : WindowWord := BitVec.ofNat 512 (2 ^ 31 + 5 * 2 ^ 40 + 0x400 * 2 ^ 64)
def entA (tok step : Nat) : WindowWord := BitVec.ofNat 512 (tok + step * 2 ^ 40 + 2 ^ 52 + 0x3F800000 * 2 ^ 64)

/-- A user router on die 3 about to execute a word, with a1 and a2. -/
def labRouter (w a1 a2 : Nat) : State :=
  (labYelm [entA 1 6] [] true []).modYelm 3 fun y =>
    { y with scratch := y.scratch.writeBytes 0 (toBytes 4 w), rv := (y.rv.set 11 (word a1)).set 12 (word a2) }

theorem witness_YelmSteps :
    -- a step that opens (T 2, E 1, C 1 at bytes 48, 51 and 52) and one that is refused
    ([([(0x7430, 2), (0x7433, 1), (0x7434, 2)], false), ([], true)].all fun x =>
      let s := labYelm [entO] [] false x.1
      let y := s.yelm 3
      s.romServes 3 && s.errs == [] && y.queue == [entO] && entOpen entO && !entMal entO && decide (y.openSteps.length < 4) &&
      match s.ridgeRead (y.part.getD 0) (fld entO 119 64) 64 [] with
      | .bytes b => stepBad (fld entO 119 64) (BitVec.ofNat 512 (ofBytes b)) y (stepOf s.serial (entStep entO) (BitVec.ofNat 512 (ofBytes b))) == x.2
      | _ => false) = true ∧
    -- a malformed entry; a descriptor that cannot be read, and one whose page faults; a record for a refused step
    (let w : WindowWord := entO ||| BitVec.ofNat 512 (2 ^ 29)
     let s := labYelm [entO] [] false []
     entOpen w = true ∧ entMal w = true ∧ (s.yelm 3).readErr = false ∧ (s.yelm 3).part = some 0 ∧
     { s with errs := [{ place := .home 0x7400 0, bits := 2 }] }.ridgeRead 0 0x400 64 [] = .failed ∧ s.ridgeRead 0 0x2000 64 [] = .fault ∧
     s.yelmStoring 3 = false ∧ s.ridgeHome 0 .atomic 0 = some 0x7000 ∧ s.mem.wf = true) ∧
    -- an affinity for the last token of an open step, and one of no step
    (let s := labYelm [entA 1 5] [yStep [((0, 0), 0x3F800000)] none] false []
     let y := s.yelm 3
     let w := entA 1 5
     y.queue = [w] ∧ entOpen w = false ∧ y.openStep (entStep w) = some (yStep [((0, 0), 0x3F800000)] none) ∧ entMal w = false ∧ entSanf w = false ∧
     fld w 23 0 < 2 ∧ fld w 39 32 + fld w 55 52 ≤ 1 ∧ ¬((0, 0) = (fld w 23 0, fld w 39 32))) ∧
    (((labYelm [entA 1 6] [yStep [] none] false []).yelm 3).openStep (entStep (entA 1 6))) = none ∧
    -- complete, and at its deadline
    (let full := yStep [((0, 0), 0x3F800000), ((1, 0), 0x3F000000)]
     let s := labYelm [] [full none] false []
     (s.yelm 3).openStep 5 = some (full none) ∧ (full none).res = 0 ∧ (full none).aff.length = 2 * 1 ∧
     (let t := labYelm [] [yStep [] none] false []
      (t.yelm 3).openStep 5 = some (yStep [] none) ∧ (yStep [] none).aff.length ≠ 2 * 1 ∧ (yStep [] none).dl ≠ 0 ∧ (yStep [] none).dl ≤ t.pcc) ∧
     -- a residency bitmap that is read, that faults, that cannot be read
     (s.ridgeRead 0 0x100 1 [] = .bytes [0] ∧ s.ridgeRead 0 0x2000 1 [] = .fault ∧
      { s with errs := [{ place := .home 0x7100 0, bits := 2 }] }.ridgeRead 0 0x100 1 [] = .failed) ∧
     -- a bitmap on another accelerator, asked for and then read
     (let t := { full none with res := 0x1000 }
      let u := { t with closed := some false, waitRes := true }
      let s := labYelm [] [t] false []
      let v := labYelm [] [u] false []
      (s.yelm 3).openStep 5 = some t ∧ s.errs = [] ∧ s.ridgeRead 0 0x1000 1 [] = .short ∧
      (∀ z ∈ (v.yelm 3).openSteps, z.num ≠ 5) ∧ ((v.yelm 3).steps.find? fun z => z.num == 5 && z.waitRes) = some u ∧
      v.ridgeRead 0 0x1000 1 [1] = .bytes [1]) ∧
     -- a write of an output: where it may be written, where it faults
     ((s.ridgeSpan 0 .write 0x100 4).any (fun sp => !sp.remote && sp.keys.length == 4 && decide sp.keys.Nodup && sp.keys.all fun k => decide (k < 2 ^ 52)) = true ∧
      s.ridgeSpan 0 .write 0x2000 4 = none) ∧
     -- outputs
     (let t := full (some false)
      let s := labYelm [] [t] false []
      s.romServes 3 = true ∧ s.publishable 3 5 = some t ∧ t.wrote = false ∧ t.fault = false ∧ (s.yelmWrites 3 t.id t.outputs).2 = false ∧
      (s.yelmWrites 3 t.id t.outputs).1.yelmStoring 3 = false) ∧
     -- a step that ended in a fault, and one whose outputs are written
     (let t := { full (some false) with fault := true }
      let s := labYelm [] [t] false []
      s.publishable 3 5 = some t ∧ s.romServes 3 = true ∧ s.yelmStoring 3 = false) ∧
     (let t := { full (some false) with wrote := true }
      let s := labYelm [] [t] false []
      s.publishable 3 5 = some t ∧ s.endsSteps 3 t = true ∧ s.stepPending t = false)) := by
  decide +kernel

theorem witness_YelmRouters :
    -- a user router, and a processor that fails
    (let s := labYelm [entA 1 6] [] true []
     s.routerOn 3 3 = true ∧ (∀ j < 4, j ≠ 3 → (s.yelm j).server ≠ 3 ∧ (s.yelm j).user = false) ∧ s.yelmStoring 3 = false ∧ (s.yelm 3).qsel = 3 ∧ (s.yelm 3).queue ≠ [] ∧ (s.yelm 3).failed = false ∧ (s.yelm 0).failed = false) ∧
    -- its instructions: add a0, a1, a2; beq a1, a2, 16; ld a0, 0(a1); sd a2, 0(a1); an illegal one; and where the accesses go
    (labRouter 0 0 0).errs = [] ∧ (labRouter 0 0 0).rvFetch 3 = none ∧ (labRouter 0x00C58533 1 2).rvFetch 3 = some (.op false 0 0 10 11 12, 4) ∧
    (labRouter 0x00C58863 1 2).rvFetch 3 = some (.branch 0 11 12 16, 4) ∧
    (∀ a ∈ [0, 0x7FFF8, 0x200048, 0x80000, 0xFFFF8],
      (labRouter 0x0005B503 a 0).rvFetch 3 = some (.load 3 10 11 0, 4) ∧ (((labRouter 0x0005B503 a 0).yelm 3).rv.get 11 + 0).toNat = a) ∧
    (∀ a ∈ [0x200040, 0x200058, 0x100000, 0x10FFF8],
      (labRouter 0x00C5B023 a 1).rvFetch 3 = some (.store 3 11 12 0, 4) ∧ (((labRouter 0x00C5B023 a 1).yelm 3).rv.get 11 + 0).toNat = a ∧
      ((labRouter 0x00C5B023 a 1).yelm 3).rv.get 12 = 1) := by
  decide +kernel

/-- Instruction words of the RISC-V manual's formats, a compressed one beside the full one it stands for. -/
theorem test_router_words :
    rvDecode32 0xFE000EE3 = some (.branch 0 0 0 (-4)) ∧ rvDecode32 0x00B6352F = some (.amo 8 0 10 12 11 false) ∧
    rvDecode32 0x100532AF = some (.lr 8 5 10) ∧ rvDecode16 0x7139 = some (.opImm false false 0 2 2 (-64)) ∧
    rvDecode16 0x60A2 = some (.load 3 1 2 8) ∧ rvDecode16 0xA001 = some (.jal 0 0) := by
  decide +kernel

/-- A router that stores 1 to QCTL pops the head entry, and goes on behind the store. -/
theorem test_router_pops :
    (match runRouter 3 [] (labRouter 0x00C5B023 0x200040 1) with
     | .next t => (t.yelm 3).queue == [] && (t.yelm 3).frees == [9] && (t.yelm 3).rv.pc == 4
     | _ => false) = true := by
  decide +kernel

/-! ### The host -/

/-- The block with OPC, PART, arguments and data, next in sequence on the active port. -/
def told (s : State) (opc part : Nat) (args : List Nat) (data : List Byte := []) : State := { s with
  cmd := { port := s.unoon.active, opc := BitVec.ofNat 8 opc, status := 0, part := BitVec.ofNat 4 part, rsv := 0, seq := BitVec.ofNat 32 (nextSeq s.unoon.seq)
           a := Vector.ofFn fun k : Fin 7 => word (args[k.val]?.getD 0), data := data } }
/-- It names the command, and the package takes it. -/
def takes (s : State) (i : Instr) : Bool :=
  s.powered && decodeCommand s.cmd == i && s.linkUp s.cmd.port && s.unoon.await == none && s.unoon.pendq == [] && s.cmd.port == s.unoon.active &&
  (s.unoon.kept.all fun r => r.seq != s.cmd.seq.toNat) && s.cmd.seq.toNat == nextSeq s.unoon.seq && s.cmd.status == 0 && s.cmd.rsv == 0

theorem accepts_of_takes {s : State} {i : Instr} (h : takes s i = true) : s.accepts i := by
  simp only [takes, Bool.and_eq_true, beq_iff_eq, List.all_eq_true, bne_iff_ne, ne_eq] at h
  obtain ⟨⟨⟨⟨⟨⟨⟨⟨⟨p, d⟩, l⟩, w⟩, q⟩, a⟩, k⟩, n⟩, z⟩, r⟩ := h
  exact ⟨p, d, .inr ⟨l, w, q, a⟩, k, n, z, r⟩

/-- A command that still executes, in partition 0. -/
def labAwait : State := { lab with unoon := { lab.unoon with await := some (Command.none, .destroy 0) } }

theorem witness_LinksPowerProtocol :
    ({ lab with powered := false } : State).powered = false ∧ lab.powered = true ∧ lab.linkUp lab.unoon.active = true ∧
    (let s : State := { lab with unoon := { lab.unoon with down := vset lab.unoon.down 0 (some 0) }, pcc := 2 ^ 20 }
     s.linkUp 0 = false ∧ s.unoon.active = 0 ∧ vget s.unoon.down 0 none = some 0 ∧ 0 + 2 ^ 20 ≤ s.pcc ∧ s.linkUp (1 - 0) = true) ∧
    -- a command behind one that executes, on the standby port, kept, out of order, with reserved bits
    (labAwait.unoon.await ≠ none ∧ labAwait.linkUp labAwait.cmd.port = true ∧ labAwait.cmd.port = labAwait.unoon.active ∧ labAwait.unoon.again = false) ∧
    -- one that waited behind another
    (let s : State := { lab with unoon := { lab.unoon with again := true, seq := 7 }, cmd := { Command.none with seq := 8, rsv := 1 } }
     s.unoon.again = true ∧ (∀ r ∈ s.unoon.kept, r.seq ≠ s.cmd.seq.toNat) ∧ s.cmd.seq.toNat = nextSeq s.unoon.seq ∧ s.cmd.rsv ≠ 0) ∧
    (let s : State := { lab with cmd := { Command.none with port := 1 } }
     s.unoon.await = none ∧ s.linkUp 1 = true ∧ s.cmd.port ≠ s.unoon.active) ∧
    (let r := respond { Command.none with seq := 7 } 0 [] []
     let s : State := { lab with unoon := { lab.unoon with kept := [r], seq := 7 }, cmd := { Command.none with seq := 7 } }
     s.cmd.port = s.unoon.active ∧ (s.unoon.kept.find? fun r => r.seq == s.cmd.seq.toNat) = some r) ∧
    (let s : State := { lab with unoon := { lab.unoon with seq := 7 }, cmd := { Command.none with seq := 7 } }
     (∀ r ∈ s.unoon.kept, r.seq ≠ s.cmd.seq.toNat) ∧ s.cmd.seq.toNat ≠ nextSeq s.unoon.seq) ∧
    (let s : State := { lab with unoon := { lab.unoon with seq := 7 }, cmd := { Command.none with seq := 8, rsv := 1 } }
     (∀ r ∈ s.unoon.kept, r.seq ≠ s.cmd.seq.toNat) ∧ s.cmd.seq.toNat = nextSeq s.unoon.seq ∧ s.cmd.rsv ≠ 0) := by
  decide +kernel

theorem witness_PartitionCommands :
    -- partition 1 is free, partition 0 is not
    (let s := labTable
     (s.part 0).isSome = true ∧ s.part 1 = none ∧ s.errs = [] ∧ s.mem.wf = true ∧ (List.range 16).all (fun q => (s.part q).all fun r => r.clusters &&& 2 == 0) ∧
     takes (told s 0x10 0 []) .reservedCommand ∧ takes (told s 1 1 [2, 4095]) .pcreate ∧ takes (told s 2 1 []) .pdestroy ∧ takes (told s 2 0 []) .pdestroy ∧
     takes (told s 3 1 [0x1000]) .ptroot ∧ takes (told s 3 0 [0x1000]) .ptroot ∧ takes (told s 4 0 [2 ^ 64 - 1]) .ptinv ∧ takes (told s 4 0 [0]) .ptinv ∧
     takes (told s 0x0C 0 [3, 0]) .ycfgAssignQueue ∧ takes (told s 7 0 [0x7000, 4096]) .memr ∧ takes (told s 6 0 [0x7000, 1] [5]) .memw ∧
     takes (told s 0x0D 0 [3, 64, 48, 20, 85]) .govset ∧ takes (told s 0x0D 0 [0, 320, 255, 40, 100]) .govset ∧ takes (told s 0x0D 1 [0, 0, 0, 0, 0]) .govset ∧
     takes (told s 0x0F 0 [1]) .reset) ∧
    -- a partition whose end is waited for, and which runs nothing
    (let s : State := { labTable.modCore 0 fun c => { c with inst := none, phase := .idle } with unoon := { lab.unoon with await := some (Command.none, .destroy 0) } }
     s.powered = true ∧ s.arrived = none ∧ s.partQuiet 0 = true ∧ (s.part 0).isSome = true ∧ (s.yelm 0).part ≠ some 0) ∧
    (let s := labTable.modYelm 3 fun y => { y with part := some 0 }
     takes (told s 0x0C 0 [3, 1, 0, 1]) .ycfgLoadRouter ∧ takes (told s 0x0C 0 [3, 1, 0, 2 ^ 19]) .ycfgLoadRouter ∧ (s.yelm 3).part = some 0 ∧
     (s.yelm 3).server = 3 ∧ 2 ^ 19 ≤ Config.localLimit) := by
  decide +kernel

/-- An image header of R113 with one word of code at 64 and 4 bytes of data at 128; with it the page of VA 0. -/
def imageHead : WindowWord := BitVec.ofNat 512 (0x38464A4B + 2 ^ 32 + 2 ^ 128 + 64 * 2 ^ 224 + 128 * 2 ^ 320 + 4 * 2 ^ 352)
/-- Home memory from 0x8000 on holds it, and from 0x9000 on the word of a graph's end node. -/
def labImage (head : WindowWord) : State :=
  let s := labGraph [] []
  { s with graphs := [], mem := s.mem ++ (((List.range 64).map fun k => (0x8000 + k, BitVec.ofNat 8 (head.toNat / 2 ^ (8 * k)))) ++ [(0x8040, (0xFF : Byte)), (0x9000, 5)]).filter (fun c => c.2 != 0) }

theorem witness_ImageAndGraphCommands :
    (let s := labImage imageHead
     let x : WindowWord := BitVec.ofNat 512 (s.readNat 0x8000 64)
     s.errs = [] ∧ s.mem.wf = true ∧ takes (told s 8 0 [0x8000, 0x100]) .imgload ∧ (s.part 0).isSome = true ∧ imageOk x = true ∧
     0x8000 + (imageHeader x).extent ≤ Config.localLimit ∧ (imageHeader x).datlen = 4 ∧ freeKey s.images 4096 = some 0 ∧
     (s.ridgeSpan 0 .read 0x100 4).any (fun sp => !sp.remote && decide sp.keys.Nodup && sp.keys.all fun z => decide (z < 2 ^ 52)) ∧
     imageOk (BitVec.ofNat 512 ((labImage 0).readNat 0x8000 64)) = false ∧
     takes (told s 9 0 [4095]) .imgfree ∧ assoc s.images 4095 = none ∧ takes (told s 9 0 [6]) .imgfree ∧ (assoc s.images 6).isSome = true ∧ s.imageUsed 6 = false ∧
     takes (told s 0x0A 0 [0x9000, 1, 0x200]) .gsubmit ∧ freeKey s.graphs 64 = some 0 ∧ graphOk [BitVec.ofNat 512 (s.readNat 0x9000 64)] = true ∧
     graphOk [BitVec.ofNat 512 (s.readNat 0x8000 64)] = false) ∧
    (let s := labGraph [] [node (nodeWord 0 0 0 0 0) .ready]
     s.imageUsed 6 = true ∧ takes (told s 0x0B 0 [4]) .gabort ∧ (assoc s.graphs 4).any (fun g => g.part == 0) ∧ takes (told s 0x0B 1 [4]) .gabort) ∧
    -- a graph that an abort has waited for is gone
    (let s : State := { labImage imageHead with unoon := { lab.unoon with await := some (Command.none, .graph 4) } }
     s.powered = true ∧ s.arrived = none ∧ s.errs = [] ∧ assoc s.graphs 4 = none) ∧
    (let s := { labTable with graphs := (List.range 64).map fun k => (k, { part := 0, order := 0, record := 0, nodes := [], status := 0, sent := false }) }
     freeKey s.graphs 64 = none ∧ takes (told s 0x0A 0 [0x9000, 4096, 0x200]) .gsubmit) := by
  decide +kernel

theorem witness_FabricCommands :
    [([0, 0, 4095, key2.toNat + 2 ^ 20], Instr.fabcfgKeyEntry), ([0, 47, 0, 2 ^ 20], .fabcfgKeyEntry), ([0, 63, 0, 0], .fabcfgKeyEntry),
     ([1, 0, 255, 255], .fabcfgShareEntry), ([1, 47 + 256, 0, 1 + 2 ^ 63], .fabcfgShareEntry), ([2, 47, 2, 0], .fabcfgPortMode), ([2, 0, 0, 0], .fabcfgPortMode), ([2, 63, 1, 0], .fabcfgPortMode),
     ([3, 4095, 65535, 0], .fabcfgOutboundKey), ([4, 0, 9216, 0], .fabcfgDomainSize), ([4, 0, 1, 0], .fabcfgDomainSize), ([4, 1, 2 ^ 14 - 1, 2 ^ 48 - 1], .fabcfgRoute),
     ([4, 1, 0, 0], .fabcfgRoute), ([4, 2, 9215, 0], .fabcfgOwnAccelerator), ([5, 65535, 0, 0], .fabcfgReductionTree), ([6, 47, 1023, 2 ^ 63 + 4095], .fabcfgUalinkSource),
     ([6, 0, 0, 0], .fabcfgUalinkSource), ([7, 47, 4095, 0], .fabcfgLiftFence), ([8, 63, 1, 0], .fabcfgLaneThreshold), ([8, 0, 1048575, 0], .fabcfgLaneThreshold)].all
      (fun x => takes (told lab 5 0 x.1) x.2) = true ∧
    lab.sends = [] ∧ lab.partials = [] ∧
    (let q := (labPort 47 4 true [(5, { flit 0 0 8 [] with src := 0 })] []).port 47
     q.mode ≠ 2 ∧ q.inq = [] ∧ q.outq.all (fun x => x.2.src == 0 && flIsRequest x.2) = true) ∧ (∀ k < 48, (lab.port k).up = false) ∧ ((labPort 47 4 true [] []).port 47).up = true ∧ fld key2 59 56 = 0 ∧ fld key2 19 0 ≤ fld key2 39 20 := by
  decide +kernel

theorem witness_Queries :
    [(0, 0, Instr.queryPcc), (1, 0, .querySpares), (2, 0, .queryPartition), (3, 47, .queryPortTenant), (4, 3, .queryYelmQueue), (5, 0, .queryRepairReport),
     (5, 99, .queryRepairReport), (6, 0, .queryTemperature), (7, 0, .queryErrorCounts)].all (fun x => takes (told labTable 0x0E 0 [x.1, x.2.1]) x.2.2) = true ∧
    (labTable.part 0).isSome = true ∧ labTable.part 1 = none ∧ (labTable.reports[0]?).isSome = true ∧ labTable.reports.length ≤ 99 ∧
    (let dies := fun f : Die → Nat => word (((List.range 4).map fun k => f (labTable.die k) % 256 * 2 ^ (8 * k)).foldl (· + ·) 0)
     [Die.spareCores, Die.spareSlices, Die.temp, Die.throttleAt].all fun f =>
       (List.range 4).all fun k => fld (dies f) (8 * k + 7) (8 * k) == f (labTable.die k) % 256) ∧
    (∀ k < 64, bit (0xFFFF : Word) k = (decide (k < 16) && vget labTable.reserve k false)) := by
  decide +kernel

/-! ### The machine as a whole -/

theorem witness_SelRule :
    ready lab [.sel (hd .S) { rd := 3, ra := 1, rb := 2, pa := 1 }] (lab.sOk 1 && lab.sOk 2) (lab.putS 3 1 0) ∧ (hd .S).slot = .S ∧ (hd .S).tag ≠ 7 := by
  decide +kernel

theorem witness_FallThroughRule :
    -- a dictionary code, an escape, and a bundle at issue
    ([(0 : BitVec 16)][0]? = some 0 ∧ fetchCode [0] [0] 0 = .bundle (decodeBundle 0) 1) ∧
    fetchCode [] (0xFFFF :: List.replicate 24 0) 0 = .bundle (decodeBundle 0) 25 ∧ lab.cur < 256 ∧ lab.clear = true ∧ lab.fits [] = true := by
  decide +kernel

theorem witness_DecodeEncode :
    (Instr.add (hd .S) sr).hdr? = some (hd .S) ∧ (Instr.add (hd .S) sr).wf = true ∧ (decodeSlot .S 0x00602418880000).hdr?.isSome = true := by
  decide +kernel

/-- A word that holds `add s3, s1, s2` and nothing else. -/
def addWord : Nat := 0xFFFF + 65536 * (placeSlot .S (encode (.add (hd .S) sr))).toNat

theorem witness_StepRunsTheDecoded :
    -- an escape; a code of the dictionary; a code beyond it; a position beyond the stream; nothing to run
    (let s := State.reset.withFetchWord 400 addWord
     s.powered = true ∧ s.arrived = none ∧ s.hostDue = none ∧ s.nextCommand = none ∧ s.dueEvent = none ∧ s.readyCores = [0] ∧ s.arrival [0] = none ∧
     decodeTableWord 400 addWord = some (.add (hd .S) sr) ∧
     (∀ k < 25, (s.core 0).stream[(s.core 0).pos + k]? = some (BitVec.ofNat 16 (addWord >>> (16 * k)))) ∧
     (let t := s.modCore 0 fun c => { c with dict := [placeSlot .S (encode (.add (hd .S) sr))], stream := [0] }
      t.readyCores = [0] ∧ t.arrival [0] = none ∧ t.dueEvent = none ∧ (t.core 0).stream[(t.core 0).pos]? = some 0 ∧
      ((t.core 0).dict[0]?).any fun b => soleOp (decodeBundle b) == some (.add (hd .S) sr)) ∧
     (let t := s.modCore 0 fun c => { c with stream := [4096] }
      t.readyCores = [0] ∧ t.arrival [0] = none ∧ (t.core 0).stream[(t.core 0).pos]? = some 4096 ∧ 4096 ≤ (4096 : BitVec 16).toNat ∧ (4096 : BitVec 16) ≠ 0xFFFF) ∧
     (let t := s.modCore 0 fun c => { c with stream := [] }
      t.readyCores = [0] ∧ t.arrival [0] = none ∧ (t.core 0).stream.length ≤ (t.core 0).pos)) ∧
    (State.reset.readyCores = [] ∧ State.reset.arrived = none ∧ State.reset.dueEvent = none ∧ State.reset.hostDue = none ∧ State.reset.nextCommand = none) ∧
    -- an event that is due; an input of each kind
    (let s := lab.modCore 0 fun c => { c with stallEnd := some 0 }
     s.arrived = none ∧ s.hostDue = none ∧ s.nextCommand = none ∧ s.dueEvent.isSome = true) ∧
    isEvent .powerLoss = true := by
  decide +kernel

theorem witness_MemoriesStayCanonical :
    (State.reset.mem.wf = true ∧ (∀ k < 64, (State.reset.cluster k).sram.wf = true) ∧ ∀ k < 4, (State.reset.yelm k).scratch.wf = true) ∧
    (match step State.reset with | .next _ => true | _ => false) = true := by
  decide +kernel

/-! ### Results: worked examples of the spec, and values worked out by hand from its rules -/

/-- The operation writes this register, value and latency, with these flags. -/
def writes (i : Instr) (s : State) (l : Land) (lat : Nat) (flags : Flags := 0) : Bool :=
  answers i s (core0 fun c => c.flight.any fun f => f.land == l && f.due == lat && f.flags == flags)

/-- R118: sums wrap at 2^64, `.w` sign-extends bit 31, `.sat` clamps and sets SAT, a shift count is taken modulo 64 or 32. -/
theorem test_scalar_sums_and_shifts :
    writes (.add (hd .S) sr) (labS [(1, 2 ^ 64 - 1), (2, 2)]) (.s 3 1) 1 ∧
    writes (.add (hd .S) { sr with mod := 1 }) (labS [(1, 0x7FFFFFFF), (2, 1)]) (.s 3 0xFFFFFFFF80000000) 1 ∧
    writes (.add (hd .S) { sr with mod := 2 }) (labS [(1, 2 ^ 63 - 1), (2, 1)]) (.s 3 0x7FFFFFFFFFFFFFFF) 1 flagSat ∧
    writes (.sub (hd .S) sr) (labS [(1, 0), (2, 1)]) (.s 3 0xFFFFFFFFFFFFFFFF) 1 ∧
    writes (.sll (hd .S) sr) (labS [(1, 1), (2, 65)]) (.s 3 2) 1 ∧ writes (.srl (hd .S) { sr with mod := 1 }) (labS [(1, 0x80000000), (2, 32)]) (.s 3 0xFFFFFFFF80000000) 1 ∧
    writes (.sra (hd .S) sr) (labS [(1, 2 ^ 63), (2, 63)]) (.s 3 0xFFFFFFFFFFFFFFFF) 1 ∧ writes (.shadd (hd .S) { sr with mod := 3 }) (labS [(1, 5), (2, 7)]) (.s 3 47) 1 ∧
    writes (.min (hd .S) sr) (labS [(1, 2 ^ 64 - 1), (2, 1)]) (.s 3 0xFFFFFFFFFFFFFFFF) 1 ∧ writes (.minu (hd .S) sr) (labS [(1, 2 ^ 64 - 1), (2, 1)]) (.s 3 1) 1 ∧
    writes (.clz (hd .S) { sr with rb := 0 }) (labS []) (.s 3 64) 1 ∧ writes (.ctz (hd .S) { sr with rb := 0 }) (labS [(1, 8)]) (.s 3 3) 1 := by
  decide +kernel

/-- R118, R120, R121: high products, quotients by 0 and of the most negative number, fields. -/
theorem test_scalar_products_and_fields :
    writes (.mulh (hd .S) sr) (labS [(1, 2 ^ 64 - 1), (2, 2)]) (.s 3 0xFFFFFFFFFFFFFFFF) 3 ∧ writes (.mulhu (hd .S) sr) (labS [(1, 2 ^ 64 - 1), (2, 2)]) (.s 3 1) 3 ∧
    writes (.div (hd .S) sr) (labS [(1, 7), (2, 0)]) (.s 3 0xFFFFFFFFFFFFFFFF) 12 ∧ writes (.rem (hd .S) sr) (labS [(1, 7), (2, 0)]) (.s 3 7) 12 ∧
    writes (.div (hd .S) sr) (labS [(1, 2 ^ 63), (2, 2 ^ 64 - 1)]) (.s 3 0x8000000000000000) 12 ∧ writes (.div (hd .S) sr) (labS [(1, 2 ^ 64 - 7), (2, 2)]) (.s 3 0xFFFFFFFFFFFFFFFD) 12 ∧
    writes (.bext (hd .S) { sr with mod := 1 }) (labS [(1, 0xF0), (2, 0x0404)]) (.s 3 0xFFFFFFFFFFFFFFFF) 1 ∧
    writes (.bins (hd .S) sr) (labS [(1, 0xA), (2, 0x0404), (3, 0x123)]) (.s 3 0x1A3) 1 := by
  decide +kernel

/-- R135, the example: buckets 16, 32 and 64 and a length of 40, 16 and 65. -/
theorem test_bsel_example :
    (let s := fun n => labS [(7, n), (40, 0x0000012000000010), (41, 0x0000020000000020), (42, 0x0000030000000040)]
     let i := Instr.bsel (hd .S) { rd := 0, ra := 7, rb := 40, imm := 1 * 2 ^ 12 + 4 * 2 ^ 8 + 2 * 2 ^ 4 + 3 }
     let bound := fun n => core0 fun c => vget c.r.d 2 none == some n
     answers i (s 40) (bound 64) ∧ writes i (s 40) (.b 4 0x300) 1 ∧ writes i (s 40) (.pad 1 24) 1 ∧
     answers i (s 16) (bound 16) ∧ writes i (s 16) (.b 4 0x120) 1 ∧ writes i (s 16) (.pad 1 0) 1 ∧
     answers i (s 65) (core0 fun c => vget c.r.d 2 none == none && c.x.synd0 == 0x20 && c.x.synd1 == 64 && c.x.synd2 == 65)) := by
  decide +kernel

/-- R66, the example: row 3 of CBT0 holds 0xE41B; indices 0x0316 and 0x0317, in halves. -/
theorem test_codebook_example :
    (let t : Vector (BitVec 16) 256 := vset (Vector.replicate 256 0) 3 0xE41B
     let halves := fun n : Machine.Num => match n with | .fin s m e => if -1 ≤ e then some ((if s then -1 else 1) * (m * 2 ^ (e + 1).toNat : Int)) else none | _ => none
     (List.range 8).map (fun k => halves (cbWeight t 0x0316 k)) = [-7, -5, 3, -1, 1, 3, 5, -7].map some ∧
     (List.range 8).map (fun k => halves (cbWeight t 0x0317 k)) = [-6, -4, 2, 0, 0, 2, 4, -6].map some) := by
  decide +kernel

/-- R45, the example: an M × 16 BF16 row-major tile whose extent 0 names d0. -/
theorem test_type_word_example :
    (let t : TypeWord := 0xA4000000000000000001000100108000
     tyValid t ∧ tyRank t = 1 ∧ tyFmt t = 4 ∧ tyExt t 0 = 0x8000 ∧ tyExt t 1 = 16 ∧ tyExt t 2 = 1 ∧ tyExt t 3 = 1) := by
  decide +kernel

/-- R236, the example: a push at 0x0000_0150_0000_0100. -/
theorem test_copy_time_example :
    absTime 0x0000015000000100 0 = 0 ∧ absTime 0x0000015000000100 0x5000000400 = 0x0000015000000400 ∧
    absTime 0x0000015000000100 0x4FFFFFFF00 = 0x0000014FFFFFFF00 ∧ absTime 0x0000015000000100 0x0000000010 = 0x0000010000000010 := by
  decide +kernel

/-- R275, the example: 16 elements, `xquant` to FP4 with blocks of 16 and threshold 10. -/
theorem test_xquant_example :
    (let f := [0x3F800000, 0xC0200000, 0x40400000, 0x41400000, 0x3E4CCCCD, 0x40A00000, 0xC2200000, 0, 0, 0, 0, 0, 0, 0, 0, 0x40E00000]
     let data : TileData := BitVec.ofNat 65536 (f.reverse.foldl (fun a x => a * 2 ^ 32 + x) 0)
     let src : TypeWord := 0b1_00#3 ++ 2#5 ++ 0#56 ++ (1#16 ++ 1#16 ++ 1#16 ++ 16#16 : BitVec 64)
     let s := (labS [(24, 0x4120000000000000 + 1 * 2 ^ 10 + 1 * 2 ^ 5 + 7)]).modCore 0 fun c =>
       { c with r := { c.r with t := vset c.r.t 3 data, ty := vset c.r.ty 3 src }
                e := { c.e with sba := 0x3F800000, st := #v[0x3F00, 0x3F80, 0x4000, 0x4080, 0x4080, 0x4080, 0x4080, 0x4080, 0x4080, 0x4080, 0x4080, 0x4080, 0x4080, 0x4080, 0x4080, 0x4080] } }
     answers (.xquant (hd .X) (xf 5 3)) s (core0 fun c => c.flight.any fun g => g.due == 10 && g.flags == (flagNX ||| flagUF) && match g.land with
       | .t 5 d ty => fld d 63 0 == 0x60000000084083A1 && fld d 263 256 == 0x02 && fld d 65535 65472 == 0x4140000000000003 && fld d 65471 65408 == 0xC220000000000006 &&
           tyOcnt ty == 2 && tyFmt ty == 7
       | _ => false)) := by
  decide +kernel

/-! ### Further clauses of the statements: a state and operands for each -/

/-- A wrapping sum of zeros raises no flag at any step of the tree or of the scan. -/
theorem witness_ReductionsAndScans_flags :
    (let items := (List.range 64).map fun j => if active (lab.mv 0) 32 j then elem 32 (lab.vv 6) j else 0
     let f := fun a b : Nat => (wrap 32 (sgn 32 a + sgn 32 b), (0 : Flags))
     let level : Nat → Nat → Nat := fun k => Nat.rec (fun i => items.getD i 0) (fun _ below i => (f (below (2 * i)) (below (2 * i + 1))).1) k
     let prefix_ : Nat → Nat := fun j => Nat.rec (items.getD 0 0) (fun k before => (f before (items.getD (k + 1) 0)).1) j
     (∀ b < 6, bit (0 : Flags) b = true ↔ ∃ k < 6, ∃ i < 2 ^ (5 - k), bit (f (level k (2 * i)) (level k (2 * i + 1))).2 b = true) ∧
     ∀ b < 6, bit (0 : Flags) b = true ↔ bit (0 : Flags) b = true ∨ ∃ k < 63, bit (f (prefix_ k) (items.getD (k + 1) 0)).2 b = true) := by
  simp [bit]

theorem witness_AtomicsFifosYpush_traps :
    -- an address beyond the scratchpads, one that is misaligned, one in a bank that is a cache
    [(2 ^ 22 : Nat), 2, 0].all (fun a =>
      let s := labS [(1, a)]
      ready s [.vatom (hd .V1) { vs 4 with sa := 1 }] (s.sOk 1 && s.vOk 0 && s.vOk 5 && s.sv 1 == word a && elem 32 (s.vv 0) 0 == 0 && bit (s.mv 0) 0 &&
        !bankMine s.atIssue 0 0)) ∧
    -- a FIFO operation on a bank that is no FIFO of the core
    ready lab [.fpush (hd .V1) (vs 0), .fpop (hd .V1) (vs 0)] (lab.sOk 0 && lab.vOk 5 && ((lab.atIssue.cluster 0).bank 0).mode != .fifo) := by
  decide +kernel

theorem witness_AtomicsFifosYpush_values :
    -- a signalling NaN and an ordinary number
    (let nan := fun x : BitVec 32 => decide (0x7F800000 < x.toNat % 2 ^ 31)
     nan 0x7F800001 = true ∧ nan 0xBF800000 = false) ∧
    -- a queue without a partition and one with; an entry and a mark
    (State.reset.yelm 0).part = none ∧ ({ (State.reset.yelm 0) with part := some 15 } : Yelm).part = some 15 ∧
    (0 : WindowWord).getLsbD 31 = false ∧ (BitVec.ofNat 512 (2 ^ 31) : WindowWord).getLsbD 31 = true := by
  decide +kernel

/-- Tiles 3 and 4 hold FP32 values, the pipeline is taken for three more cycles. -/
def labBusy : State := (labTile 0).modCore 0 fun c => { c with e := { c.e with occ := 3 } }

theorem witness_MatrixMultiply_traps :
    -- `.sat` on FP32 rows and on the codebook multiply
    ready (labTile 0) [.tmma (hd .M) { mf 3 5 4 with mod := 2 }, .tmmas (hd .M) { mf 3 5 4 with mod := 2 }, .tmmac (hd .M) { mf 0 5 1 with mod := 2 }]
      ((labTile 0).mReady 0 3 && (labTile 0).mReady 0 4 && (labTile 0).tOk 5 && (labTile 0).mReady 0 0 && (labTile 0).mReady 0 1 &&
        !int32Row ((labTile 0).mOpnd 0 3).ty ((labTile 0).mOpnd 0 4).ty) ∧
    -- inside the occupancy of the last operation
    ready labBusy [.tmma (hd .M) (mf 0 2 1), .tmmas (hd .M) (mf 0 2 1), .tmmac (hd .M) (mf 0 2 1), .tzero (hd .M) (mf 0 2 0)]
      (labBusy.mReady 0 0 && labBusy.mReady 0 1 && labBusy.tOk 2 && labBusy.me.e.occ == 3) ∧
    -- the corner of a 2 × 2 product of FP64
    64 * (2 * 2) ≤ 65536 := by
  decide +kernel

theorem witness_MatrixMultiply_exactSum :
    -- infinities of both signs, of one sign, a NaN; a sum of 0 and one of 1
    (let pos := fun l : List Machine.Num => l.any (· == .inf false)
     let neg := fun l : List Machine.Num => l.any (· == .inf true)
     let bad := fun l : List Machine.Num => l.any Num.isNan || (pos l && neg l)
     bad [.inf false, .inf true] = true ∧ bad [.nan true] = true ∧ (bad [.inf false] = false ∧ pos [.inf false] = true) ∧
     (bad [.inf true] = false ∧ neg [.inf true] = true) ∧ (bad [] = false ∧ pos [] = false ∧ neg [] = false) ∧
     (bad [.fin false 1 0] = false ∧ pos [.fin false 1 0] = false ∧ neg [.fin false 1 0] = false)) ∧
    ([Machine.Num.fin false 1 0].map fun t => match t with | .fin s n e => (if s then -1 else 1) * (n * 2 ^ (e - (0 : Int)).toNat : Int) | _ => 0).sum = 1 ∧
    ∀ t ∈ [Machine.Num.fin false 1 0], ∀ s n e, t = .fin s n e → (0 : Int) ≤ e := by
  refine ⟨by decide, by decide, fun t ht s n e h => ?_⟩
  rw [List.mem_singleton.1 ht] at h
  cases h
  exact Int.le_refl 0

/-- A type word of two extents under ESC or of a codebook (R45). -/
def tyX (fmt : Nat) (esc : Bool) (ocnt a b : Nat) : TypeWord :=
  mkTy 1 fmt 0 0 false esc ocnt 0 0 (1#16 ++ 1#16 ++ BitVec.ofNat 16 b ++ BitVec.ofNat 16 a)
/-- Tile 3 holds these data under this type. -/
def labX (ty : TypeWord) (data : Nat) : State := (labTile 0).modCore 0 fun c =>
  { c with r := { c.r with ty := vset c.r.ty 3 ty, t := vset c.r.t 3 (BitVec.ofNat 65536 data) } }
/-- The outlier list of the transposed tile 3. -/
def poseOuts (s : State) (g : Geo) : List (BitVec 64) :=
  let codes := g.codes (s.tv 3)
  let ranks := (escRanks (escCode g.fmt) codes 0).toArray
  poseOutliers (tyOcnt (s.tyv 3)) (s.tv 3) (((List.range g.count).map (poseIndex g)).zipIdx.filterMap fun q => (ranks[q.1]?.getD none).map fun r => (q.2, r))

theorem witness_TileTransforms_escapes :
    -- a codebook tile; a tile with two escapes and one entry; one with 66 escapes and 64 entries, the 33rd of which becomes the 65th
    [(labX (tyX 12 false 0 16 16) 5, 0), (labX (tyX 10 true 1 2 4) 0x8080, 1), (labX (tyX 10 true 64 2 33) ((2 ^ 528 - 1) / 255 * 128), 65)].all (fun x =>
      ready x.1 [.xpose (hd .X) (xf 5 3)] (x.1.tOk 3 && tySgeo (x.1.tyv 3) == 0 && tyDens (x.1.tyv 3) == 0) [x.1.lands 6 (.t 5 0 0)] &&
      match (do let g ← xSource 3 (x.1.tyv 3)
                needCond (decide (1 ≤ tyRank (x.1.tyv 3))) (tileOpnd 0 3) 4 1
                let gn ← checkResult 5 (swapExts (x.1.tyv 3))
                pure (g, gn)).run x.1.me.r.d with
      | .ok ((g, _), _) => g.fmt == 12 || (poseOuts x.1 g).length == x.2
      | .error _ => false) = true := by
  decide +kernel

theorem witness_TileTransforms_outliers :
    -- an entry of an escape, and one that only the source has
    ((poseOutliers 2 0 [(3, 0)]).length = 2 ∧ [((3 : Nat), (0 : Nat))][0]? = some (3, 0) ∧ [((3 : Nat), (0 : Nat))][1]? = none ∧
      (poseOutliers 2 0 [(3, 0)])[1]? = some 0) := by
  decide +kernel

/-- A row of 32 INT8 codes in two blocks. -/
def geo8 : Geo := { ext := [32], rank := 0, outer := 1, r1 := 1, r0 := 32, fmt := 10, layout := 0, sgeo := 1, sidx := true, esc := true, ocnt := 0, dens := 0, seed := 0 }
/-- Three numbers of it, one of them a NaN. -/
def nums3 : List (Nat × Machine.Num) := [(0, .fin false 1 0), (1, .fin true 3 0), (2, .nan false)]

theorem witness_TileArithmetic_election :
    -- candidates above 2.0, and the largest of each block
    ((nums3.map (·.1)).Nodup ∧ fld (word (2 ^ 62 + 2 ^ 10)) 11 10 = 1 ∧ fld (word (2 ^ 32 + 2 ^ 11)) 11 10 = 2 ∧ fld (word 0) 11 10 = 0 ∧
      (∀ v ∈ nums3, geo8.blockOf v.1 < geo8.blocks) ∧ ((nums3.take 2).map (·.1)).Nodup ∧ ∀ v ∈ nums3.take 2, v.2.isNan = false) ∧
    -- scales of 1.0, which reach 127.0 and do not reach an infinity
    (let z : Scales := { base := 0x3F800000, st := Vector.replicate 16 0x3F80 }
     (∀ i < 16, (z.get i).isNan = false) ∧ magLt ((z.get 0).mul (Num.ofInt (fmaxOf 10))) (.fin false 1 0) = false ∧
     (∀ i < 16, magLt ((z.get i).mul (Num.ofInt (fmaxOf 10))) (.inf false) = true)) ∧
    -- the largest plain number of the block
    ((nums3.filter fun v => geo8.blockOf v.1 == 0 && !v.2.isNan).foldl (fun (a : Machine.Num) v => if magLt a v.2 then v.2.abs else a) (.fin false 0 0) = .fin false 3 0) ∧
    -- formats of floating point and of integers; an escape code made plain
    (ffmtOf 4).isSome = true ∧ ffmtOf 10 = none := by
  decide +kernel

/-- No page is translated; `f` applied to the core. -/
def labMiss (f : Core → Core) : State := (labWin.modCluster 0 fun k => { k with tlb := [] }).modCore 0 f
/-- The walks of these pages found no page. -/
def labFault (pages : List Nat) : State := labMiss fun c => { c with mem := { c.mem with walks := pages.map fun p => (p, some { kind := 0, level := 0, entry := 0 }) } }
/-- A page of the ranges is missing; or the lowest of them faults. -/
def misses (s : State) (a : Access) (r : List (Nat × Nat)) : Bool := !(spanOf (s.atIssue.page s.cur a) r).2.1.isEmpty
def faults (s : State) (a : Access) (r : List (Nat × Nat)) : Bool := let x := spanOf (s.atIssue.page s.cur a) r; x.2.1.isEmpty && x.2.2.isSome

theorem witness_pagesMissedAndFaulted :
    -- every kind of access: scalar, vector, atomic, `waitge`
    ([Access.read, .write, .atomic].all fun a => misses (labMiss id) a [(0x200000, 8)] && faults (labFault [0x200]) a [(0x200000, 8)]) ∧
    ([labMiss id, labFault [0x200]].all fun s => ready s ([Instr.ld, .st, .vldm, .vstm, .waitge].map fun k => k (hd .C0) (ci 1 0))
      (s.sOk 1 && s.sOk 5 && s.vOk 5 && s.me.preempt.isNone && s.me.mem.gate.isEmpty)) ∧
    -- a box
    ([Access.read, .write].all fun a =>
      let r := boxRanges (labWin.windowOf 0) (ty2 2 2 32) [2, 32, 1, 1] [0, 0, 0, 0]
      misses (labMiss id) a r && faults (labFault [0x200]) a r) ∧
    -- a slot of the spill ring of a channel with 16 entries
    (let full := fun s : State => s.modCore 0 fun c => { c with spr := vset c.spr 0 0x200000
                                                                ch := vset c.ch 0 { (vget c.ch 0 default) with queue := List.replicate 16 (entry .copy 1 2 3) } }
     [full (labMiss id), full (labFault [0x200])].all (fun s => (vget s.me.ch 0 default).queue.length == 16 && s.me.ringVa 0 == 0x200000) ∧
     misses (full (labMiss id)) .write [(0x200000, 64)] ∧ faults (full (labFault [0x200])) .write [(0x200000, 64)]) := by
  decide +kernel

theorem witness_TileLoadsAndStores_started :
    tld0.asked = true ∧ ((labWin.core 0).mem.loads.all fun x => x.asked) ∧ ((labWin.core 0).mem.tlds.all fun x => x.asked) ∧
    [62, 63].all (fun n => (labMem fun c => { c with cnt := { c.cnt with t := n } }).counts.t == n) ∧
    -- a window of codebook rows in column-major storage
    windowCheck (win0 + BitVec.ofNat 512 (10 * 2 ^ 58 + 2 ^ 64)) [0, 0, 0, 0] = some 4 ∧ windowCheck win0 [0, 0, 0, 0] = none := by
  decide +kernel

theorem witness_RetireFrame_plain :
    (Bld.start lab.me).exit = false ∧ (Bld.start lab.me).tret = none ∧ (Bld.start lab.me).skip = none ∧
    ({ (Bld.start lab.me) with skip := some 3 } : Bld).skip = some 3 ∧ lab.cur < 256 ∧ lab.me.r.loops = [] := by
  decide +kernel

theorem witness_TrapEntryContainment_pages :
    -- a page fault of a store without W
    (let k := slotCause 0x11 .C0 (word 0x200000) 1 0
     k.code = 0x11 ∧ fld k.synd1 3 0 = 1) ∧
    -- a copy fault under ignore
    instIs (labTvec 0 id) 0 (fun x => x.lh.policy 0 == 0) = true ∧ (bundleCause 0x14 0 0 0).code = 0x14 ∧ (bundleCause 0x14 0 0 0).hard = false := by
  decide +kernel

theorem witness_SaveAndResume_held :
    -- a hold that the watchdog measures, and one that it does not
    ([HoldKind.wait, .fence].all fun k =>
      let s := labC fun c => { c with phase := .saving, hold := some (k, 0) }
      (s.core 0).phase == .saving && (s.core 0).cnt == default && (s.core 0).hold == some (k, 0)) ∧
    fld (slotCause 0x11 .C0 0 1 0).synd1 3 0 = 1 := by
  decide +kernel

/-- A load of these bytes of accelerator 3 is outstanding, with the response to a word at 0x1000. -/
def farSpan : Span := { ranges := [(0x400000, 8)], pages := [(0x400, remoteKey 3 0x1000)] }
def labFarLoad : State := labData fun c =>
  { c with cnt := { c.cnt with l := 1 }, pendS := 32, mem := { c.mem with loads := [{ loadOf (.scalar (some 5)) with span := farSpan, va := 0x400000 }] } }

theorem witness_LoadAndAtomicReturns_news :
    -- the record of a grid's end
    (let s := { labLoad (.scalar (some 5)) with news := [0x80000] }
     s.errs = [] ∧ (s.core 0).mem.loadReady (loadOf (.scalar (some 5))) [] = true ∧ (nearKeys span8 []).any (fun k => s.news.contains (k / 8)) = true) ∧
    -- bytes of another accelerator
    (let l := { loadOf (.scalar (some 5)) with span := farSpan, va := 0x400000 }
     farKeys l.span l.fwd ≠ [] ∧ (labFarLoad.core 0).mem.loadReady l [1, 2, 3, 4, 5, 6, 7, 8] = true ∧ room (labFarLoad.core 0).mem l.span.keys = true) := by
  decide +kernel

theorem witness_StoresPerformed_merging :
    (let s := labData fun c => { c with mem := { c.mem with stores := [{ id := 1, slot := 4, va := 0x200000, epoch := 0, bytes := [db 0x400000 7] }] } }
     s.merging (s.core 0).uid [(0x400000, 0x400001)] = false) ∧
    (let s := labData fun c => { c with mem := { c.mem with tsts := [tst0] } }
     s.merging (s.core 0).uid tst0.span.keyRanges = false) := by
  decide +kernel

/-- An exchange that merges bits into a word of accelerator 3, which it expects to hold 7. -/
def reqMerge : RemReq :=
  { id := 2, group := 9, own := { uid := 1, part := 0, graph := 0, node := 0, idx := 0, core := 0 }, agent := 0, epoch := 0, port := some 47, native := 1 == 1, va := 0x400000
    acc := 3, key := remoteKey 3 0x1000, access := 1, slot := 4, copy := false, refused := false, merge := some { mask := 15, val := 5, expect := 7 }, placed := false }
/-- A write, an add of the core, an add of a copy, and an add with its place. -/
def reqPlain : RemReq := { reqMerge with merge := none }
/-- With these requests outstanding, and port 47 the way to accelerator 3. -/
def labRemote (l : List RemReq) : State :=
  let s := labData id
  { s with remote := l, serial := 9, domain := 16, routes := [(3, 2 ^ 47)], ports := vset s.ports 47 { s.port 47 with mode := 1, lanes := 4 } }

theorem witness_FabricResponses_requests :
    -- what an acknowledgement ends, in each case
    ([(reqPlain, false), ({ reqPlain with access := 2 }, true), ({ reqPlain with access := 2, copy := true }, false), ({ reqPlain with access := 2, placed := true }, false)].all fun x =>
      ((labRemote [x.1]).remote.find? fun r => r.id == 2 && r.agent == 0 && !r.refused && r.access != 0 && r.merge.isNone) == some x.1 &&
        (x.1.access == 2 && !x.1.copy && !x.1.placed) == x.2) ∧
    -- what the word held, as expected or not
    (let s := labRemote [reqMerge]
     (s.mergeOf 0 2 = some (reqMerge, { mask := 15, val := 5, expect := 7 })) ∧ (s.core 0).mem.loads = [] ∧ [toBytes 8 7, toBytes 8 6].all (·.length == 8) ∧
     ofBytes (toBytes 8 7) = 7 ∧ ofBytes (toBytes 8 6) ≠ 7 ∧ (∀ q ∈ s.remote, q.id < s.serial) ∧ 3 < s.domain ∧ s.routePort 3 = some 47) ∧
    -- refusals, of a copy and of the core
    ([true, false].all fun b => ((labRemote [{ reqPlain with copy := b }]).remote.find? fun r => r.id == 2 && r.agent == 0 && r.acc == 3 && !r.refused).any fun r => r.copy == b) ∧
    -- a group with every part refused, and one that still waits
    (let r := { reqPlain with refused := true }
     ((labRemote [r, { r with id := 3, va := 0x400100 }]).remote.all fun q => q.group == 9 && q.refused) ∧
     (labRemote [r, { r with id := 3, refused := false }]).remote.any fun q => q.group == 9 && !q.refused) := by
  decide +kernel

theorem witness_FabricResponses_reads :
    (let s := labFar false true
     let c := s.core 0
     (s.remote.find? fun r => r.id == 3 && r.agent == 0 && r.acc == 3 && !r.refused) = none ∧
     (c.mem.loads.find? fun l => l.id == 3 && (farKeys l.span l.fwd).any fun k => keyAcc k == 3).any (fun l => l.kind == .scalar (some 5)) = true ∧
     (c.mem.loads.find? fun l => l.id == 4 && (farKeys l.span l.fwd).any fun k => keyAcc k == 3) = none ∧
     (c.mem.tlds.find? fun l => l.id == 4 && (l.vaOn 3).isSome).isSome = true) ∧
    -- a chunk that has asked for remote bytes
    (let s := { labFar false false with copies := [{ runOf (entry .copy 0x200000 0x400000 8) with id := 4, asked := [remoteKey 3 0x1000] }] }
     (s.remote.find? fun r => r.id == 4 && r.agent == 0 && r.acc == 3 && !r.refused) = none ∧ s.copies.any fun r => r.id == 4 && r.e.own.core == 0 && !r.fin) := by
  decide +kernel

theorem witness_RepairErrorsThermal_throttle :
    (lab.die 0).throttling = false ∧ (lab.die 0).shut = false ∧ (lab.die 0).throttleAt ≤ 100 ∧ 100 < 110 ∧ (lab.die 0).throttleAt ≤ 110 ∧
    (let s := lab.modDie 0 fun d => { d with shut := true }
     (s.die 0).throttling = false ∧ (s.die 0).shut = true ∧ (s.die 0).throttleAt ≤ 110) := by
  decide +kernel

/-- A tree of two leaves, on accelerators 1 and 2, and one stage on accelerator `root`, in home memory at 0x8000. -/
def labTree (root own : Nat) : State :=
  let cells := (toBytes 16 (2 * 2 ^ 16 + 2 ^ 32 + 16 * 2 ^ 64) ++ toBytes 8 1 ++ toBytes 8 (2 + 2 ^ 28) ++ toBytes 8 (root + 0xFFF * 2 ^ 16)).zipIdx.map fun x => (0x8000 + x.2, x.1)
  { labTable with mem := labTable.mem ++ cells.filter (fun c => c.2 != 0), domain := 16, accNum := own }

theorem witness_FabricCommands_refused :
    -- values out of range
    [([0, 48, 0, 0], Instr.fabcfgKeyEntry), ([0, 0, 4096, 0], .fabcfgKeyEntry), ([0, 0, 0, 2 ^ 56], .fabcfgKeyEntry), ([0, 0, 0, 1], .fabcfgKeyEntry),
     ([1, 48, 0, 1], .fabcfgShareEntry), ([1, 0, 256, 1], .fabcfgShareEntry), ([1, 0, 0, 0], .fabcfgShareEntry), ([2, 0, 3, 0], .fabcfgPortMode), ([2, 48, 0, 0], .fabcfgPortMode),
     ([3, 4096, 0, 0], .fabcfgOutboundKey), ([3, 0, 0, 1], .fabcfgOutboundKey), ([4, 0, 0, 0], .fabcfgDomainSize), ([4, 0, 9217, 0], .fabcfgDomainSize),
     ([4, 1, 2 ^ 14, 0], .fabcfgRoute), ([4, 1, 0, 2 ^ 48], .fabcfgRoute), ([4, 2, 9216, 0], .fabcfgOwnAccelerator), ([6, 48, 0, 0], .fabcfgUalinkSource),
     ([6, 0, 1024, 0], .fabcfgUalinkSource), ([6, 0, 0, 4096], .fabcfgUalinkSource), ([7, 48, 0, 0], .fabcfgLiftFence), ([8, 0, 0, 0], .fabcfgLaneThreshold),
     ([8, 0, 1048576, 0], .fabcfgLaneThreshold), ([5, 65536, 0, 0], .fabcfgReductionTree), ([5, 0, 8, 0], .fabcfgReductionTree),
     -- sizes out of range, and a descriptor beyond the package
     ([5, 3, 0x8000, 31], .fabcfgReductionTree), ([5, 3, 0x8000, 16 + 8 * 8190 + 1], .fabcfgReductionTree),
     ([5, 3, Config.localLimit, 40], .fabcfgReductionTree)].all (fun x => takes (told lab 5 0 x.1) x.2) = true := by
  decide +kernel

theorem witness_FabricCommands_trees :
    -- descriptors at 0x8000: a size that is not its own; a root here, of partition 0, whose tenant is 0 or 9; a root elsewhere
    [(labTree 0 0, 32), (labTree 0 0, 40), (labTree 3 0, 40)].all (fun x =>
      takes (told x.1 5 0 [5, 3, 0x8000, x.2]) .fabcfgReductionTree && decide (0x8000 + x.2 ≤ Config.localLimit) && x.1.errs == []) = true ∧
    (let s := labTree 0 0
     let h : BitVec 128 := BitVec.ofNat 128 (s.readNat 0x8000 16)
     let entry := fun k : Nat => s.readNat (0x8010 + 8 * k) 8
     let leaves : List TreeNode := (List.range 2).map fun k => let x := entry k
       { acc := x % 2 ^ 14, die := 0, parent := some (x / 2 ^ 16 % 2 ^ 12), inp := x / 2 ^ 28 % 16 }
     let stages : List TreeNode := [{ acc := 0, die := 0, parent := none, inp := 0 }]
     fld h 27 16 = 2 ∧ fld h 43 32 = 1 ∧ 40 = 16 + 8 * (2 + 1) ∧ fld h 127 96 = 0 ∧ fld h 63 44 = 0 ∧ fld h 31 28 = 0 ∧ fld h 15 12 = 0 ∧ fld h 95 64 = 16 ∧ fld h 11 0 = 0 ∧
     (∀ k < 3, entry k < 2 ^ 32) ∧ (∀ k < 2, entry k / 2 ^ 14 % 4 = 0) ∧ entry 2 % 2 ^ 16 = 0 ∧ entry 2 / 2 ^ 16 % 2 ^ 12 = 0xFFF ∧ entry 2 / 2 ^ 28 % 16 = 0 ∧
     (∀ x ∈ leaves ++ stages, x.acc < s.domain ∧ x.inp ≤ 12 ∧ (x.parent = none → x.inp = 0) ∧ (x.parent.all fun k => decide (k < 1)) = true) ∧
     (leaves ++ stages).Pairwise (fun x y => x.parent = none ∨ (x.parent, x.inp) ≠ (y.parent, y.inp)) ∧
     (s.part 0).map (·.tenant) = some 0 ∧
     ({ s with parts := vset s.parts 0 (some { clusters := 1, tenant := 9, root := 0x1000, wlog := 32 }) } : State).part 0 =
       some { clusters := 1, tenant := 9, root := 0x1000, wlog := 32 } ∧ (labTree 3 0).readNat 0x8020 8 % 2 ^ 14 = 3) := by
  decide +kernel

/-- Both cores of a pair come to a `bar` in one cycle. -/
def labBoth : State :=
  let at_ (c : Core) : Core := { c with dict := [placeSlot .S (encode (.bar (hd .S) { sx0 with imm := 1 }))], stream := [0], wake := 0 }
  ((labMates false).modCore 0 at_).modCore 4 at_

theorem witness_StepRunsTheDecoded_arrival :
    labBoth.powered = true ∧ labBoth.arrived = none ∧ labBoth.hostDue = none ∧ labBoth.nextCommand = none ∧ labBoth.dueEvent = none ∧
    labBoth.readyCores = [0, 4] ∧ (labBoth.arrival labBoth.readyCores).isSome = true ∧
    -- inputs of the outside at their time
    (let s := { lab with inputs := [(0, .writeBack 0x8000), (0, .evict 0 0x8000), (0, .temp 0 95), (0, .command Command.none)] }
     s.powered = true ∧ s.inputs.all (fun x => decide (x.1 ≤ s.pcc)) = true) := by
  decide +kernel

theorem witness_CopyPushes_traps :
    -- reserved bits of the control register; a tile without a type
    ready labCopy [.copy (hd .C0) { cr 1 1 0 with rd := 12 }, .put (hd .C0) (cr 0 1 0)]
      (labCopy.sOk 1 && labCopy.sOk 0 && labCopy.sOk 12 && fld (labCopy.sv 12) 2 0 != 0 && labCopy.tOk 0 && labCopy.tOk 5 && !tyValid (labCopy.tyv 0)) ∧
    -- 63 copies outstanding
    ready (labCopy.modCore 0 fun c => { c with cnt := { c.cnt with c := 63 } }) [.copy (hd .C0) (cr 1 1 0)]
      (decide (63 ≤ (labCopy.modCore 0 fun c => { c with cnt := { c.cnt with c := 63 } }).counts.c)) ∧
    -- a window that is not valid; one of codebook rows in column-major storage
    winValid (labCopy.windowOf 1) = false ∧
    windowCheck (win0 + BitVec.ofNat 512 (10 * 2 ^ 58 + 2 ^ 64)) [0, 0, 0, 0] = some 4 := by
  decide +kernel

end Sys2Proof.Tests
end

/-! SUPPORT. What one step of the package runs (R8, R26, R101, R102): the fetch of a code stream, the branches of `advance`, what ready
cores bring one another, the next PCC cycle, and reset with one code stream. -/

namespace Sys2Proof.Machine

/-! ### The fetch of a code stream (R101, R102) -/

theorem getLsbD_orHalfwords (hs : List (BitVec 16)) (n i : Nat) (acc : BitVec 384) (hi : i < 384) :
    ((hs.zipIdx n).foldl (fun acc (x : BitVec 16 × Nat) => acc ||| (x.1.setWidth 384 <<< (16 * x.2))) acc).getLsbD i =
      (acc.getLsbD i || (decide (n ≤ i / 16) && (hs.getD (i / 16 - n) 0).getLsbD (i % 16))) := by
  induction hs generalizing n acc with
  | nil => simp
  | cons x hs ih =>
    rw [List.zipIdx_cons, List.foldl_cons, ih, BitVec.getLsbD_or, BitVec.getLsbD_shiftLeft, BitVec.getLsbD_setWidth]
    rcases Nat.lt_trichotomy (i / 16) n with h | h | h
    · have h1 : i < 16 * n := by omega
      have h2 : ¬ n ≤ i / 16 := by omega
      have h3 : ¬ n + 1 ≤ i / 16 := by omega
      simp [h1, h2, h3]
    · have h1 : ¬ i < 16 * n := by omega
      have h2 : i - 16 * n = i % 16 := by omega
      have h3 : i % 16 < 384 := by omega
      have h4 : ¬ i / 16 + 1 ≤ i / 16 := by omega
      subst h
      simp [h1, h2, h3, h4, hi]
    · have h1 : x.getLsbD (i - 16 * n) = false := BitVec.getLsbD_of_ge x _ (by omega)
      obtain ⟨k, hk⟩ : ∃ k, i / 16 - n = k + 1 := ⟨i / 16 - n - 1, by omega⟩
      have h2 : i / 16 - (n + 1) = k := by omega
      have h3 : n ≤ i / 16 := by omega
      have h4 : n + 1 ≤ i / 16 := by omega
      simp [h1, h2, h3, h4, hk]

/-- The 24 halfwords of a number, lowest first, are the literal bundle of its low 384 bits. -/
theorem bundleOfHalfwords_ofNat (x : Nat) :
    bundleOfHalfwords ((List.range 24).map fun k => BitVec.ofNat 16 (x >>> (16 * k))) = BitVec.ofNat 384 x := by
  apply BitVec.eq_of_getLsbD_eq
  intro i hi
  have hk : i / 16 < 24 := by omega
  have hb : 16 * (i / 16) + i % 16 = i := by omega
  rw [bundleOfHalfwords, getLsbD_orHalfwords _ _ _ _ hi]
  simp [hk, hi, hb, Nat.mod_lt, -BitVec.getLsbD_eq_getElem, BitVec.getLsbD_ofNat, Nat.testBit_shiftRight]

theorem fetchCode_escape {dict : List BundleWord} {stream : List (BitVec 16)} {pos w : Nat}
    (hs : ∀ k < 25, stream[pos + k]? = some (BitVec.ofNat 16 (w >>> (16 * k)))) (he : w % 65536 = 0xFFFF) :
    fetchCode dict stream pos = .bundle (decodeBundle (BitVec.ofNat 384 (w / 65536))) (pos + 25) := by
  have h0 : stream[pos]? = some 0xFFFF := by
    rw [show some (0xFFFF : BitVec 16) = some (BitVec.ofNat 16 w) from congrArg some (BitVec.eq_of_toNat_eq (by simp [he]))]
    exact hs 0 (by decide)
  have hl : (stream.drop (pos + 1)).take 24 = (List.range 24).map fun k => BitVec.ofNat 16 ((w / 65536) >>> (16 * k)) := by
    apply List.ext_getElem?
    intro k
    by_cases hk : k < 24
    · have := hs (k + 1) (by omega)
      rw [List.getElem?_take_of_lt hk, List.getElem?_drop, show pos + 1 + k = pos + (k + 1) by omega, this]
      simp only [hk, List.getElem?_map, List.getElem?_range, Option.map_some]
      rw [show 16 * (k + 1) = 16 + 16 * k by omega, Nat.shiftRight_add, Nat.shiftRight_eq_div_pow w 16]
    · rw [List.getElem?_eq_none (by rw [List.length_take]; omega), List.getElem?_eq_none (by rw [List.length_map, List.length_range]; omega)]
  simp [fetchCode, h0, hl, bundleOfHalfwords_ofNat]

theorem fetchCode_dict {dict : List BundleWord} {stream : List (BitVec 16)} {pos : Nat} {code : BitVec 16} {b : BundleWord}
    (hc : stream[pos]? = some code) (hlt : code.toNat < 4096) (hb : dict[code.toNat]? = some b) :
    fetchCode dict stream pos = .bundle (decodeBundle b) (pos + 1) := by
  have hne : code ≠ 0xFFFF := by rintro rfl; simp at hlt
  simp only [fetchCode, hc, hne, hb, hlt, if_false, if_true]

theorem fetchCode_noEntry {dict : List BundleWord} {stream : List (BitVec 16)} {pos : Nat} {code : BitVec 16}
    (hc : stream[pos]? = some code) (hno : 4096 ≤ code.toNat ∨ dict.length ≤ code.toNat) (hne : code ≠ 0xFFFF) :
    fetchCode dict stream pos = .illegal code.toNat := by
  simp only [fetchCode, hc, hne, if_false]
  cases hb : dict[code.toNat]? with
  | none => rfl
  | some b =>
    obtain ⟨hlen, -⟩ := List.getElem?_eq_some_iff.1 hb
    have : ¬ code.toNat < 0x1000 := by omega
    simp [this]

theorem fetchCode_beyond {dict : List BundleWord} {stream : List (BitVec 16)} {pos : Nat} (h : stream.length ≤ pos) :
    fetchCode dict stream pos = .illegal 0 := by
  simp [fetchCode, List.getElem?_eq_none h]

/-! ### The bundle of a core -/

theorem State.runCore_of_sole {s : State} {i n : Nat} {b : Bundle} {op : Instr} (hf : (s.core i).fetch = .bundle b n)
    (ho : soleOp b = some op) : s.runCore i = exec op { s with cur := i } := by
  have hf' : (({ s with cur := i } : State).core i).fetch = .bundle b n := hf
  simp only [State.runCore, hf', ho]

theorem State.runCore_of_illegal {s : State} {i code : Nat} (hf : (s.core i).fetch = .illegal code) :
    s.runCore i = exec .illegalCode { s with cur := i } := by
  have hf' : (({ s with cur := i } : State).core i).fetch = .illegal code := hf
  simp only [State.runCore, hf']

/-- A word of the code-stream table at a core's position runs the operation that it decodes to. -/
theorem State.runCore_of_tableWord {s : State} {i n w : Nat} {op : Instr}
    (hs : ∀ k < 25, (s.core i).stream[(s.core i).pos + k]? = some (BitVec.ofNat 16 (w >>> (16 * k))))
    (hd : decodeTableWord n w = some op) : s.runCore i = exec op { s with cur := i } := by
  unfold decodeTableWord at hd
  split at hd
  · next he => exact State.runCore_of_sole (fetchCode_escape hs he) hd
  · cases hd

/-! ### What comes next in a PCC cycle: one equation for each branch of `advance` -/

theorem step_of_arrived {s : State} {t : Nat} {x : Input} {rest : List (Nat × Input)} (h : s.inputs = (t, x) :: rest) (ht : t ≤ s.pcc) :
    step s = s.runInput x := by
  simp [step, State.advance, State.arrived, h, ht]

theorem State.popInput_of_cons {s : State} {x : Nat × Input} {rest : List (Nat × Input)} (h : s.inputs = x :: rest) :
    s.popInput = { s with inputs := rest } := by
  simp [State.popInput, h]

section
variable {s : State} (hp : s.powered = true) (ha : s.arrived = none) (hh : s.hostDue = none) (hn : s.nextCommand = none)
include hp ha hh hn

theorem step_of_dueEvent {ins : Instr} (hd : s.dueEvent = some ins) : step s = exec ins s := by
  simp [step, State.advance, ha, hp, hh, hn, hd]

variable (hd : s.dueEvent = none)
include hd

theorem step_of_readyCore {i : Nat} {rest : List Nat} (hr : s.readyCores = i :: rest) (hv : s.arrival (i :: rest) = none) :
    step s = s.runCore i := by
  simp [step, State.advance, ha, hp, hh, hn, hd, hr, hv]

theorem step_of_arrival {t : State} (hv : s.arrival s.readyCores = some t) : step s = .next t := by
  cases hr : s.readyCores with
  | nil => rw [hr] at hv; cases hv
  | cons i rest =>
    rw [hr] at hv
    simp [step, State.advance, ha, hp, hh, hn, hd, hr, hv]

theorem step_of_noneReady (hr : s.readyCores = []) : step s = .next s.tick := by
  simp [step, State.advance, ha, hp, hh, hn, hd, hr]
end

/-! ### The cores that issue in a PCC cycle, and what they bring one another -/

theorem State.mem_readyCores (s : State) (i : Nat) : i ∈ s.readyCores ↔ i < 256 ∧ (s.core i).canIssue s.pcc = true := by
  simp [State.readyCores]

theorem State.readyCores_sorted (s : State) : s.readyCores.Pairwise (· < ·) :=
  List.Pairwise.filter _ List.pairwise_lt_range

/-- What one core brings is a barrier reached, or a half of an exchange on the link. -/
theorem State.brings_cases {s t : State} {i : Nat} (h : s.brings i = some t) :
    (∃ l, (s.core i).meets.1 = some l ∧ t = s.modCore i fun c => { c with hold := some (.bar l, s.pcc) }) ∨
    (∃ f x, (s.core i).meets.2 = true ∧ (s.core i).inst = some x ∧ f.isOf x x.idx (s.core i).e.xnum = true ∧
      t = { s with link := s.link ++ [f] }) := by
  unfold State.brings at h
  simp only at h
  split at h
  · cases h
  split at h
  · next l hl =>
    exact .inl ⟨l, (Option.filter_eq_some_iff.1 hl).1, (Option.some.inj h).symm⟩
  · next _ x _ hx =>
    split at h
    · cases h
    · next hno =>
      obtain ⟨f, hf, rfl⟩ := Option.map_eq_some_iff.1 h
      simp only [Bool.or_eq_true, Bool.not_eq_true', not_or, Bool.not_eq_false] at hno
      exact .inr ⟨f, x, hno.1, hx, List.find?_some (p := fun f : XchHalf => f.isOf x x.idx (s.core i).e.xnum) hf, rfl⟩
  · cases h

theorem State.arrival_brings {s t : State} {ready : List Nat} (h : s.arrival ready = some t) : ∃ i ∈ ready, s.brings i = some t := by
  unfold State.arrival at h
  split at h
  · exact List.exists_of_findSome?_eq_some h
  · cases h

/-! ### The next PCC cycle: what a bank needs performed leaves PCC alone (R7, R178, R179) -/

theorem mem_insertBy {α : Type} {key : α → Nat} {x a : α} {l : List α} (h : a ∈ insertBy key x l) : a = x ∨ a ∈ l := by
  induction l with
  | nil => simpa [insertBy] using h
  | cons y r ih =>
    unfold insertBy at h
    split at h
    · simpa using h
    · rcases List.mem_cons.1 h with rfl | h
      · simp
      · rcases ih h with rfl | h <;> simp [*]

theorem mem_of_mem_sortBy {α : Type} {key : α → Nat} {a : α} {l : List α} (h : a ∈ sortBy key l) : a ∈ l := by
  induction l with
  | nil => exact h
  | cons x r ih =>
    rcases mem_insertBy h with rfl | h
    · simp
    · simp [ih h]

theorem State.foldl_pcc {α : Type} (f : State → α → State) (l : List α) (s : State) (h : ∀ t, ∀ a ∈ l, (f t a).pcc = t.pcc) :
    (l.foldl f s).pcc = s.pcc :=
  List.foldlRecOn (motive := fun t : State => t.pcc = s.pcc) l f rfl fun t ht a ha => (h t a ha).trans ht

@[simp] theorem State.writeHome_pcc (s : State) (key : Nat) (x : Byte) : (s.writeHome key x).pcc = s.pcc := by
  unfold State.writeHome
  split
  · exact State.modCluster_pcc ..
  · split <;> rfl

@[simp] theorem State.writeDirty_pcc (s : State) (d : DirtyByte) : (s.writeDirty d).pcc = s.pcc := s.writeHome_pcc ..

theorem State.settleLoad_pcc (s : State) (i : Nat) (l : LoadOp) (r : List (Nat × Nat)) : (s.settleLoad i l r).pcc = s.pcc := by
  unfold State.settleLoad
  simp only
  split
  · rfl
  · split
    · rw [State.foldl_pcc _ _ _ fun t c _ => t.writeHome_pcc ..]; rfl
    · rfl

theorem State.bankActs_pcc (s : State) (cl b i : Nat) : ∀ a ∈ s.bankActs cl b i, ∀ t : State, (a.2 t).pcc = t.pcc := by
  intro a ha t
  simp only [State.bankActs, List.mem_append, List.mem_map] at ha
  rcases ha with ((⟨l, -, rfl⟩ | ⟨l, -, rfl⟩) | ⟨x, -, rfl⟩) | ⟨x, -, rfl⟩
  · exact t.settleLoad_pcc ..
  · rfl
  · exact State.foldl_pcc _ _ _ fun t d _ => t.writeDirty_pcc d
  · exact State.foldl_pcc _ _ _ fun t d _ => t.writeDirty_pcc d

theorem State.settleBanks_pcc (s : State) (cl b : Nat) : (s.settleBanks cl b).pcc = s.pcc := by
  unfold State.settleBanks
  simp only
  rw [State.foldl_pcc _ _ _ fun t i _ => by rfl]
  rw [State.foldl_pcc _ _ _ fun t a ha => by
    obtain ⟨i, -, hi⟩ := List.mem_flatMap.1 (mem_of_mem_sortBy ha)
    exact State.bankActs_pcc _ cl b i a hi t]
  rw [State.foldl_pcc _ _ _ fun t i _ => by rfl]
  exact State.foldl_pcc _ _ _ fun t i _ => State.foldl_pcc _ _ _ fun t d _ => t.writeDirty_pcc d

theorem State.commitBank_pcc (s : State) (r : BankReq) : (s.commitBank r).pcc = s.pcc := by
  unfold State.commitBank
  split
  · rfl
  · rw [State.modCluster_pcc, State.settleBanks_pcc]; rfl

theorem State.tick_pcc (s : State) : s.tick.pcc = s.pcc + 1 := by
  unfold State.tick
  simp only
  split
  · rfl
  · exact congrArg (· + 1) (State.foldl_pcc _ _ s fun t r _ => t.commitBank_pcc r)

theorem State.tick_of_noBanks {s : State} (h : s.kmodes = []) : s.tick = { s with pcc := s.pcc + 1 } := by
  simp [State.tick, h]

/-! ### Reset with one code stream at core 0: nothing is due before its bundle (log entry 6) -/

/-- A core with its reset registers, whatever it runs and whatever stream it reads. -/
def Core.atReset (p : Phase) (x : Option Inst) (stream : List (BitVec 16)) : Core :=
  { Core.idle with phase := p, inst := x, stream := stream }

/-- Every core has its reset registers. -/
def State.CoresAtReset (s : State) : Prop := ∀ i, ∃ p x stream, s.core i = Core.atReset p x stream

theorem firstDue_eq_none {l : List (Option Instr)} (h : ∀ o ∈ l, o = none) : firstDue l = none := by
  induction l with
  | nil => rfl
  | cons o r ih =>
    rw [h o (by simp)]
    exact ih fun o ho => h o (by simp [ho])

@[simp] theorem dueIf_false (i : Instr) : dueIf false i = none := rfl

theorem State.core_of_mem_zipIdx {s : State} {c : Core × Nat} (h : c ∈ s.cores.toList.zipIdx) : s.core c.2 = c.1 := by
  obtain ⟨hlt, hget⟩ := List.getElem?_eq_some_iff.1 (List.mem_zipIdx_iff_getElem?.1 h)
  have hlt' : c.2 < 256 := by simpa using hlt
  simpa [State.core, vget, hlt'] using hget

theorem State.core_of_mem {s : State} {c : Core} (h : c ∈ s.cores.toList) : ∃ i, s.core i = c := by
  obtain ⟨i, hi, rfl⟩ := List.mem_iff_getElem.1 h
  exact ⟨i, State.core_of_mem_zipIdx (c := (_, i)) (List.mem_zipIdx_iff_getElem?.2 (List.getElem?_eq_getElem hi))⟩

theorem Core.idle_queue_empty : ∀ k < 2, (vget Core.idle.ch k default).queue = [] := by decide +kernel

theorem State.dueCore_atReset {s : State} {i : Nat} {p : Phase} {x : Option Inst} {l : List (BitVec 16)}
    (h : s.core i = Core.atReset p x l) : s.dueCore i (Core.atReset p x l) = none := by
  have hrun : s.dueRun i (Core.atReset p x l) = none := by
    refine firstDue_eq_none ?_
    simp [h, Core.atReset, Core.idle, Core.stallOver, Core.hasDue, Core.due, sortBy, Core.asyncDue, Core.nextAsync, Core.forcedDue,
      State.watchDue, Core.heldFor, State.halfHere, Core.pairStalled, State.pairLate, State.partnerGone]
  have hspare : (Core.atReset p x l).spareReady = false := rfl
  have hqueue : ∀ k < 2, (vget (Core.atReset p x l).ch k default).queue = [] := Core.idle_queue_empty
  refine firstDue_eq_none ?_
  simp [hrun, hspare, hqueue]

section
variable {s : State} (hs : s.CoresAtReset)
include hs

theorem State.dueCores_of_coresAtReset : (s.cores.toList.zipIdx.findSome? fun c => s.dueCore c.2 c.1) = none := by
  rw [List.findSome?_eq_none_iff]
  intro c hc
  obtain ⟨p, x, l, h⟩ := hs c.2
  rw [← State.core_of_mem_zipIdx hc, h]
  exact State.dueCore_atReset h

theorem State.noGrantOver_of_coresAtReset (pcc : Nat) : (s.cores.toList.any fun c => c.grant.over pcc) = false := by
  rw [List.any_eq_false]
  intro c hc
  obtain ⟨i, rfl⟩ := State.core_of_mem hc
  obtain ⟨p, x, l, h⟩ := hs i
  have hover : (Core.atReset p x l).grant.over pcc = false := rfl
  simp [h, hover]

theorem State.grantable_of_coresAtReset (d : Nat) : s.grantable d = none := by
  have hpend : ∀ i, (s.core i).grant.pend = none := by
    intro i
    obtain ⟨p, x, l, h⟩ := hs i
    rw [h]
    rfl
  cases hq : (s.die d).head <;> simp [State.grantable, hq, hpend]

end

/-! What does not read the cores is as it was. -/

theorem State.withStream_yelm (s : State) (l : List (BitVec 16)) (d : Nat) : (s.withStream l).yelm d = s.yelm d := rfl
theorem State.withStream_copies (s : State) (l : List (BitVec 16)) : (s.withStream l).copies = s.copies := rfl
theorem State.withStream_graphs (s : State) (l : List (BitVec 16)) : (s.withStream l).graphs = s.graphs := rfl
theorem State.withStream_dueBank (s : State) (l : List (BitVec 16)) : (s.withStream l).dueBank = s.dueBank := rfl
theorem State.withStream_duePort (s : State) (l : List (BitVec 16)) : (s.withStream l).duePort = s.duePort := rfl

theorem State.withStream_dueClock {s : State} {l : List (BitVec 16)} (h : s.CoresAtReset) (h' : (s.withStream l).CoresAtReset) :
    (s.withStream l).dueClock = s.dueClock := by
  simp only [State.dueClock, State.noGrantOver_of_coresAtReset h, State.noGrantOver_of_coresAtReset h', State.grantable_of_coresAtReset h,
    State.grantable_of_coresAtReset h']
  rfl

theorem State.reset_core (i : Nat) : State.reset.core i = Core.idle := by
  rcases Nat.lt_or_ge i 256 with h | h
  · simp [State.core, State.reset, vget, h]
  · exact State.core_idle _ i h

theorem State.reset_coresAtReset : State.reset.CoresAtReset := fun i => ⟨.idle, none, [], State.reset_core i⟩

theorem State.reset_yelm_steps {d : Nat} (h : d < 4) : (State.reset.yelm d).steps = [] := by
  decide +kernel +revert

section
variable (stream : List (BitVec 16))

theorem State.reset_withStream_core_zero : (State.reset.withStream stream).core 0 = Core.atReset .run (some Inst.lone) stream := by
  rw [State.withStream, State.core_setCore_self _ _ _ (by decide), State.reset_core]
  rfl

theorem State.reset_withStream_core_ne {i : Nat} (h : i ≠ 0) : (State.reset.withStream stream).core i = Core.idle := by
  rw [State.withStream, State.core_setCore_ne _ _ _ _ h.symm, State.reset_core]

theorem State.reset_withStream_coresAtReset : (State.reset.withStream stream).CoresAtReset := by
  intro i
  by_cases h : i = 0
  · subst h
    exact ⟨_, _, _, State.reset_withStream_core_zero stream⟩
  · exact ⟨.idle, none, [], State.reset_withStream_core_ne stream h⟩

theorem State.reset_withStream_readyCores : (State.reset.withStream stream).readyCores = [0] := by
  have h : ∀ i ∈ List.range 256, ((State.reset.withStream stream).core i).canIssue (State.reset.withStream stream).pcc = (i == 0) := by
    intro i _
    by_cases h : i = 0
    · subst h
      rw [State.reset_withStream_core_zero]
      rfl
    · rw [State.reset_withStream_core_ne stream h, beq_false_of_ne h]
      rfl
  rw [State.readyCores, List.filter_congr h]
  decide

theorem State.reset_withStream_dueEvent : (State.reset.withStream stream).dueEvent = none := by
  have hcores := State.reset_withStream_coresAtReset stream
  have hclock : (State.reset.withStream stream).dueClock = none := by
    rw [State.withStream_dueClock State.reset_coresAtReset hcores]
    decide +kernel
  have hbank : (State.reset.withStream stream).dueBank = none := by
    rw [State.withStream_dueBank]
    decide +kernel
  have hport : (State.reset.withStream stream).duePort = none := by
    rw [State.withStream_duePort]
    decide +kernel
  have hcopy : (State.reset.withStream stream).dueCopy = none := by
    rw [State.dueCopy, State.withStream_copies]
    rfl
  have hnode : (State.reset.withStream stream).dueNode = none := by
    rw [State.dueNode, State.withStream_graphs]
    rfl
  have hstep : (State.reset.withStream stream).dueStep = none := by
    rw [State.dueStep, List.findSome?_eq_none_iff]
    intro d hd
    rw [State.withStream_yelm, State.reset_yelm_steps (List.mem_range.1 hd)]
    rfl
  rw [State.dueEvent, hclock, hbank, State.dueCores_of_coresAtReset hcores, hcopy, hnode, hstep, hport]
  rfl

theorem step_reset_withStream : step (State.reset.withStream stream) = (State.reset.withStream stream).runCore 0 :=
  step_of_readyCore rfl rfl rfl rfl (State.reset_withStream_dueEvent stream) (State.reset_withStream_readyCores stream) rfl

end

theorem State.reset_withFetchWord (n w : Nat) :
    State.reset.withFetchWord n w = State.reset.withStream ((List.range 25).map fun k => BitVec.ofNat 16 (w >>> (16 * k))) := rfl

/-! ### The statement -/

/-- Settles O58. Each case of the step is one branch of `advance`; what a ready core runs is what its fetch finds, and what an input does is
its arm of `runInput`. -/
theorem stepRunsTheDecoded : Obligations.StepRunsTheDecoded := by
  intro s hp
  refine ⟨fun ha hh hn hd => ⟨fun i rest hr hv => ⟨?_, ?_, ?_, ?_⟩, ?_, ?_⟩, s.mem_readyCores, s.readyCores_sorted, fun _ => rfl, ?_, ?_, ?_, ?_⟩
  · intro w ins hs hw
    exact (step_of_readyCore hp ha hh hn hd hr hv).trans (State.runCore_of_tableWord hs hw)
  · intro code b ins hc hlt hb ho
    exact (step_of_readyCore hp ha hh hn hd hr hv).trans (State.runCore_of_sole (fetchCode_dict hc hlt hb) ho)
  · intro code hc hno hne
    exact (step_of_readyCore hp ha hh hn hd hr hv).trans (State.runCore_of_illegal (fetchCode_noEntry hc hno hne))
  · intro hlen
    exact (step_of_readyCore hp ha hh hn hd hr hv).trans (State.runCore_of_illegal (fetchCode_beyond hlen))
  · intro t hv
    exact step_of_arrival hp ha hh hn hd hv
  · intro hr
    exact ⟨s.tick, step_of_noneReady hp ha hh hn hd hr, s.tick_pcc, State.tick_of_noBanks⟩
  · intro t ht
    obtain ⟨i, hi, hb⟩ := State.arrival_brings ht
    exact ⟨i, hi, State.brings_cases hb⟩
  · intro ins ha hh hn hd
    exact step_of_dueEvent hp ha hh hn hd
  · intro t x rest hx ht
    rw [step_of_arrived hx ht]
    refine ⟨?_, ?_, ?_, ?_, ?_, ?_⟩
    · rintro ins rfl he
      simp [State.runInput, hp, he, State.popInput_of_cons hx]
    all_goals
      intros
      subst x
      simp [State.runInput, hp, State.popInput_of_cons hx]
  · intro w
    rw [State.reset_withFetchWord]
    exact step_reset_withStream _

end Sys2Proof.Machine

/-! SUPPORT. The decoder and the encoder of slot operations against each other (R85 to R102): the place of a slot in a bundle, what the
opcode maps name, the bundle that holds one operation. -/

namespace Sys2Proof

/-! ### The place of a slot in a bundle (R85) -/

/-- Lowest bit of a slot in a bundle (R85). -/
def Slot.base : Slot → Nat
  | .S => 280 | .V0 => 224 | .V1 => 168 | .M => 120 | .C0 => 80 | .C1 => 40 | .X => 16 | .K => 0

/-- Bits of a slot (R85). -/
def Slot.width : Slot → Nat
  | .S | .V0 | .V1 => 56 | .M => 48 | .C0 | .C1 => 40 | .X => 24 | .K => 16

/-- The word has no bit above the slot's width. -/
def Slot.Fits (slot : Slot) (raw : BitVec 56) : Prop := ∃ y : BitVec slot.width, raw = y.setWidth 56

theorem Slot.Fits.getLsbD_high {slot : Slot} {raw : BitVec 56} (h : slot.Fits raw) {k : Nat} (hk : slot.width ≤ k) :
    raw.getLsbD k = false := by
  obtain ⟨y, rfl⟩ := h
  rw [BitVec.getLsbD_setWidth, BitVec.getLsbD_of_ge y k hk, Bool.and_false]

theorem Slot.base_le (slot : Slot) : slot.base ≤ 280 := by cases slot <;> decide

theorem Slot.width_le (slot : Slot) : slot.width ≤ 56 := by cases slot <;> decide

/-- No two slots share a bit of the bundle. -/
theorem Slot.apart {s t : Slot} (h : s ≠ t) : s.base + s.width ≤ t.base ∨ t.base + t.width ≤ s.base := by
  revert h
  cases s <;> cases t <;> decide

theorem slotBits_eq (b : BundleWord) (slot : Slot) : slotBits b slot = (b.extractLsb' slot.base slot.width).setWidth 56 := by
  cases slot <;> simp [slotBits, Slot.base, Slot.width]

theorem placeSlot_eq (slot : Slot) (raw : BitVec 56) : placeSlot slot raw = raw.setWidth 384 <<< slot.base := by
  cases slot <;> simp [placeSlot, Slot.base]

theorem placeSlot_getLsbD (slot : Slot) (raw : BitVec 56) {k : Nat} (hk : k < 384) :
    (placeSlot slot raw).getLsbD k = (decide (slot.base ≤ k) && raw.getLsbD (k - slot.base)) := by
  have hk' : k - slot.base < 384 := by omega
  rw [placeSlot_eq, BitVec.getLsbD_shiftLeft, BitVec.getLsbD_setWidth]
  simp only [hk, hk', decide_true, Bool.true_and, ← decide_not, Nat.not_lt]

/-- A word lies within its slot: below and above it the bundle has no bit. -/
theorem placeSlot_outside {slot : Slot} {raw : BitVec 56} (h : slot.Fits raw) {k : Nat}
    (hk : k < slot.base ∨ slot.base + slot.width ≤ k) : (placeSlot slot raw).getLsbD k = false := by
  rcases Nat.lt_or_ge k 384 with hlt | hge
  · rw [placeSlot_getLsbD slot raw hlt]
    rcases hk with hk | hk
    · simp [Nat.not_le.2 hk]
    · rw [h.getLsbD_high (by omega), Bool.and_false]
  · exact BitVec.getLsbD_of_ge _ _ hge

/-- Bits of a bundle outside the slot are clear. -/
theorem extract_placeSlot_outside {slot : Slot} {raw : BitVec 56} (h : slot.Fits raw) {start len : Nat}
    (hs : start + len ≤ slot.base ∨ slot.base + slot.width ≤ start) : (placeSlot slot raw).extractLsb' start len = 0 := by
  apply BitVec.eq_of_getLsbD_eq
  intro k hk
  rw [BitVec.getLsbD_extractLsb', placeSlot_outside h (by omega)]
  simp

theorem slotBits_placeSlot_same {slot : Slot} {raw : BitVec 56} (h : slot.Fits raw) : slotBits (placeSlot slot raw) slot = raw := by
  apply BitVec.eq_of_getLsbD_eq
  intro k hk
  have hlt : slot.base + k < 384 := by have := slot.base_le; omega
  rw [slotBits_eq, BitVec.getLsbD_setWidth, BitVec.getLsbD_extractLsb', placeSlot_getLsbD slot raw hlt]
  rcases Nat.lt_or_ge k slot.width with hw | hw
  · simp [hk, hw]
  · simp [h.getLsbD_high hw]

theorem slotBits_placeSlot_ne {slot s : Slot} {raw : BitVec 56} (h : slot.Fits raw) (hs : s ≠ slot) :
    slotBits (placeSlot slot raw) s = 0 := by
  rw [slotBits_eq, extract_placeSlot_outside h (Slot.apart hs), BitVec.ofNat_eq_ofNat, BitVec.setWidth_zero]
  rfl

/-! ### What the opcode maps name (R97 to R100) -/

theorem pickS_names {h : Hdr} {op : Nat} {x : BitVec 41} {i : Instr} (hp : pickS h op x = some i) :
    i.hdr? = some h ∧ ∃ y : BitVec 56, encode i = y.setWidth 56 := by
  unfold pickS at hp
  split at hp <;> cases hp <;> exact ⟨rfl, _, rfl⟩

theorem pickV_names {h : Hdr} {op : Nat} {x : BitVec 41} {i : Instr} (hp : pickV h op x = some i) :
    i.hdr? = some h ∧ ∃ y : BitVec 56, encode i = y.setWidth 56 := by
  unfold pickV at hp
  repeat' split at hp
  all_goals cases hp <;> exact ⟨rfl, _, rfl⟩

theorem pickM_names {h : Hdr} {op : Nat} {x : BitVec 35} {i : Instr} (hp : pickM h op x = some i) :
    i.hdr? = some h ∧ ∃ y : BitVec 48, encode i = y.setWidth 56 := by
  unfold pickM at hp
  split at hp <;> cases hp <;> exact ⟨rfl, _, rfl⟩

theorem pickC_names {h : Hdr} {op : Nat} {x : BitVec 26} {i : Instr} (hp : pickC h op x = some i) :
    i.hdr? = some h ∧ ∃ y : BitVec 40, encode i = y.setWidth 56 := by
  unfold pickC at hp
  repeat' split at hp
  all_goals cases hp <;> exact ⟨rfl, _, rfl⟩

theorem pickX_names {h : Hdr} {op : Nat} {x : BitVec 11} {i : Instr} (hp : pickX h op x = some i) :
    i.hdr? = some h ∧ ∃ y : BitVec 24, encode i = y.setWidth 56 := by
  unfold pickX at hp
  split at hp <;> cases hp <;> exact ⟨rfl, _, rfl⟩

theorem pickK_names {h : Hdr} {op : Nat} {x : BitVec 5} {i : Instr} (hp : pickK h op x = some i) :
    i.hdr? = some h ∧ ∃ y : BitVec 16, encode i = y.setWidth 56 := by
  unfold pickK at hp
  split at hp <;> cases hp <;> exact ⟨rfl, _, rfl⟩

/-- What a slot's opcode names stands in that slot, and its word has the slot's width. -/
theorem pick_names {slot : Slot} {raw : BitVec 56} {i : Instr} (hp : pick slot raw = some i) :
    (∃ h, i.hdr? = some h ∧ h.slot = slot) ∧ slot.Fits (encode i) := by
  cases slot with
  | S => exact ⟨⟨_, (pickS_names hp).1, rfl⟩, (pickS_names hp).2⟩
  | V0 => exact ⟨⟨_, (pickV_names hp).1, rfl⟩, (pickV_names hp).2⟩
  | V1 => exact ⟨⟨_, (pickV_names hp).1, rfl⟩, (pickV_names hp).2⟩
  | M => exact ⟨⟨_, (pickM_names hp).1, rfl⟩, (pickM_names hp).2⟩
  | C0 => exact ⟨⟨_, (pickC_names hp).1, rfl⟩, (pickC_names hp).2⟩
  | C1 => exact ⟨⟨_, (pickC_names hp).1, rfl⟩, (pickC_names hp).2⟩
  | X => exact ⟨⟨_, (pickX_names hp).1, rfl⟩, (pickX_names hp).2⟩
  | K => exact ⟨⟨_, (pickK_names hp).1, rfl⟩, (pickK_names hp).2⟩

/-- The word of every well-formed slot operation selects it: one lemma for each constructor, in their order. -/
theorem Laws.Encoding.every (i : Instr) : Laws.Encoding.Statement i :=
  Instr.casesOn (motive := Laws.Encoding.Statement) i
    nop branchTree add sub and or xor sll srl sra min max minu maxu shadd clz ctz popc bext bins mul mulh mulhu div divu rem remu sel addi
    andi ori xori slli srli srai li lih cmp cmpi pand por pxor pandn ptst bli bmov bget loop lbrk lget rotcfg swp bsel dbind dfree dget
    tyget tyset csrr csrw csrs csrc trap tret exit wait bar vfadd vfsub vfmul vffma vffms vfmin vfmax vfabs vfneg vfdiv vfsqrt vfexp2 vflog2
    vfrcp vfrsq vadd vsub vmul vmulh vand vor vxor vandn vsll vsrl vsra vmin vmax vabs vcvt vmerge vfcmp vcmp vperm vslide vbcast vlane
    vmovs vmovsIns vfred vred vfscan vscan mand mor mxor mandn mpop vtrow vtwr vld vst vgat vsca vatom fpush fpop ypush tmma tmmas tmmac
    tzero xpose xcvt xquant xquantSat xexp xresh xcast xadd xmov xch xchHalfArrival pairTimeout partnerFault kscl kcode kgrant kpad kmode
    bankModeReady ld ldW ldH ldB st stW stH stB vldm vstm tld tst amo cas acq rel releaseTakesPlace xfence fence waitge copy copy2d copywLd
    copywSt gath scat cexp cred put get ssend cadd copyCommandStart copyChunkTransfer copyChannelFault copyChannelResume completionRecord
    cexpPermitGrant cexpPermitDeadline putMatch loadDataReturn storePerformed tileLoadArrival tstSourceRead resultLanding v1Commit
    tlbWalkComplete asyncTrap pageFaultService coreHardFault watchdog preemptRequest contextSave forcedSave contextResume grantIssue
    launchNode instanceDispatch condNode whileNode waitNodePoll signalNode endNode gridCompletion coreSpareTakeover sliceSpareTakeover
    hbmRowBankSpare pseudoChannelReplace flitCrcRetry laneSwitch portRequestCheck errorResponseArrival releaseMarker releaseCompletion
    combStreamMerge combRootOutput yelmQctlPop yelmQselWrite stepOpen affinityEntry stepClose stepDeadline stepOutputPublish
    userRouterException yelmTakeover throttleEntry throttleExit overtempShutdown reservedOpcode scratchpadStallEnd writesPerformedAtScope
    writeAcknowledgement deficitRound unoonLinkReturn softError scrub fifoCountUpdate putNorecvTimeout grantExpiry governorWindow
    vectorHeavyCharge priorityAging ridgeTakeover unoonPortTakeover pcreate pdestroy ptroot ptinv fabcfgKeyEntry fabcfgShareEntry
    fabcfgPortMode fabcfgOutboundKey fabcfgDomainSize fabcfgRoute fabcfgOwnAccelerator fabcfgReductionTree fabcfgUalinkSource
    fabcfgLiftFence fabcfgLaneThreshold memw memr imgload imgfree gsubmit gabort ycfgAssignQueue ycfgLoadRouter govset queryPcc querySpares
    queryPartition queryPortTenant queryYelmQueue queryRepairReport queryTemperature queryErrorCounts reset powerUp illegalCode
    reservedCommand yelmQueueFreeEntry unoonLinkDown powerLoss

/-! ### Decode after encode, encode after decode -/

theorem encode_fits {i : Instr} {h : Hdr} (hh : i.hdr? = some h) (hw : i.wf = true) : h.slot.Fits (encode i) :=
  (pick_names (Laws.Encoding.every i h hh hw).1).2

theorem decodeSlot_zero (slot : Slot) : decodeSlot slot 0 = .nop slot := if_pos rfl

theorem decodeSlot_encode {i : Instr} {h : Hdr} (hh : i.hdr? = some h) (hw : i.wf = true) : decodeSlot h.slot (encode i) = i := by
  obtain ⟨hp, hne⟩ := Laws.Encoding.every i h hh hw
  rw [decodeSlot, if_neg hne, hp]
  simp [hw]

theorem decodeSlot_of_encode {slot : Slot} {raw : BitVec 56} {i : Instr} {h : Hdr} (hh : i.hdr? = some h) (hs : h.slot = slot)
    (hw : i.wf = true) (he : encode i = raw) : decodeSlot slot raw = i := by
  subst hs he
  exact decodeSlot_encode hh hw

/-- A word that decodes to an operation of a slot was named by its opcode, passed the checks and is what the operation encodes to. -/
theorem decodeSlot_names {slot : Slot} {raw : BitVec 56} {h : Hdr} (hh : (decodeSlot slot raw).hdr? = some h) :
    pick slot raw = some (decodeSlot slot raw) ∧ (decodeSlot slot raw).wf = true ∧ encode (decodeSlot slot raw) = raw := by
  unfold decodeSlot at hh ⊢
  split at hh
  · cases hh
  · next hne =>
    split at hh
    · next i hp =>
      split at hh
      · next hc =>
        rw [Bool.and_eq_true, beq_iff_eq] at hc
        rw [if_neg hne, hp]
        simp [hc]
      · cases hh
    · cases hh

theorem Test.unpack_pack (t : Test) : Test.unpack t.pack = t := by
  have hp : t.pack.extractLsb' 6 4 = t.pred :=
    (cut_hi (t.pred ++ t.sense ++ t.tgt) t.kind 6 4 (by decide)).trans ((cut_hi (t.pred ++ t.sense) t.tgt 5 4 (by decide)).trans
      ((cut_hi t.pred t.sense 1 4 (by decide)).trans (cut_all t.pred)))
  have hs : t.pack.extractLsb' 5 1 = t.sense :=
    (cut_hi (t.pred ++ t.sense ++ t.tgt) t.kind 5 1 (by decide)).trans ((cut_hi (t.pred ++ t.sense) t.tgt 4 1 (by decide)).trans
      ((cut_lo t.pred t.sense 0 1 (by decide)).trans (cut_all t.sense)))
  have ht : t.pack.extractLsb' 1 4 = t.tgt :=
    (cut_hi (t.pred ++ t.sense ++ t.tgt) t.kind 1 4 (by decide)).trans ((cut_lo (t.pred ++ t.sense) t.tgt 0 4 (by decide)).trans (cut_all t.tgt))
  have hk : t.pack.extractLsb' 0 1 = t.kind := (cut_lo (t.pred ++ t.sense ++ t.tgt) t.kind 0 1 (by decide)).trans (cut_all t.kind)
  rw [Test.unpack, hp, hs, ht, hk]

/-! ### The bundle of one operation -/

theorem filter_lone {slot : Slot} {i : Instr} {p : Instr → Bool} (hi : p i = true) (hn : ∀ s, p (.nop s) = false) :
    (allSlots.map fun s => if s = slot then i else .nop s).filter p = [i] := by
  cases slot <;> simp [allSlots, hi, hn]

/-- A bundle whose slots are empty but for one, with no tree and no drain point, holds one operation. -/
theorem soleOp_lone {b : Bundle} {slot : Slot} {i : Instr} {h : Hdr} (hh : i.hdr? = some h) (hbad : b.bad = false) (hdrain : b.drain = false)
    (htests : b.tests = []) (hops : b.ops = allSlots.map fun s => if s = slot then i else .nop s) : soleOp b = some i := by
  unfold soleOp
  rw [hbad, hops, htests, hdrain, filter_lone]
  · rfl
  · split
    · cases hh
    · rfl
  · exact fun _ => rfl

theorem decodeBundle_placeSlot_ops {i : Instr} {h : Hdr} (hh : i.hdr? = some h) (hw : i.wf = true) :
    (decodeBundle (placeSlot h.slot (encode i))).ops = allSlots.map fun s => if s = h.slot then i else .nop s := by
  refine List.map_congr_left fun s _ => ?_
  have hf := encode_fits hh hw
  split
  · next hs => rw [hs, slotBits_placeSlot_same hf, decodeSlot_encode hh hw]
  · next hs => rw [slotBits_placeSlot_ne hf hs, decodeSlot_zero]

theorem soleOp_placeSlot {i : Instr} {h : Hdr} (hh : i.hdr? = some h) (hw : i.wf = true) :
    soleOp (decodeBundle (placeSlot h.slot (encode i))) = some i := by
  have hf := encode_fits hh hw
  have habove : ∀ start len, 336 ≤ start → (placeSlot h.slot (encode i)).extractLsb' start len = 0 := fun start len hs =>
    extract_placeSlot_outside hf (.inr (by have := h.slot.base_le; have := h.slot.width_le; omega))
  refine soleOp_lone hh ?_ ?_ ?_ (decodeBundle_placeSlot_ops hh hw)
  · have htest : ∀ k < 4, testBits (placeSlot h.slot (encode i)) k = 0 := fun k hk => habove _ _ (by omega)
    simpa [decodeBundle, habove] using htest
  · exact placeSlot_outside hf (.inr (by have := h.slot.base_le; have := h.slot.width_le; omega))
  · simp [decodeBundle, habove]

theorem decodeTableWord_escape (n : Nat) (b : BundleWord) : decodeTableWord n (0xFFFF + 65536 * b.toNat) = soleOp (decodeBundle b) := by
  have hm : (0xFFFF + 65536 * b.toNat) % 65536 = 0xFFFF := by omega
  have hd : (0xFFFF + 65536 * b.toNat) / 65536 = b.toNat := by omega
  rw [decodeTableWord, if_pos hm, hd, BitVec.ofNat_toNat, BitVec.setWidth_eq]

/-! ### The statements -/

/-- Settles O57. An operation's word is selected by its opcode and fits its slot, so it is found there and every other slot is empty; a word
that decodes to an operation was named by its opcode map and has passed the comparison with the operation's own word. -/
theorem decodeEncode : Obligations.DecodeEncode := by
  refine ⟨fun i h hh hw => ⟨decodeSlot_encode hh hw, slotBits_placeSlot_same (encode_fits hh hw), ?_⟩, Test.unpack_pack,
    fun slot raw h hh => ?_⟩
  · rw [decodeTableWord_escape, soleOp_placeSlot hh hw]
  · obtain ⟨hp, hw, he⟩ := decodeSlot_names hh
    obtain ⟨⟨h', hh', hs⟩, -⟩ := pick_names hp
    rw [hh] at hh'
    cases hh'
    exact ⟨hs, he, hw⟩

/-- Settles O56. Each legal word is what its operation encodes to; of the last two, one opcode names nothing, and one word has a bit that its
operation's own word has not. -/
theorem decodeWords : Obligations.DecodeWords := by
  refine ⟨?_, ?_, ?_, ?_, ?_, ?_, ?_, ?_, by decide, by decide⟩ <;> exact decodeSlot_of_encode rfl rfl (by decide) (by decide)

end Sys2Proof

/-! SUPPORT. The fall-through position (R89): what fetch gives as the next position, and where an empty bundle goes on. -/

namespace Sys2Proof.Machine

/-! ### The fall-through of a code -/

theorem fallOf_of_getElem? {stream : List (BitVec 16)} {p : Nat} {c : BitVec 16} (hc : stream[p]? = some c) :
    fallOf stream p = if c = 0xFFFF then p + 25 else p + 1 := by
  simp only [fallOf, hc, Option.some.injEq]

/-- What fetch gives as the next position is the fall-through (R89). -/
theorem fetchCode_next {dict : List BundleWord} {stream : List (BitVec 16)} {p next : Nat} {b : Bundle}
    (hf : fetchCode dict stream p = .bundle b next) : next = fallOf stream p := by
  unfold fetchCode at hf
  split at hf
  · cases hf
  · next c hc =>
    rw [fallOf_of_getElem? hc]
    split at hf
    · next he =>
      rw [if_pos he]
      dsimp only at hf
      split at hf <;> cases hf
      rfl
    · next he =>
      rw [if_neg he]
      repeat' split at hf
      all_goals cases hf
      rfl

/-! ### A bundle without slot operations and without a tree -/

theorem State.judgeSlots_nil (s t : State) (i : Nat) : s.judgeSlots i t.plainHead [] = (Bld.start (s.core i), none) := rfl

/-- A bundle that nothing but its slots can stop is settled as its slots were judged. -/
theorem issueBundle_judged {s : State} {ops : List SlotOp} {b : Bld} (hc : s.clear = true)
    (hj : s.atIssue.judgeSlots s.cur s.plainHead ops = (b, none)) :
    issueBundle s.plainHead ops s = .next (s.atIssue.settle s.cur s.plainHead b none) := by
  obtain ⟨hpow, hcan, hbub, hasy, hcla, hpre, herr, hilk⟩ := s.clear_iff.1 hc
  have hme := s.me_eq (State.clear_lt hc)
  have hbub' : ((s.landDue s.cur).core s.cur).bubbles = 0 := by rwa [hme, Core.relandNow_bubbles] at hbub
  have hasy' : ((s.landDue s.cur).core s.cur).nextAsync = none := by
    rwa [hme, Core.nextAsync, Core.relandNow_asyncs, Core.relandNow_x] at hasy
  have hnoerr := State.unitErrs_none herr b
  have hA : (s.landDue s.cur).modCore s.cur Core.relandNow = s.atIssue := rfl
  have hM : s.atIssue.core s.cur = s.me := rfl
  have hcode : s.plainHead.code = none := rfl
  have hbad : s.plainHead.bad = false := rfl
  have htests : s.plainHead.tests = [] := rfl
  unfold issueBundle State.issueOn
  simp only [hpow, hcan, hbub', hasy', hcla, hcode, hbad, htests, hA, hM, hj, hnoerr, evalTree,
    Bool.not_true, Bool.false_eq_true, if_false, if_true, Nat.lt_irrefl, Option.map_none, List.filter_nil, List.foldl_nil, List.find?_nil]
  refine congrArg Host.Outcome.next (if_neg ?_)
  cases hi : s.me.inst with
  | none => simp
  | some x =>
    cases hx : x.lh.ilk with
    | false => simp [hx]
    | true => simp [ilkWaits_nil (hilk x hi hx)]

/-- A bundle without effects retires, where the core has no more than its 16 results in flight and no pre-emption is forced. -/
theorem settle_start {s : State} (hc : s.clear = true) (hroom : s.me.inFlight ≤ 16) :
    s.atIssue.settle s.cur s.plainHead (Bld.start s.me) none = s.landing [] := by
  obtain ⟨-, -, -, -, -, hpre, -, -⟩ := s.clear_iff.1 hc
  have hM : s.atIssue.core s.cur = s.me := rfl
  have hroom' : ¬ 16 < s.me.inFlight + (Bld.start s.me).lands.length := Nat.not_lt.2 hroom
  have hsave : s.me.saveDue s.plainHead.drain = false := by
    unfold Core.saveDue
    cases hr : s.me.preempt with
    | none => rfl
    | some r =>
      have hlt : ¬ 65536 ≤ s.me.cycle - r := by have := hpre r hr; omega
      simp [State.plainHead, hlt]
  have hmiss : (Bld.start s.me).miss = [] := rfl
  have hpair : (Bld.start s.me).pair = none := rfl
  have hearly : (Bld.start s.me).early = none := rfl
  have hholds : (Bld.start s.me).holds = [] := rfl
  have hgrant : (Bld.start s.me).grant = none := rfl
  unfold State.settle State.proceed
  simp only [hM, hmiss, hpair, hearly, hholds, hgrant, hroom', hsave, List.isEmpty_nil, Bool.not_true, Bool.false_eq_true, if_false]
  rfl

/-- An empty bundle that nothing stops retires without effects (R86). -/
theorem exec_nop {s : State} (slot : Slot) (hc : s.clear = true) (hf : s.fits [] = true) : exec (.nop slot) s = .next (s.landing []) :=
  (issueBundle_judged hc (State.judgeSlots_nil s.atIssue s s.cur)).trans (congrArg Host.Outcome.next (settle_start hc (State.fits_room hf)))

/-! ### Where a bundle without a taken branch goes on -/

theorem closeLoops_stay {fall : Nat} {l : List LoopEntry} (h : ∀ e es, l = e :: es → e.stop.toNat ≠ fall) : closeLoops fall l = (l, fall) := by
  cases l with
  | nil => rfl
  | cons e es => rw [closeLoops, if_neg (h e es rfl)]

theorem State.landing_pos {s : State} (hcur : s.cur < 256) (hl : ∀ e es, s.me.r.loops = e :: es → e.stop.toNat ≠ s.fall) :
    ((s.landing []).core s.cur).pos = s.fall := by
  have hretire : s.landing [] = (s.atIssue.modCore s.cur fun c => c.commit (Bld.start s.me)).modCore s.cur
      fun c => c.pass (Bld.start s.me) none s.fall s.atIssue.pcc := rfl
  rw [hretire, State.core_modCore_self _ _ _ hcur, State.core_modCore_self _ _ _ hcur]
  show (closeLoops s.fall s.me.r.loops).2 = s.fall
  rw [closeLoops_stay hl]

/-! ### The statement -/

/-- Settles O55. Both ways to fetch a bundle give the fall-through of its code, and the empty bundle retires to it where no loop ends
there. -/
theorem fallThroughRule : Obligations.FallThroughRule := by
  refine ⟨fun dict stream p c b next hc hf => ?_, fun s slot hcur hcl hf hl => ?_⟩
  · have hn := fetchCode_next hf
    rw [fallOf_of_getElem? hc] at hn
    exact ⟨fun h => hn.trans (if_neg h), fun h => hn.trans (if_pos h), (fetchCode_next hf).symm⟩
  · exact ⟨_, exec_nop slot hcl hf, State.landing_pos hcur hl⟩

end Sys2Proof.Machine
